-- ==== Sys2Proof/Word.lean ====
section
/-! DEFINITION. The byte type of the two ports' frames and the type of a bank of numbered records. -/

namespace Sys2Proof

/-- One byte of a frame on the station link or the planning port (R192, R193). -/
abbrev Byte := BitVec 8

/-- A bank of numbered records: a list of index and record in one canonical form, the indexes strictly rising and no
listed record equal to its reset value. An index that is not listed holds its reset value (log 35). -/
abbrev Bank (α : Type) := List (Nat × α)

end Sys2Proof
end

