-- ==== Sys2Proof/Config.lean ====
section
/-! DEFINITION. The fixed sizes, ranges and defaults of the part, and its one free value. -/

namespace Sys2Proof.Config

/-- Piece records (R1). -/
def pieceRecords : Nat := 2048
/-- Entries of the primary table of the key directory (R9). -/
def primaryEntries : Nat := 4096
/-- Groups of the spill table of the key directory (R9). -/
def spillGroups : Nat := 512
/-- The greatest 32-bit number: creation sequences, tags, nest ids, arc times and sample numbers (R1, R63, R115, R135). -/
def max32 : Nat := 4294967295
/-- The greatest remnant number n (R5, R7). -/
def maxRemnant : Nat := 32767
/-- Pieces in the receiving row (R33). -/
def rowRoom : Nat := 32
/-- Pieces in one slot stack (R28, R30). -/
def stackRoom : Nat := 12
/-- Summed thickness of one slot stack, in 0.1 mm (R28, R30). -/
def heightRoom : Nat := 6000
/-- Pieces on one zone bed (R34). -/
def bedRoom : Nat := 2
/-- Greatest x of a hall position, in mm (R28, R38). -/
def hallX : Nat := 400000
/-- Greatest y of a hall position, in mm (R28, R38). -/
def hallY : Nat := 60000
/-- Candidates the search engine keeps (R43, R50). -/
def candidateRoom : Nat := 4
/-- Greatest search penalty (R44). -/
def maxPenalty : Nat := 65535
/-- Moves in one crane queue (R158). -/
def queueRoom : Nat := 16
/-- Entries of the poll list (R180). -/
def pollRoom : Nat := 32
/-- Cap of an allowance and its value when a speed is unknown, in mm (R143). -/
def allowanceCap : Nat := 20000
/-- Saturation of the 16-bit counters (R64, R115, R123, R131). -/
def max16 : Nat := 65535
/-- Greatest payload of a planning port frame (R183, R193). -/
def portPayload : Nat := 4096
/-- Greatest payload of a station link frame (R173, R193). -/
def linkPayload : Nat := 120
/-- What a flag byte other than 0 (clear) and 1 (set) means on the wire: R198 gives such a byte no meaning, so this is
a free value (log 28). -/
opaque oddFlag : Byte → Bool

end Sys2Proof.Config
end

