-- ==== Sys2Proof/Syntax.lean ====
section
/-! DEFINITION. The commands of the part: one constructor of `Instr` for each row of spec/opcode_table.json, with the
row's operands. A request's operands are the numbers its frame carries; they may lie outside the ranges of the spec,
because RANGE is an answer of the part. An event's operands are what the part reads from its lines at that event. -/

namespace Sys2Proof

/-- A key: the heat code as character codes, and the sequence (R5). -/
structure Key where
  heat : List Nat
  seq : Nat
  deriving DecidableEq, Repr, Inhabited

/-- A piece handle, index:generation (R2). -/
structure Handle where
  index : Nat
  gen : Nat
  deriving DecidableEq, Repr, Inhabited

/-- A usable rectangle: offsets in the frame of the parent plate, length and width (R1). -/
structure Rect where
  dx : Nat
  dy : Nat
  len : Nat
  wid : Nat
  deriving DecidableEq, Repr, Inhabited

/-- A slot as a request names it: bay and slot (R28). -/
structure SlotArg where
  bay : Nat
  slot : Nat
  deriving DecidableEq, Repr, Inhabited

/-- A zone as a request names it: table and bed code, 0 for A and 1 for B (R194). -/
structure ZoneArg where
  table : Nat
  bed : Nat
  deriving DecidableEq, Repr, Inhabited

/-- A location reference as a request names it (R194). `other` is a form byte that names no location. -/
inductive LocArg where
  | receiving
  | slot (a : SlotArg)
  | zone (a : ZoneArg)
  | hook (crane : Nat)
  | other (form : Nat)
  deriving DecidableEq, Repr

/-- The fields of RESTORE_PIECE (R17). `kind` is 0 PLATE or 1 REMNANT (R195); a plate carries no rectangles and no net
area. -/
structure RestoreArg where
  key : Key
  kind : Nat
  grade : Nat
  thickness : Nat
  len : Nat
  wid : Nat
  rects : List Rect
  net : Nat
  created : Nat
  hold : Bool
  loc : LocArg
  deriving DecidableEq, Repr

/-- A part of a nest as STAGE_NEST carries it (R66). -/
structure PartArg where
  text : Option (List Nat)
  x : Nat
  y : Nat
  deriving DecidableEq, Repr, Inhabited

/-- A remnant declaration as STAGE_NEST and DECLARE_REMNANT carry it (R65). -/
structure DeclArg where
  len : Nat
  wid : Nat
  rects : List Rect
  net : Nat
  deriving DecidableEq, Repr, Inhabited

/-- The fields of FIT (R44). `filter` is 0 REMNANT, 1 PLATE, 2 ANY. -/
structure FitArg where
  grade : Nat
  thickness : Nat
  len : Nat
  wid : Nat
  rotate : Bool
  filter : Nat
  depthPenalty : Option Nat
  platePenalty : Option Nat
  deriving DecidableEq, Repr, Inhabited

/-- The fields of SET_TORCH (R119). -/
structure TorchArg where
  number : Nat
  id : Option Nat
  limit : Option Nat
  weight : Option Nat
  deriving DecidableEq, Repr, Inhabited

/-- The fields of SET_AXIS (R137). Codes follow the lists of R123: mode 0 DISABLED, 1 MASTER, 2 LISTEN; parity 0 NONE,
1 EVEN, 2 ODD; code 0 BINARY, 1 GRAY; the master clock is in kHz. -/
structure AxisArg where
  mode : Option Nat
  dataBits : Option Nat
  statusBits : Option Nat
  parity : Option Nat
  code : Option Nat
  clock : Option Nat
  home : Option (BitVec 32)
  scale : Option Int
  offset : Option Int
  deriving DecidableEq, Repr

/-- The two survey points of CALIBRATE_AXIS (R138). -/
structure SurveyArg where
  mm1 : Int
  raw1 : Int
  mm2 : Int
  raw2 : Int
  deriving DecidableEq, Repr

/-- The fields of SET_CRANE (R154). -/
structure CraneArg where
  capacity : Option Nat
  west : Option Nat
  east : Option Nat
  deriving DecidableEq, Repr, Inhabited

/-- The fields of SET_RUNWAY (R155). -/
structure RunwayArg where
  length : Option Nat
  span : Option Nat
  separation : Option Nat
  lookAhead : Option Nat
  hysteresis : Option Nat
  overfly : Option Nat
  margin : Option Nat
  reach : Option Nat
  tolerance : Option Nat
  period : Option Nat
  staleLimit : Option Nat
  deriving DecidableEq, Repr, Inhabited

/-- Who sends a request that both the host and a station may send (R20, R21, R81). -/
inductive Sender where
  | host
  | station
  deriving DecidableEq, Repr

/-- The request kinds of the two ports, in the order of their codes 1 to 66 (R197). -/
inductive ReqKind where
  | noOp | enrolPlate | enrolRemnant | restorePiece | retirePiece | lookupKey | readPiece | setHold
  | releaseHold | reservePiece | unreservePiece | setSlot | setZone | setReceiving | readSlot | readReceiving
  | fit | fitReserve | readSearch | stageNest | withdrawNest | declareRemnant | startNest | skipPart
  | closeNest | setChain | zoneCleared | readTable | readZone | nextMark | markDone | markFailed
  | waiveMark | nextBurn | burnDone | burnAbandon | clearTableFault | setBurnTimes | mountTorch | unmountTorch
  | setTorch | resetTorch | readTorch | homeHoist | setAxis | calibrateAxis | readSample | clearOrderFault
  | setCrane | setRunway | queueMove | takeMove | picked | placed | moveAbandon | retargetMove
  | cancelMove | readCrane | setStation | setPollList | readLink | readNotices | setNoticeMask | openHall
  | resumeHall | clearRegistry
  deriving DecidableEq, Repr

/-- The commands of the part, one for each row of the opcode table. -/
inductive Instr where
  /-- Brings out the buffered reply (R182). -/
  | noOp
  /-- A planning port frame that is no request (R183): `none` for a bad frame, `some k` for a whole frame of kind `k`
  that spells no request of that kind. -/
  | portBadFrame (kind : Option Nat)
  /-- R15 -/
  | enrolPlate (key : Key) (grade thickness len wid : Nat)
  /-- R16 -/
  | enrolRemnant (zone : ZoneArg) (heat : List Nat) (grade thickness : Nat) (decl : DeclArg)
  /-- R17, R18 -/
  | restorePiece (a : RestoreArg)
  /-- R19 -/
  | retirePiece (h : Handle)
  /-- R20 -/
  | lookupKey (sender : Sender) (key : Key)
  /-- R21 -/
  | readPiece (sender : Sender) (h : Handle)
  /-- R22 -/
  | setHold (h : Handle)
  /-- R22 -/
  | releaseHold (h : Handle)
  /-- R23 -/
  | reservePiece (h : Handle) (tag : Nat)
  /-- R24 -/
  | unreservePiece (h : Handle) (tag : Nat)
  /-- R37 -/
  | setSlot (a : SlotArg) (x y : Nat) (enabled : Bool)
  /-- R38 -/
  | setZone (z : ZoneArg) (x y x0 x1 y0 y1 : Nat)
  /-- R39 -/
  | setReceiving (x y : Nat)
  /-- R40 -/
  | readSlot (a : SlotArg)
  /-- R41 -/
  | readReceiving
  /-- R44 -/
  | fit (a : FitArg)
  /-- R46 -/
  | fitReserve (a : FitArg) (tag : Nat)
  /-- R56 -/
  | readSearch
  /-- The engine judges the record at the cursor (R51). -/
  | walkStep
  /-- The walk is complete (R53). -/
  | searchCompletion
  /-- R66 -/
  | stageNest (z : ZoneArg) (id : Nat) (plate : Handle) (parts : List PartArg) (decls : List DeclArg)
  /-- R68 -/
  | withdrawNest (z : ZoneArg) (id : Nat)
  /-- R69; no declaration is the word REMOVE. -/
  | declareRemnant (z : ZoneArg) (id index : Nat) (decl : Option DeclArg)
  /-- R71 -/
  | startNest (z : ZoneArg) (id : Nat)
  /-- R72 -/
  | skipPart (z : ZoneArg) (id part : Nat)
  /-- R73 -/
  | closeNest (z : ZoneArg) (id : Nat)
  /-- R77 -/
  | setChain (table : Nat) (on : Bool)
  /-- R79 -/
  | zoneCleared (z : ZoneArg)
  /-- R80 -/
  | readTable (table : Nat)
  /-- R81 -/
  | readZone (sender : Sender) (z : ZoneArg)
  /-- R86 -/
  | nextMark (table : Nat)
  /-- R88, R89 -/
  | markDone (z : ZoneArg) (id part : Nat)
  /-- R88, R90 -/
  | markFailed (z : ZoneArg) (id part : Nat)
  /-- R92 -/
  | waiveMark (z : ZoneArg) (id part : Nat)
  /-- R98 -/
  | nextBurn (table : Nat)
  /-- R100, R101 -/
  | burnDone (z : ZoneArg) (id part : Nat)
  /-- R100, R102 -/
  | burnAbandon (z : ZoneArg) (id part : Nat)
  /-- A debounced arc-on edge (R108). -/
  | arcOnEdge (table : Nat)
  /-- A debounced arc-off edge; `onMs` is how long the arc that ends was on (R108 to R110). -/
  | arcOffEdge (table : Nat) (onMs : Nat)
  /-- R109 -/
  | pierceTimeReached (table : Nat)
  /-- R110 -/
  | arcTimeUnit (table : Nat)
  /-- R110 -/
  | burnOvertime (table : Nat)
  /-- R111 -/
  | stuckArcTimerExpiry (table : Nat)
  /-- R113 -/
  | clearTableFault (table : Nat)
  /-- R114 -/
  | setBurnTimes (pierce limit : Option Nat)
  /-- R117 -/
  | mountTorch (table id : Nat)
  /-- R118 -/
  | unmountTorch (table : Nat)
  /-- R119 -/
  | setTorch (a : TorchArg)
  /-- R120 -/
  | resetTorch (id : Nat)
  /-- R121 -/
  | readTorch (id : Nat)
  /-- The runway timer ticks; bit c of `lines` is set when the data line of channel c stands high (R126, R131). -/
  | sampleTick (lines : BitVec 6)
  /-- R126 -/
  | ssiDataReady (channel : Nat)
  /-- R126 -/
  | readyWaitExpiry (channel : Nat)
  /-- The clocking of a MASTER read ends: `bits` are the bits taken, the last one least significant, and `high` is the
  level of the data line at the end check (R126). -/
  | masterReadEnd (channel bits : Nat) (high : Bool)
  /-- A LISTEN frame ends: the bits received in order, and the clock period in microseconds where two falling edges came
  (R127). -/
  | listenFrameEnd (channel : Nat) (bits : List Bool) (period : Option Nat)
  /-- The quadrature inputs of a hoist change from `a`, `b` to `a'`, `b'` (R129). -/
  | quadratureTransition (crane : Nat) (a b a' b' : Bool)
  /-- A rising edge of a hoist's index input; `upper` is the level of its upper-limit input (R130). -/
  | indexPulse (crane : Nat) (upper : Bool)
  /-- R130 -/
  | homeHoist (crane : Nat)
  /-- R137; the axis letter is 0 X, 1 Y, 2 H. -/
  | setAxis (crane axis : Nat) (a : AxisArg)
  /-- R138 -/
  | calibrateAxis (crane axis : Nat) (a : SurveyArg)
  /-- R139 -/
  | readSample
  /-- R146; the western crane of the pair. -/
  | clearOrderFault (crane : Nat)
  /-- R154 -/
  | setCrane (crane : Nat) (a : CraneArg)
  /-- R155 -/
  | setRunway (a : RunwayArg)
  /-- R160 -/
  | queueMove (crane : Nat) (h : Handle) (dest : LocArg)
  /-- R161 -/
  | takeMove (crane : Nat)
  /-- R164, R165 -/
  | picked (crane id : Nat)
  /-- R164, R166 -/
  | placed (crane id : Nat)
  /-- R164, R167 -/
  | moveAbandon (crane id : Nat)
  /-- R168 -/
  | retargetMove (id : Nat) (dest : LocArg)
  /-- R169 -/
  | cancelMove (id : Nat)
  /-- R171 -/
  | readCrane (crane : Nat)
  /-- R175 -/
  | pollTurnStart
  /-- R176 -/
  | idleAnswer
  /-- R176 -/
  | badAnswer
  /-- R174 -/
  | replyWindowExpiry
  /-- R175 -/
  | pollTurnEnd
  /-- R179; the role (0 BURN, 1 MARK, 2 CRANE) and unit, or none for the word RELEASE. -/
  | setStation (address : Nat) (binding : Option (Nat × Nat))
  /-- R180; the bit rate in kbit/s, the window in microseconds. -/
  | setPollList (list : List Nat) (rate window : Option Nat)
  /-- R181 -/
  | readLink
  /-- R186 -/
  | readNotices
  /-- R187; bit k is the flag of the k-th kind of R184. -/
  | setNoticeMask (flags : BitVec 21)
  /-- R189 -/
  | openHall
  /-- R189 -/
  | resumeHall
  /-- R190 -/
  | clearRegistry
  /-- R188 -/
  | hallStop
  /-- R188 -/
  | hallStopRelease
  /-- R191 -/
  | deviceReset
  /-- A good REQUEST answer of kind `kind` that spells no request of that kind (R178). -/
  | stationUnknownRequest (kind : Nat)
  deriving DecidableEq, Repr

end Sys2Proof
end

