-- ==== Sys2Proof/WellFormed.lean ====
section
/-! DEFINITION. Which commands can come to the part at all: every operand of a request fits the bytes its field has on
the wire (R194, R198), and every event names an input the part has (00_scope.md). `exec` gives every command a meaning,
well-formed or not. -/

namespace Sys2Proof

/-- Fits one byte. -/
def fits8 (n : Nat) : Bool := n < 256
/-- Fits two bytes. -/
def fits16 (n : Nat) : Bool := n < 65536
/-- Fits four bytes. -/
def fits32 (n : Nat) : Bool := n ≤ Config.max32
/-- A signed number that fits four bytes in two's complement. -/
def fitsInt32 (i : Int) : Bool := -2147483648 ≤ i && i ≤ 2147483647

/-- An optional field that, where present, passes `p`. -/
def optFits {α : Type} (p : α → Bool) : Option α → Bool
  | none => true
  | some a => p a

/-- A list behind a count byte whose entries pass `p` (R198). -/
def listFits {α : Type} (p : α → Bool) (l : List α) : Bool := l.length < 256 && l.all p

/-- The eight bytes of a heat code (R5, R195). -/
def heatFits (heat : List Nat) : Bool := heat.length == 8 && heat.all fits8

/-- The ten bytes of a key (R198). -/
def Key.fits (k : Key) : Bool := heatFits k.heat && fits16 k.seq

/-- The three bytes of a handle (R194). -/
def Handle.fits (h : Handle) : Bool := fits16 h.index && fits8 h.gen

/-- The eight bytes of a rectangle (R195). -/
def Rect.fits (r : Rect) : Bool := fits16 r.dx && fits16 r.dy && fits16 r.len && fits16 r.wid

/-- Bay and slot, one byte each (R194). -/
def SlotArg.fits (a : SlotArg) : Bool := fits8 a.bay && fits8 a.slot

/-- Table and bed, one byte each (R194). -/
def ZoneArg.fits (a : ZoneArg) : Bool := fits8 a.table && fits8 a.bed

/-- The five bytes of a location reference (R194); a form byte above 3 names no location. -/
def LocArg.fits : LocArg → Bool
  | .receiving => true
  | .slot a => a.fits
  | .zone a => a.fits
  | .hook c => fits8 c
  | .other f => fits8 f && 3 < f

/-- A declaration's fields (R65, R198). -/
def DeclArg.fits (d : DeclArg) : Bool :=
  fits16 d.len && fits16 d.wid && listFits Rect.fits d.rects && fits32 d.net

/-- A part's fields (R66, R198). -/
def PartArg.fits (p : PartArg) : Bool := optFits (listFits fits8) p.text && fits16 p.x && fits16 p.y

/-- The fields of RESTORE_PIECE (R17, R198); only a remnant carries rectangles and a net area. -/
def RestoreArg.fits (a : RestoreArg) : Bool :=
  a.key.fits && fits8 a.kind && fits8 a.grade && fits16 a.thickness && fits16 a.len && fits16 a.wid &&
    listFits Rect.fits a.rects && fits32 a.net && (a.kind == 1 || (a.rects.isEmpty && a.net == 0)) &&
    fits32 a.created && a.loc.fits

/-- The fields of FIT (R44, R198). -/
def FitArg.fits (a : FitArg) : Bool :=
  fits8 a.grade && fits16 a.thickness && fits16 a.len && fits16 a.wid && fits8 a.filter &&
    optFits fits32 a.depthPenalty && optFits fits32 a.platePenalty

/-- The fields of SET_TORCH (R119, R198). -/
def TorchArg.fits (a : TorchArg) : Bool :=
  fits8 a.number && optFits fits16 a.id && optFits fits16 a.limit && optFits fits8 a.weight

/-- The fields of SET_AXIS (R137, R198). -/
def AxisArg.fits (a : AxisArg) : Bool :=
  optFits fits8 a.mode && optFits fits8 a.dataBits && optFits fits8 a.statusBits && optFits fits8 a.parity &&
    optFits fits8 a.code && optFits fits16 a.clock && optFits fitsInt32 a.scale && optFits fitsInt32 a.offset

/-- The fields of CALIBRATE_AXIS (R138, R198). -/
def SurveyArg.fits (a : SurveyArg) : Bool :=
  fitsInt32 a.mm1 && fitsInt32 a.raw1 && fitsInt32 a.mm2 && fitsInt32 a.raw2

/-- The fields of SET_CRANE (R154, R198). -/
def CraneArg.fits (a : CraneArg) : Bool :=
  optFits fits32 a.capacity && optFits fits16 a.west && optFits fits16 a.east

/-- The fields of SET_RUNWAY (R155, R198). -/
def RunwayArg.fits (a : RunwayArg) : Bool :=
  optFits fits32 a.length && optFits fits16 a.span && optFits fits16 a.separation && optFits fits16 a.lookAhead &&
    optFits fits16 a.hysteresis && optFits fits16 a.overfly && optFits fits16 a.margin && optFits fits32 a.reach &&
    optFits fits16 a.tolerance && optFits fits8 a.period && optFits fits8 a.staleLimit

/-- A table, an SSI channel, or a crane that the part has inputs for (00_scope.md). -/
def tableInput (t : Nat) : Bool := t < 6
/-- One of the six SSI channels (R123). -/
def channelInput (c : Nat) : Bool := c < 6
/-- One of the three hoists (R129). -/
def craneInput (c : Nat) : Bool := c < 3

/-- A command that can come to the part. -/
def Instr.wellFormed : Instr → Bool
  | .noOp => true
  | .portBadFrame k => optFits fits8 k
  | .enrolPlate k g t l w => k.fits && fits8 g && fits16 t && fits16 l && fits16 w
  | .enrolRemnant z h g t d => z.fits && heatFits h && fits8 g && fits16 t && d.fits
  | .restorePiece a => a.fits
  | .retirePiece h => h.fits
  | .lookupKey _ k => k.fits
  | .readPiece _ h => h.fits
  | .setHold h => h.fits
  | .releaseHold h => h.fits
  | .reservePiece h t => h.fits && fits32 t
  | .unreservePiece h t => h.fits && fits32 t
  | .setSlot a x y _ => a.fits && fits32 x && fits16 y
  | .setZone z x y x0 x1 y0 y1 => z.fits && fits32 x && fits16 y && fits32 x0 && fits32 x1 && fits16 y0 && fits16 y1
  | .setReceiving x y => fits32 x && fits16 y
  | .readSlot a => a.fits
  | .readReceiving => true
  | .fit a => a.fits
  | .fitReserve a t => a.fits && fits32 t
  | .readSearch => true
  | .walkStep => true
  | .searchCompletion => true
  | .stageNest z i h ps ds => z.fits && fits32 i && h.fits && listFits PartArg.fits ps && listFits DeclArg.fits ds
  | .withdrawNest z i => z.fits && fits32 i
  | .declareRemnant z i n d => z.fits && fits32 i && fits8 n && optFits DeclArg.fits d
  | .startNest z i => z.fits && fits32 i
  | .skipPart z i p => z.fits && fits32 i && fits8 p
  | .closeNest z i => z.fits && fits32 i
  | .setChain t _ => fits8 t
  | .zoneCleared z => z.fits
  | .readTable t => fits8 t
  | .readZone _ z => z.fits
  | .nextMark t => fits8 t
  | .markDone z i p => z.fits && fits32 i && fits8 p
  | .markFailed z i p => z.fits && fits32 i && fits8 p
  | .waiveMark z i p => z.fits && fits32 i && fits8 p
  | .nextBurn t => fits8 t
  | .burnDone z i p => z.fits && fits32 i && fits8 p
  | .burnAbandon z i p => z.fits && fits32 i && fits8 p
  | .arcOnEdge t => tableInput t
  | .arcOffEdge t _ => tableInput t
  | .pierceTimeReached t => tableInput t
  | .arcTimeUnit t => tableInput t
  | .burnOvertime t => tableInput t
  | .stuckArcTimerExpiry t => tableInput t
  | .clearTableFault t => fits8 t
  | .setBurnTimes p l => optFits fits16 p && optFits fits16 l
  | .mountTorch t i => fits8 t && fits16 i
  | .unmountTorch t => fits8 t
  | .setTorch a => a.fits
  | .resetTorch i => fits16 i
  | .readTorch i => fits16 i
  | .sampleTick _ => true
  | .ssiDataReady c => channelInput c
  | .readyWaitExpiry c => channelInput c
  | .masterReadEnd c _ _ => channelInput c
  | .listenFrameEnd c _ _ => channelInput c
  | .quadratureTransition c a b a' b' => craneInput c && (a != a' || b != b')
  | .indexPulse c _ => craneInput c
  | .homeHoist c => fits8 c
  | .setAxis c x a => fits8 c && fits8 x && a.fits
  | .calibrateAxis c x a => fits8 c && fits8 x && a.fits
  | .readSample => true
  | .clearOrderFault c => fits8 c
  | .setCrane c a => fits8 c && a.fits
  | .setRunway a => a.fits
  | .queueMove c h d => fits8 c && h.fits && d.fits
  | .takeMove c => fits8 c
  | .picked c i => fits8 c && fits16 i
  | .placed c i => fits8 c && fits16 i
  | .moveAbandon c i => fits8 c && fits16 i
  | .retargetMove i d => fits16 i && d.fits
  | .cancelMove i => fits16 i
  | .readCrane c => fits8 c
  | .pollTurnStart => true
  | .idleAnswer => true
  | .badAnswer => true
  | .replyWindowExpiry => true
  | .pollTurnEnd => true
  | .setStation a b => fits8 a && optFits (fun r => fits8 r.1 && fits8 r.2) b
  | .setPollList l r w => listFits fits8 l && optFits fits16 r && optFits fits16 w
  | .readLink => true
  | .readNotices => true
  | .setNoticeMask _ => true
  | .openHall => true
  | .resumeHall => true
  | .clearRegistry => true
  | .hallStop => true
  | .hallStopRelease => true
  | .deviceReset => true
  | .stationUnknownRequest k => fits8 k

end Sys2Proof
end

