-- ==== Sys2Proof/Decode.lean ====
section
/-! DEFINITION. From words and frames to commands. The opcode table gives its rows no bits, so `decodeTableWord` spells
no command. The frames of the two ports are read here: `portCommand` turns the bytes of one planning port transaction
into the command it spells (R182, R183, R193), and `linkCommand` the answer to a POLL (R173, R174, R193). -/

namespace Sys2Proof

/-- The command a table word spells: none, since spec/opcode_table.json gives no row any bits (log 34). -/
def decodeTableWord (_nbits _w : Nat) : Option Instr := none

namespace Wire

/-! ## CRC -/

/-- One bit of the CRC with generator x^16 + x^12 + x^5 + 1 (R173). -/
def crcBit (r : BitVec 16) : BitVec 16 := if r.msb then (r <<< 1) ^^^ 0x1021#16 else r <<< 1

/-- One byte, shifted in most significant bit first (R173). -/
def crcByte (r : BitVec 16) (b : Byte) : BitVec 16 :=
  (List.range 8).foldl (fun r _ => crcBit r) (r ^^^ (b.zeroExtend 16 <<< 8))

/-- The CRC of both ports: the register starts at all ones and is not inverted (R173, R183). -/
def crc (bytes : List Byte) : BitVec 16 := bytes.foldl crcByte 0xFFFF#16

/-- The two bytes of a CRC, high byte first (R173). -/
def crcBytes (bytes : List Byte) : List Byte :=
  [(crc bytes >>> 8).truncate 8, (crc bytes).truncate 8]

/-! ## Reading fields -/

/-- A reader of fields from a payload: none where the payload is too short (R183, R198). -/
abbrev Reader := StateT (List Byte) Option

/-- The next byte. -/
def nextByte : Reader Byte
  | [] => none
  | b :: r => some (b, r)

/-- An unsigned number of `n` bytes, high byte first (R192). -/
def number : (n : Nat) → (acc : Nat := 0) → Reader Nat
  | 0, acc => pure acc
  | n + 1, acc => do
    let b ← nextByte
    number n (acc * 256 + b.toNat)

/-- A signed number of four bytes in two's complement (R192). -/
def signed32 : Reader Int := do
  let n ← number 4
  pure (BitVec.ofNat 32 n).toInt

/-- A flag byte: 0 clear, 1 set (R198); any other byte has no stated meaning (log 28). -/
def flag : Reader Bool := do
  let b ← nextByte
  pure (if b = 0 then false else if b = 1 then true else Config.oddFlag b)

/-- An optional number for which 0 is not valid: 0 is absent (R192). -/
def optNumber (n : Nat) : Reader (Option Nat) := do
  let v ← number n
  pure (if v = 0 then none else some v)

/-- An optional value from a list: 0 is absent and the listed values follow from 1 (R198). -/
def optNamed : Reader (Option Nat) := do
  let v ← number 1
  pure (if v = 0 then none else some (v - 1))

/-- An optional field sent with a flag byte, its value following in every case (R192; log 28). -/
def flagged {α : Type} (r : Reader α) : Reader (Option α) := do
  let f ← flag
  let v ← r
  pure (if f then some v else none)

/-- `n` entries in order. -/
def entries {α : Type} (r : Reader α) : Nat → Reader (List α)
  | 0 => pure []
  | n + 1 => do
    let a ← r
    let l ← entries r n
    pure (a :: l)

/-- A list: a count byte, then its entries (R198). -/
def list {α : Type} (r : Reader α) : Reader (List α) := do
  let n ← number 1
  entries r n

/-- A heat code of eight character codes (R5). -/
def heatCode : Reader (List Nat) := entries (number 1) 8

/-- A key: heat code, then sequence (R198). -/
def key : Reader Key := do
  let h ← heatCode
  let s ← number 2
  pure ⟨h, s⟩

/-- A handle (R194). -/
def handle : Reader Handle := do
  let i ← number 2
  let g ← number 1
  pure ⟨i, g⟩

/-- A slot named by bay and slot. -/
def slotArg : Reader SlotArg := do
  let b ← number 1
  let s ← number 1
  pure ⟨b, s⟩

/-- A zone named by table and bed. -/
def zoneArg : Reader ZoneArg := do
  let t ← number 1
  let b ← number 1
  pure ⟨t, b⟩

/-- A location reference: form, then four bytes by form (R194). Only the bytes that name the location are read; the place
in the row, the stack position, the stack count and the zero bytes are passed over unjudged (log 38). A destination is sent
as one (log 67). -/
def location : Reader LocArg := do
  let f ← number 1
  let a ← number 1
  let b ← number 1
  let _ ← number 2
  pure (match f with
    | 0 => .receiving
    | 1 => .slot ⟨a, b⟩
    | 2 => .zone ⟨a, b⟩
    | 3 => .hook a
    | f => .other f)

/-- A rectangle (R195). -/
def rect : Reader Rect := do
  let dx ← number 2
  let dy ← number 2
  let l ← number 2
  let w ← number 2
  pure ⟨dx, dy, l, w⟩

/-- A declaration (R65). -/
def declArg : Reader DeclArg := do
  let l ← number 2
  let w ← number 2
  let rs ← list rect
  let n ← number 4
  pure ⟨l, w, rs, n⟩

/-- A part of STAGE_NEST: a mark text, absent when its count byte is 0, and the mark position (R66, R198). -/
def partArg : Reader PartArg := do
  let t ← list (number 1)
  let x ← number 2
  let y ← number 2
  pure ⟨if t.isEmpty then none else some t, x, y⟩

/-- The fields of FIT (R44). -/
def fitArg : Reader FitArg := do
  let g ← number 1
  let t ← number 2
  let l ← number 2
  let w ← number 2
  let r ← flag
  let k ← number 1
  let d ← flagged (number 4)
  let p ← flagged (number 4)
  pure ⟨g, t, l, w, r, k, d, p⟩

/-- The fields of RESTORE_PIECE (R17): a plate sends no rectangles and no net area (log 60). -/
def restoreArg : Reader RestoreArg := do
  let k ← key
  let kind ← number 1
  let g ← number 1
  let t ← number 2
  let l ← number 2
  let w ← number 2
  let rs ← if kind = 1 then list rect else pure []
  let net ← if kind = 1 then number 4 else pure 0
  let c ← number 4
  let h ← flag
  let loc ← location
  pure ⟨k, kind, g, t, l, w, rs, net, c, h, loc⟩

/-- The fields of SET_AXIS after the crane and the letter (R137), all nine for every letter, with the home count between
master clock and scale (log 66); the scale stands behind a flag (log 54). -/
def axisArg : Reader AxisArg := do
  let m ← optNamed
  let d ← optNumber 1
  let s ← flagged (number 1)
  let p ← optNamed
  let c ← optNamed
  let k ← optNumber 2
  let h ← flagged (number 4)
  let sc ← flagged signed32
  let o ← flagged signed32
  pure ⟨m, d, s, p, c, k, h.map (BitVec.ofNat 32), sc, o⟩

/-- The fields of SET_RUNWAY (R155). -/
def runwayArg : Reader RunwayArg := do
  let len ← optNumber 4
  let span ← optNumber 2
  let sep ← optNumber 2
  let look ← flagged (number 2)
  let hyst ← flagged (number 2)
  let fly ← optNumber 2
  let marg ← flagged (number 2)
  let rea ← flagged (number 4)
  let tol ← optNumber 2
  let per ← optNumber 1
  let lim ← optNumber 1
  pure ⟨len, span, sep, look, hyst, fly, marg, rea, tol, per, lim⟩

/-- A zone, nest id and part index, as the station reports and the part requests name a part. -/
def partName {α : Type} (f : ZoneArg → Nat → Nat → α) : Reader α := do
  let z ← zoneArg
  let i ← number 4
  let p ← number 1
  pure (f z i p)

/-- A zone and a nest id. -/
def nestName {α : Type} (f : ZoneArg → Nat → α) : Reader α := do
  let z ← zoneArg
  let i ← number 4
  pure (f z i)

end Wire

open Wire

/-- The code of a request kind (R197). -/
def ReqKind.code (k : ReqKind) : Nat := k.ctorIdx + 1

/-- The request kinds reserved to stations (R183). -/
def ReqKind.stationOnly : ReqKind → Bool
  | .nextBurn | .burnDone | .burnAbandon | .zoneCleared | .nextMark | .markDone | .markFailed | .takeMove | .picked
  | .placed | .moveAbandon => true
  | _ => false

/-- The request kinds that both ports take (R20, R21, R81). -/
def ReqKind.shared : ReqKind → Bool
  | .lookupKey | .readPiece | .readZone => true
  | _ => false

/-- The request kinds in the order of their codes (R197). -/
def ReqKind.all : List ReqKind :=
  [.noOp, .enrolPlate, .enrolRemnant, .restorePiece, .retirePiece, .lookupKey, .readPiece, .setHold, .releaseHold,
    .reservePiece, .unreservePiece, .setSlot, .setZone, .setReceiving, .readSlot, .readReceiving, .fit, .fitReserve,
    .readSearch, .stageNest, .withdrawNest, .declareRemnant] ++
  [.startNest, .skipPart, .closeNest, .setChain, .zoneCleared, .readTable, .readZone, .nextMark, .markDone, .markFailed,
    .waiveMark, .nextBurn, .burnDone, .burnAbandon, .clearTableFault, .setBurnTimes, .mountTorch, .unmountTorch,
    .setTorch, .resetTorch, .readTorch, .homeHoist] ++
  [.setAxis, .calibrateAxis, .readSample, .clearOrderFault, .setCrane, .setRunway, .queueMove, .takeMove, .picked,
    .placed, .moveAbandon, .retargetMove, .cancelMove, .readCrane, .setStation, .setPollList, .readLink, .readNotices,
    .setNoticeMask, .openHall, .resumeHall, .clearRegistry]

/-- The kind a code names; code 0 names none (R197). -/
def ReqKind.ofCode (n : Nat) : Option ReqKind := if n = 0 then none else ReqKind.all[n - 1]?

/-- The fields of a request of kind `k`, in the order its entry names them (R198): SET_SLOT, SET_ZONE and SET_TORCH name
the slot, the zone and the record number after the values (log 39). SET_TORCH and the other optional numbers for which 0
is not valid read 0 as left out (R192; log 42). The unit's byte follows its flag in every
case; a role without its unit is no SET_STATION, and RELEASE with one is RELEASE (log 49). The declaration of
DECLARE_REMNANT stands behind a flag, which is 0 for REMOVE (log 52). -/
def request (sender : Sender) : ReqKind → Reader Instr
  | .noOp => pure .noOp
  | .enrolPlate => do
    let k ← key
    let g ← number 1
    let t ← number 2
    let l ← number 2
    let w ← number 2
    pure (.enrolPlate k g t l w)
  | .enrolRemnant => do
    let z ← zoneArg
    let h ← heatCode
    let g ← number 1
    let t ← number 2
    let d ← declArg
    pure (.enrolRemnant z h g t d)
  | .restorePiece => return .restorePiece (← restoreArg)
  | .retirePiece => return .retirePiece (← handle)
  | .lookupKey => return .lookupKey sender (← key)
  | .readPiece => return .readPiece sender (← handle)
  | .setHold => return .setHold (← handle)
  | .releaseHold => return .releaseHold (← handle)
  | .reservePiece => return .reservePiece (← handle) (← number 4)
  | .unreservePiece => return .unreservePiece (← handle) (← number 4)
  | .setSlot => do
    let x ← number 4
    let y ← number 2
    let f ← flag
    let n ← slotArg
    pure (.setSlot n x y f)
  | .setZone => do
    let x ← number 4
    let y ← number 2
    let x0 ← number 4
    let x1 ← number 4
    let y0 ← number 2
    let y1 ← number 2
    let z ← zoneArg
    pure (.setZone z x y x0 x1 y0 y1)
  | .setReceiving => return .setReceiving (← number 4) (← number 2)
  | .readSlot => return .readSlot (← slotArg)
  | .readReceiving => pure .readReceiving
  | .fit => return .fit (← fitArg)
  | .fitReserve => return .fitReserve (← fitArg) (← number 4)
  | .readSearch => pure .readSearch
  | .stageNest => do
    let z ← zoneArg
    let i ← number 4
    let h ← handle
    let ps ← list partArg
    let ds ← list declArg
    pure (.stageNest z i h ps ds)
  | .withdrawNest => nestName .withdrawNest
  | .declareRemnant => do
    let z ← zoneArg
    let i ← number 4
    let n ← number 1
    let f ← flag
    let d ← if f then some <$> declArg else pure none
    pure (.declareRemnant z i n d)
  | .startNest => nestName .startNest
  | .skipPart => partName .skipPart
  | .closeNest => nestName .closeNest
  | .setChain => return .setChain (← number 1) (← flag)
  | .zoneCleared => return .zoneCleared (← zoneArg)
  | .readTable => return .readTable (← number 1)
  | .readZone => return .readZone sender (← zoneArg)
  | .nextMark => return .nextMark (← number 1)
  | .markDone => partName .markDone
  | .markFailed => partName .markFailed
  | .waiveMark => partName .waiveMark
  | .nextBurn => return .nextBurn (← number 1)
  | .burnDone => partName .burnDone
  | .burnAbandon => partName .burnAbandon
  | .clearTableFault => return .clearTableFault (← number 1)
  | .setBurnTimes => return .setBurnTimes (← optNumber 2) (← optNumber 2)
  | .mountTorch => return .mountTorch (← number 1) (← number 2)
  | .unmountTorch => return .unmountTorch (← number 1)
  | .setTorch => do
    let i ← optNumber 2
    let l ← optNumber 2
    let w ← optNumber 1
    let n ← number 1
    pure (.setTorch ⟨n, i, l, w⟩)
  | .resetTorch => return .resetTorch (← number 2)
  | .readTorch => return .readTorch (← number 2)
  | .homeHoist => return .homeHoist (← number 1)
  | .setAxis => return .setAxis (← number 1) (← number 1) (← axisArg)
  | .calibrateAxis => return .calibrateAxis (← number 1) (← number 1) ⟨← signed32, ← signed32, ← signed32, ← signed32⟩
  | .readSample => pure .readSample
  | .clearOrderFault => return .clearOrderFault (← number 1)
  | .setCrane => return .setCrane (← number 1) ⟨← flagged (number 4), ← flagged (number 2), ← flagged (number 2)⟩
  | .setRunway => return .setRunway (← runwayArg)
  | .queueMove => return .queueMove (← number 1) (← handle) (← location)
  | .takeMove => return .takeMove (← number 1)
  | .picked => return .picked (← number 1) (← number 2)
  | .placed => return .placed (← number 1) (← number 2)
  | .moveAbandon => return .moveAbandon (← number 1) (← number 2)
  | .retargetMove => return .retargetMove (← number 2) (← location)
  | .cancelMove => return .cancelMove (← number 2)
  | .readCrane => return .readCrane (← number 1)
  | .setStation => do
    let a ← number 1
    let r ← optNamed
    let u ← flagged (number 1)
    match r, u with
    | none, _ => pure (.setStation a none)
    | some r, some u => pure (.setStation a (some (r, u)))
    | some _, none => fun _ => none
  | .setPollList => return .setPollList (← list (number 1)) (← optNumber 2) (← optNumber 2)
  | .readLink => pure .readLink
  | .readNotices => pure .readNotices
  | .setNoticeMask => do
    let fs ← entries flag 21
    pure (.setNoticeMask (BitVec.ofNat 21 (fs.foldr (fun f n => 2 * n + f.toNat) 0)))
  | .openHall => pure .openHall
  | .resumeHall => pure .resumeHall
  | .clearRegistry => pure .clearRegistry

/-- The command a request's kind code and payload spell at the port of `sender`: none where the kind is not one of that
port, or the payload is too short or too long for it (R178, R183, R198). -/
def requestOf (sender : Sender) (code : Nat) (payload : List Byte) : Option Instr := do
  let k ← ReqKind.ofCode code
  let mine := match sender with
    | .host => !k.stationOnly
    | .station => k.stationOnly || k.shared
  if mine then
    match (request sender k).run payload with
    | some (i, []) => some i
    | _ => none
  else none

/-- The command one planning port transaction spells, from the bytes clocked in while chip select was low: none where no
byte was clocked; bytes after the frame's CRC are passed over (R182, R183). -/
def portCommand : List Byte → Option Instr
  | [] => none
  | l1 :: l0 :: k :: rest =>
    let n := l1.toNat * 256 + l0.toNat
    if Config.portPayload < n || rest.length < n + 2 then some (.portBadFrame none)
    else if (rest.drop n).take 2 ≠ crcBytes (l1 :: l0 :: k :: rest.take n) then some (.portBadFrame none)
    else match requestOf .host k.toNat (rest.take n) with
      | some i => some i
      | none => some (.portBadFrame (some k.toNat))
  | _ => some (.portBadFrame none)

/-- The bits of a byte on the planning port, the most significant first (R182). -/
def portByteBits (b : Byte) : List Bool := (List.range 8).map fun i => b.getLsbD (7 - i)

/-- The bits of bytes on the planning port (R182). -/
def portBits (l : List Byte) : List Bool := l.flatMap portByteBits

/-- The whole bytes that bits taken in make; the bits of a byte that the end of the transaction cuts short make none (R182,
log 59). -/
def portBytes : List Bool → List Byte
  | a :: b :: c :: d :: e :: f :: g :: h :: r =>
    BitVec.ofNat 8 ([a, b, c, d, e, f, g, h].foldl (fun v x => 2 * v + x.toNat) 0) :: portBytes r
  | _ => []

/-- The bits taken from the levels of clock and host data, in their order in time, the clock having stood at `was`: the data
at each rising edge (SPI mode 0, R182). -/
def sampledBits : (was : Bool) → List (Bool × Bool) → List Bool
  | _, [] => []
  | was, (clock, data) :: r => if !was && clock then data :: sampledBits clock r else sampledBits clock r

/-- The command one transaction spells, from the levels of clock and host data while chip select was low; the clock idles low
(R182). -/
def portTransaction (lines : List (Bool × Bool)) : Option Instr := portCommand (portBytes (sampledBits false lines))

/-- The command the answer of a polled station spells, from the bytes heard after the POLL: no start byte is the expiry of
the reply window; `timely` tells whether every byte came in its time (R174). Bytes heard before the start byte are passed
over (log 58). A REQUEST with an empty payload names no kind (code 0). -/
def linkCommand (polled : Nat) (timely : Bool) (heard : List Byte) : Instr :=
  match heard.dropWhile (· ≠ 0x7E#8) with
  | [] => .replyWindowExpiry
  | _ :: addr :: kind :: len :: rest =>
    let n := len.toNat
    let payload := rest.take n
    if !timely || addr.toNat ≠ polled || Config.linkPayload < n || rest.length < n + 2 ||
        (rest.drop n).take 2 ≠ crcBytes (addr :: kind :: len :: payload) then .badAnswer
    else match kind.toNat, payload with
      | 1, _ => .idleAnswer
      | 2, [] => .stationUnknownRequest 0
      | 2, k :: fields => (requestOf .station k.toNat fields).getD (.stationUnknownRequest k.toNat)
      | _, _ => .badAnswer
  | _ => .badAnswer

/-- A frame of the station link that the part sends, of kind 0 POLL or 3 REPLY: none for a payload of more than 120
bytes, which no frame holds (R173, R193). -/
def linkFrame (address kind : Nat) (payload : List Byte) : Option (List Byte) :=
  if Config.linkPayload < payload.length then none
  else
    let body := BitVec.ofNat 8 address :: BitVec.ofNat 8 kind :: BitVec.ofNat 8 payload.length :: payload
    some (0x7E#8 :: (body ++ crcBytes body))

/-- A byte as the link sends it: one start bit, eight data bits with the least significant first, one stop bit (R173).
The start bit is 0 and the stop bit 1 (log 47). -/
def serialByte (b : Byte) : List Bool := false :: ((List.range 8).map b.getLsbD ++ [true])

/-- The bits of a frame on the line, byte by byte (R173). -/
def serialFrame (frame : List Byte) : List Bool := frame.flatMap serialByte

end Sys2Proof
end

