-- ==== Sys2Proof/Machine/State.lean ====
section
/-! DEFINITION. The state of the part as plain data, block by block as 00_scope.md divides it, the replies it forms,
and the state after device reset. Each `reset` value is the one the spec gives (INVENTORY.md lists the rules). -/

namespace Sys2Proof.Machine

/-- The status values of replies, in the order of their codes (R196). -/
inductive Status where
  | ok | accepted | none | busy | stale | notFound | badState
  | wrongMode | range | duplicateKey | directoryFull | registryFull | noRoom | occupied
  | buried | overweight | queueFull | wrongPlace | zoneHeld | waitMark | torchWorn
  | torchFault | tableFault | stopped | notYours | cancelled | aborted | unknownRequest
  deriving DecidableEq, Repr, Inhabited

/-- The hall modes COLD, OPEN and STOPPED (R188). -/
inductive Mode where
  | cold | opened | stopped
  deriving DecidableEq, Repr, Inhabited

/-- The two beds of a table (R60). -/
inductive Bed where
  | a | b
  deriving DecidableEq, Repr, Inhabited

/-! ## Stock Registry (chapter 1) -/

/-- PLATE or REMNANT (R1). -/
inductive Kind where
  | plate | remnant
  deriving DecidableEq, Repr, Inhabited

/-- The states of a live piece (R3). -/
inductive PieceState where
  | arriving | stored | inTransit | onTable | inCut
  deriving DecidableEq, Repr, Inhabited

/-- The collection a live piece stands in (R26): slot `16 * bay + slot`, zone `2 * table + bed`. The stack position is
the piece's place in the slot's stack (log 8). -/
inductive Place where
  | receiving
  | slot (n : Nat)
  | zone (z : Nat)
  | hook (c : Nat)
  deriving DecidableEq, Repr, Inhabited

/-- Who holds a reservation (R1). -/
inductive Holder where
  | host | nest
  deriving DecidableEq, Repr, Inhabited

/-- A reservation: holder and 32-bit tag (R1). -/
structure Reservation where
  holder : Holder
  tag : Nat
  deriving DecidableEq, Repr, Inhabited

/-- The fields of a live piece (R1). A plate has no rectangles of its own. -/
structure Piece where
  key : Key
  kind : Kind
  grade : Nat
  thickness : Nat
  len : Nat
  wid : Nat
  rects : List Rect
  net : Nat
  mass : Nat
  state : PieceState
  place : Place
  reservation : Option Reservation
  hold : Bool
  move : Option Nat
  created : Nat
  deriving DecidableEq, Repr, Inhabited

/-- One of the 2048 records: its generation and, while it is in use, its piece (R1, R2). -/
structure PieceRecord where
  gen : Nat
  live : Option Piece
  deriving DecidableEq, Repr, Inhabited

/-- A free record of generation 0 (R25). -/
def PieceRecord.reset : PieceRecord := ⟨0, none⟩

/-- A key and its handle, as the directory holds them (R9). -/
structure DirItem where
  key : Key
  handle : Handle
  deriving DecidableEq, Repr, Inhabited

/-- An entry of the primary table (R9). -/
inductive DirEntry where
  | empty
  | direct (item : DirItem)
  | spill (group : Nat)
  deriving DecidableEq, Repr, Inhabited

/-- A group of the spill table: in use or free, with four slots (R9). -/
structure SpillGroup where
  inUse : Bool
  slots : List (Option DirItem)
  deriving DecidableEq, Repr, Inhabited

/-- A free group, every slot empty (R9). -/
def SpillGroup.reset : SpillGroup := ⟨false, [none, none, none, none]⟩

/-- The Stock Registry. -/
structure Srg where
  records : Bank PieceRecord
  primary : Bank DirEntry
  groups : Bank SpillGroup
  creation : Nat
  remnant : Nat
  deriving DecidableEq, Repr

/-- R25 -/
def Srg.reset : Srg := ⟨[], [], [], 1, 1⟩

/-! ## Location Map (chapter 2) -/

/-- A slot record (R28); the stack is listed bottom to top, and its count is its length. -/
structure Slot where
  x : Nat
  y : Nat
  enabled : Bool
  stack : List Handle
  height : Nat
  inCount : Nat
  inThick : Nat
  outCount : Nat
  deriving DecidableEq, Repr, Inhabited

/-- R28 -/
def Slot.reset : Slot := ⟨0, 0, false, [], 0, 0, 0, 0⟩

/-- A zone's bed and geometry (R34, R35). -/
structure BedRec where
  pieces : List Handle
  x : Nat
  y : Nat
  x0 : Nat
  x1 : Nat
  y0 : Nat
  y1 : Nat
  configured : Bool
  deriving DecidableEq, Repr, Inhabited

/-- R35 -/
def BedRec.reset : BedRec := ⟨[], 0, 0, 0, 0, 0, 0, false⟩

/-- The Location Map. -/
structure Lmap where
  slots : Bank Slot
  receiving : List Handle
  recvX : Nat
  recvY : Nat
  beds : Bank BedRec
  hooks : Bank (Option Handle)
  deriving DecidableEq, Repr

/-- R42 -/
def Lmap.reset : Lmap := ⟨[], [], 0, 0, [], []⟩

/-! ## Fit Search Engine (chapter 3) -/

/-- The states of the engine (R43). -/
inductive SearchState where
  | idle | scanning | ready
  deriving DecidableEq, Repr, Inhabited

/-- The outcomes of a search (R43). -/
inductive SearchOutcome where
  | ok | none | aborted
  deriving DecidableEq, Repr, Inhabited

/-- The kind filter of a search (R44). -/
inductive KindFilter where
  | remnant | plate | any
  deriving DecidableEq, Repr, Inhabited

/-- The request copy (R43); the tag is present for FIT_RESERVE, which tells the two kinds of request apart. -/
structure SearchRequest where
  grade : Nat
  thickness : Nat
  len : Nat
  wid : Nat
  rotate : Bool
  filter : KindFilter
  tag : Option Nat
  depthPenalty : Nat
  platePenalty : Nat
  deriving DecidableEq, Repr, Inhabited

/-- What a candidate also holds in READY, as it stood at completion (R43, R53). -/
structure CandidateDetail where
  key : Key
  slot : Nat
  depth : Nat
  net : Nat
  deriving DecidableEq, Repr, Inhabited

/-- A candidate entry (R43). The creation sequence orders entries of equal score (R50). -/
structure Candidate where
  handle : Handle
  score : Nat
  rect : Nat
  rotated : Bool
  created : Nat
  detail : Option CandidateDetail
  deriving DecidableEq, Repr, Inhabited

/-- The search result and the two penalties (R43). `overwritten` is absent, or present with an optional handle. -/
structure Fse where
  phase : SearchState
  outcome : Option SearchOutcome
  readFlag : Bool
  overwritten : Option (Option Handle)
  request : Option SearchRequest
  cursor : Nat
  candidates : List Candidate
  reserved : Option Handle
  depthPenalty : Nat
  platePenalty : Nat
  deriving DecidableEq, Repr

/-- R43 -/
def Fse.reset : Fse := ⟨.idle, none, false, none, none, 0, [], none, 20000, 50000⟩

/-! ## Table Controller (chapter 4) -/

/-- The phases of a zone (R60). -/
inductive Phase where
  | clear | loading | loaded | cutting | cut
  deriving DecidableEq, Repr, Inhabited

/-- The states of a nest (R63). -/
inductive NestState where
  | staged | active | closed
  deriving DecidableEq, Repr, Inhabited

/-- The mark states of a part (R64, R84). -/
inductive MarkState where
  | notRequired | pending | issued | marked | failed | waived
  deriving DecidableEq, Repr, Inhabited

/-- The burn states of a part (R64). -/
inductive PartBurn where
  | pending | burning | interrupted | burnt | skipped
  deriving DecidableEq, Repr, Inhabited

/-- A part record; its index is its place in the nest's list (R64). -/
structure Part where
  text : Option (List Nat)
  x : Nat
  y : Nat
  mark : MarkState
  markFailures : Nat
  burn : PartBurn
  starts : Nat
  arcTime : Nat
  failedPierces : Nat
  deriving DecidableEq, Repr, Inhabited

/-- The outcome of a declaration at close: the remnant's handle, or the status that refused it (R65). -/
inductive DeclOutcome where
  | created (h : Handle)
  | refused (st : Status)
  deriving DecidableEq, Repr

/-- A remnant declaration (R65). -/
structure Decl where
  arg : DeclArg
  outcome : Option DeclOutcome
  deriving DecidableEq, Repr

/-- A nest (R63). -/
structure Nest where
  id : Nat
  plate : Handle
  state : NestState
  parts : List Part
  decls : List Decl
  deriving DecidableEq, Repr

/-- The TBC's part of a table record (R59). -/
structure Table where
  active : Option Bed
  chain : Bool
  deriving DecidableEq, Repr, Inhabited

/-- R59 -/
def Table.reset : Table := ⟨none, false⟩

/-- A zone record (R60). -/
structure Zone where
  phase : Phase
  nest : Option Nest
  inbound : Option Nat
  deriving DecidableEq, Repr

/-- R60 -/
def Zone.reset : Zone := ⟨.clear, none, none⟩

/-- The Table Controller. -/
structure Tbc where
  tables : Bank Table
  zones : Bank Zone
  deriving DecidableEq, Repr

/-- R82 -/
def Tbc.reset : Tbc := ⟨[], []⟩

/-! ## Mark Dispatcher (chapter 5) -/

/-- The bed, nest id and part index by which an issue or a grant of a table names a part (R83, R96). -/
structure PartRef where
  bed : Bed
  nest : Nat
  part : Nat
  deriving DecidableEq, Repr, Inhabited

/-- How an issue ended (R83). -/
inductive IssueEnd where
  | done | failed | withdrawn
  deriving DecidableEq, Repr, Inhabited

/-- The issued mark and the ended issue of a table (R83). -/
structure Marks where
  issued : Option PartRef
  ended : Option (PartRef × IssueEnd)
  deriving DecidableEq, Repr, Inhabited

/-- R83 -/
def Marks.reset : Marks := ⟨none, none⟩

/-- The Mark Dispatcher. -/
structure Mkd where
  marks : Bank Marks
  deriving DecidableEq, Repr

/-- R83 -/
def Mkd.reset : Mkd := ⟨[]⟩

/-! ## Burn Supervisor (chapter 6) -/

/-- The burn state of a table (R96). -/
inductive BurnState where
  | idle | granted | fault
  deriving DecidableEq, Repr, Inhabited

/-- The causes of a revocation (R103). -/
inductive Cause where
  | hallStop | station | intrusion | torchFault | overtime
  deriving DecidableEq, Repr, Inhabited

/-- How a grant ended (R96). -/
inductive GrantEnd where
  | done | abandoned | revoked (cause : Cause)
  deriving DecidableEq, Repr, Inhabited

/-- A grant (R96). `resumed` is what the repeated answer must tell again (R98, R99; log 20). -/
structure Grant where
  ref : PartRef
  arcTime : Nat
  pierceMin : Nat
  burnLimit : Nat
  resumed : Bool
  deriving DecidableEq, Repr, Inhabited

/-- The burn records of a table (R96). -/
structure Burn where
  state : BurnState
  grant : Option Grant
  ended : Option (PartRef × GrantEnd)
  permissive : Bool
  deriving DecidableEq, Repr, Inhabited

/-- R96 -/
def Burn.reset : Burn := ⟨.idle, none, none, false⟩

/-- The states of an arc monitor (R107). -/
inductive ArcState where
  | off | piercing | cutting
  deriving DecidableEq, Repr, Inhabited

/-- The arc monitor of a table (R107, R110, R111): its state, whether the stuck-arc timer runs, the carried remainder in
ms, and the 0.1 s units counted so far in the arc that is on (log 19). -/
structure Monitor where
  state : ArcState
  stuck : Bool
  carry : Nat
  units : Nat
  deriving DecidableEq, Repr, Inhabited

/-- R107 -/
def Monitor.reset : Monitor := ⟨.off, false, 0, 0⟩

/-- The states of a torch (R115). -/
inductive TorchState where
  | spare | inService | worn | fault
  deriving DecidableEq, Repr, Inhabited

/-- A torch record (R115). -/
structure Torch where
  id : Nat
  state : TorchState
  mounted : Option Nat
  starts : Nat
  arcTime : Nat
  limit : Nat
  weight : Nat
  failed : Nat
  deriving DecidableEq, Repr, Inhabited

/-- The torch record of number `n` after device reset (R115). -/
def Torch.reset (n : Nat) : Torch := ⟨n + 1, .spare, none, 0, 0, 10000, 40, 0⟩

/-- The Burn Supervisor. -/
structure Bsv where
  burns : Bank Burn
  grantHeld : Bank Bool
  monitors : Bank Monitor
  torches : Bank Torch
  pierceMin : Nat
  burnLimit : Nat
  deriving DecidableEq, Repr

/-- R122 -/
def Bsv.reset : Bsv := ⟨[], [], [], [], 250, 900⟩

/-! ## Runway Sensor Unit (chapter 7) -/

/-- Channel modes (R123). -/
inductive ChannelMode where
  | disabled | master | listen
  deriving DecidableEq, Repr, Inhabited

/-- Parity settings (R123). -/
inductive Parity where
  | none | even | odd
  deriving DecidableEq, Repr, Inhabited

/-- Position codes (R123). -/
inductive PosCode where
  | binary | gray
  deriving DecidableEq, Repr, Inhabited

/-- The settings by which a frame is judged (R123, R125); the clock is in kHz. -/
structure FrameSettings where
  dataBits : Nat
  statusBits : Nat
  parity : Parity
  code : PosCode
  clock : Nat
  deriving DecidableEq, Repr, Inhabited

/-- The results of a sample read, in the order of R132's table; BIT_COUNT is never one of a sample read. -/
inductive ReadResult where
  | good | noData | parity | encoderAlarm | bitCount | noFrame | disabled | unconfigured | range
  deriving DecidableEq, Repr, Inhabited

/-- The phases of a MASTER read (R126). -/
inductive FlightPhase where
  | waiting | clocking
  deriving DecidableEq, Repr, Inhabited

/-- A MASTER read in flight, with the settings and the ready wait in ms it was launched with (R126, R136). -/
structure Flight where
  phase : FlightPhase
  settings : FrameSettings
  wait : Nat
  deriving DecidableEq, Repr, Inhabited

/-- How a LISTEN frame's bit count compared with the expected count (R123). -/
inductive FrameLength where
  | less | exact | more
  deriving DecidableEq, Repr, Inhabited

/-- How a LISTEN frame was judged (R123, R127). -/
inductive FrameResult where
  | passed | bitCount | parity | encoderAlarm
  deriving DecidableEq, Repr, Inhabited

/-- An SSI channel (R123). -/
structure Channel where
  mode : ChannelMode
  settings : FrameSettings
  flight : Option Flight
  held : Option Nat
  lastResult : ReadResult
  lastRaw : Nat
  lastStatus : List Bool
  lastLength : FrameLength
  lastFrame : Option FrameResult
  period : Nat
  good : Nat
  failed : Nat
  deriving DecidableEq, Repr, Inhabited

/-- R123 -/
def Channel.reset : Channel :=
  ⟨.disabled, ⟨24, 0, .none, .binary, 400⟩, none, none, .disabled, 0, [], .exact, none, 0, 0, 0⟩

/-- Axis validity (R124). -/
inductive Validity where
  | valid | held | stale | unhomed
  deriving DecidableEq, Repr, Inhabited

/-- An axis: X, Y, H of crane c are axes 3 * c, 3 * c + 1, 3 * c + 2 (R124). An absent `delta` is unknown. -/
structure Axis where
  scale : Int
  offset : Int
  value : Int
  validity : Validity
  age : Nat
  good : Bool
  delta : Option Int
  deriving DecidableEq, Repr, Inhabited

/-- The axis of number `k` after device reset (R124). -/
def Axis.reset (k : Nat) : Axis := ⟨0, 0, 0, if k % 3 = 2 then .unhomed else .stale, 0, false, none⟩

/-- A hoist counter (R129). `fresh` is set from a homing until the axis is next judged (R132; log 13). -/
structure Hoist where
  count : BitVec 32
  homed : Bool
  armed : Bool
  home : BitVec 32
  fresh : Bool
  deriving DecidableEq, Repr, Inhabited

/-- R129 -/
def Hoist.reset : Hoist := ⟨0, false, false, 0, false⟩

/-- What a channel's read of the collecting sample has come to: still in flight, failed, or a raw position. -/
inductive ReadOutcome where
  | inFlight
  | failed (r : ReadResult)
  | raw (n : Nat)
  deriving DecidableEq, Repr

/-- A hoist count latched with its homed flag at a sample start (R131). -/
structure Latch where
  count : BitVec 32
  homed : Bool
  deriving DecidableEq, Repr, Inhabited

/-- A latch of a hoist that stands as after device reset; the reset sample has it, which R135 does not say (log 62). -/
def Latch.reset : Latch := ⟨0, false⟩

/-- The sample that is collecting (R131). -/
structure Collecting where
  reads : Bank ReadOutcome
  latches : Bank Latch
  missed : Nat
  deriving DecidableEq, Repr

/-- A position as a sample holds it (R135). -/
structure Reading where
  value : Int
  validity : Validity
  age : Nat
  deriving DecidableEq, Repr, Inhabited

/-- What a completed sample holds for one crane (R135), with the latched hoist count (R139). -/
structure CraneSample where
  x : Reading
  y : Reading
  h : Reading
  dx : Option Int
  dy : Option Int
  goodX : Bool
  latch : Latch
  deriving DecidableEq, Repr, Inhabited

/-- A crane in the reset sample (R135); its latched hoist count and homed flag by log 62. -/
def CraneSample.reset : CraneSample :=
  ⟨⟨0, .stale, 0⟩, ⟨0, .stale, 0⟩, ⟨0, .unhomed, 0⟩, none, none, false, Latch.reset⟩

/-- A completed sample (R135). -/
structure Sample where
  seq : Nat
  missed : Nat
  missedCount : Nat
  cranes : Bank CraneSample
  deriving DecidableEq, Repr

/-- The reset sample (R135). -/
def Sample.reset : Sample := ⟨0, 0, 0, []⟩

/-- The Runway Sensor Unit. -/
structure Rsu where
  channels : Bank Channel
  axes : Bank Axis
  hoists : Bank Hoist
  collecting : Option Collecting
  missedTicks : Nat
  latest : Sample
  deriving DecidableEq, Repr

/-- R140 -/
def Rsu.reset : Rsu := ⟨[], [], [], none, 0, Sample.reset⟩

/-! ## Clearance Unit (chapter 8) -/

/-- Hook states (R147). -/
inductive HookState where
  | low | high
  deriving DecidableEq, Repr, Inhabited

/-- The conditions that hold a travel permissive off (R141, R151). -/
inductive Cond where
  | mode | orderFault | staleX | staleY | neighbourStale | neighbour | runwayEnd | keepOut (zone : Nat)
  deriving DecidableEq, Repr

/-- A travel permissive and the set of conditions that held it off at its last evaluation (R141). -/
structure Permissive where
  on : Bool
  conds : List Cond
  deriving DecidableEq, Repr

/-- R141 -/
def Permissive.reset : Permissive := ⟨false, [.mode]⟩

/-- The clearance record of a crane (R141). The extents are held as written and as in force (R154). -/
structure CraneClear where
  capacity : Nat
  west : Nat
  east : Nat
  westIn : Nat
  eastIn : Nat
  aE : Nat
  aW : Nat
  aN : Nat
  aS : Nat
  hook : HookState
  pW : Permissive
  pE : Permissive
  pN : Permissive
  pS : Permissive
  deriving DecidableEq, Repr

/-- R141 -/
def CraneClear.reset : CraneClear :=
  ⟨0, 0, 0, 0, 0, 20000, 20000, 20000, 20000, .low, Permissive.reset, Permissive.reset, Permissive.reset,
    Permissive.reset⟩

/-- A pair of neighbouring cranes, named by its western one: the gap, absent when not judged, and the order fault
(R141). -/
structure Pair where
  gap : Option Int
  orderFault : Bool
  deriving DecidableEq, Repr, Inhabited

/-- R141 -/
def Pair.reset : Pair := ⟨none, false⟩

/-- The settings of SET_RUNWAY (R155). -/
structure Runway where
  length : Nat
  span : Nat
  separation : Nat
  lookAhead : Nat
  hysteresis : Nat
  overfly : Nat
  margin : Nat
  reach : Nat
  tolerance : Nat
  period : Nat
  staleLimit : Nat
  deriving DecidableEq, Repr, Inhabited

/-- R155 -/
def Runway.reset : Runway := ⟨200000, 30000, 4000, 3000, 300, 6000, 1000, 30000, 300, 20, 3⟩

/-- The Clearance Unit. `intruders` holds each zone's set of intruding cranes, rising; the zone's intrusion flag is set
when the set is not empty (R148; log 9). `runwayNext` holds accepted settings not yet in force (R155). -/
structure Clu where
  cranes : Bank CraneClear
  pairs : Bank Pair
  intruders : Bank (List Nat)
  runway : Runway
  runwayNext : Option Runway
  deriving DecidableEq, Repr

/-- R156 -/
def Clu.reset : Clu := ⟨[], [], [], Runway.reset, none⟩

/-! ## Move Controller (chapter 9) -/

/-- A move's destination (R157). -/
inductive Dest where
  | slot (n : Nat)
  | zone (z : Nat)
  deriving DecidableEq, Repr

/-- Move states (R157). -/
inductive MoveState where
  | queued | taken | carrying | suspended
  deriving DecidableEq, Repr, Inhabited

/-- A move record in use; its crane is the one in whose queue it stands (R157, R158). -/
structure Move where
  id : Nat
  piece : Handle
  dest : Option Dest
  state : MoveState
  deriving DecidableEq, Repr

/-- How a move ended; an ending CANCELLED carries the told flag (R157). -/
inductive MoveEnd where
  | placed | cancelled (told : Bool)
  deriving DecidableEq, Repr, Inhabited

/-- The ended move of a crane (R157). -/
structure EndedMove where
  id : Nat
  piece : Handle
  ending : MoveEnd
  deriving DecidableEq, Repr, Inhabited

/-- The Move Controller. -/
structure Mvc where
  queues : Bank (List Move)
  ended : Bank (Option EndedMove)
  nextId : Nat
  deriving DecidableEq, Repr

/-- R157 -/
def Mvc.reset : Mvc := ⟨[], [], 1⟩

/-! ## Station table (chapter 10) -/

/-- Station states (R177). -/
inductive StationState where
  | unused | offline | online
  deriving DecidableEq, Repr, Inhabited

/-- Station roles (R177). -/
inductive Role where
  | burn | mark | crane
  deriving DecidableEq, Repr, Inhabited

/-- A station table entry; the role and unit are absent while it is UNUSED (R177). -/
structure Station where
  state : StationState
  binding : Option (Role × Nat)
  misses : Nat
  deriving DecidableEq, Repr, Inhabited

/-- R177 -/
def Station.reset : Station := ⟨.unused, none, 0⟩

/-- A poll list with the bit rate in kbit/s and the reply window in microseconds (R180). -/
structure LinkSettings where
  list : List Nat
  rate : Nat
  window : Nat
  deriving DecidableEq, Repr

/-! ## Notices (chapter 11) -/

/-- The twelve notice units (R184). -/
inductive NoticeUnit where
  | table (t : Nat)
  | crane (c : Nat)
  | link
  | registry
  | hall
  deriving DecidableEq, Repr

/-- The notice kinds in the order of R184. -/
inductive NoticeKind where
  | nestClosed | zoneSwitched | markFailed | grantRevoked | burnOvertime | torchWorn | torchFault | arcStuck
  | ungrantedArc | remnantLost
  | moveDone | moveSuspended | pickUnverified | positionStale | orderFault | hoistHomed | hoistUnhomed
  | stationOffline | stationOnline
  | searchDone
  | hallStopped
  deriving DecidableEq, Repr, Inhabited

/-! ## Replies -/

/-- A piece record as a reply carries it: with its stack position or place in the row, and the stack count (R21, R195). -/
structure PieceView where
  handle : Handle
  piece : Piece
  pos : Nat
  count : Nat
  deriving DecidableEq, Repr

/-- An entry of a stack or of the receiving row in a reply (R40, R41). -/
structure StackEntry where
  pos : Nat
  handle : Handle
  key : Key
  kind : Kind
  thickness : Nat
  mass : Nat
  hold : Bool
  reserved : Bool
  move : Option Nat
  deriving DecidableEq, Repr

/-- A slot as READ_SLOT gives it (R40). -/
structure SlotView where
  x : Nat
  y : Nat
  enabled : Bool
  pickLock : Bool
  count : Nat
  height : Nat
  inCount : Nat
  inThick : Nat
  outCount : Nat
  roomCount : Nat
  roomHeight : Nat
  stack : List StackEntry
  deriving DecidableEq, Repr

/-- The receiving row as READ_RECEIVING gives it (R41). -/
structure RowView where
  x : Nat
  y : Nat
  count : Nat
  room : Nat
  pieces : List StackEntry
  deriving DecidableEq, Repr

/-- A zone's geometry (R38). -/
structure ZoneGeometry where
  x : Nat
  y : Nat
  x0 : Nat
  x1 : Nat
  y0 : Nat
  y1 : Nat
  deriving DecidableEq, Repr

/-- The search result as READ_SEARCH gives it in each state (R56). -/
inductive SearchView where
  | idle
  | scanning (overwritten : Option (Option Handle)) (request : Option SearchRequest) (cursor : Nat)
  | ready (outcome : Option SearchOutcome) (readFlag : Bool) (overwritten : Option (Option Handle))
      (request : Option SearchRequest) (candidates : List Candidate) (reserved : Option Handle)
  deriving DecidableEq, Repr

/-- A table record (R59), with the mounted torch's id and the addresses of the bound stations. -/
structure TableView where
  active : Option Bed
  chain : Bool
  burn : BurnState
  torch : Option Nat
  burnStation : Option Nat
  markStation : Option Nat
  deriving DecidableEq, Repr

/-- A zone as READ_TABLE gives it (R80). -/
structure ZoneNestView where
  phase : Phase
  inbound : Option Nat
  bed : List Handle
  nest : Option Nest
  deriving DecidableEq, Repr

/-- Everything READ_TABLE gives (R80). -/
structure FullTableView where
  table : TableView
  zoneA : ZoneNestView
  zoneB : ZoneNestView
  marks : Marks
  grant : Option Grant
  ended : Option (PartRef × GrantEnd)
  permissive : Bool
  monitor : ArcState
  stuck : Bool
  torchState : Option TorchState
  wear : Option Nat
  deriving DecidableEq, Repr

/-- A piece on a bed as READ_ZONE gives it (R81). -/
structure BedEntry where
  handle : Handle
  key : Key
  kind : Kind
  thickness : Nat
  mass : Nat
  deriving DecidableEq, Repr

/-- The summary of a nest in READ_ZONE (R81). -/
structure NestSummary where
  id : Nat
  plate : Handle
  state : NestState
  parts : Nat
  burnt : Nat
  skipped : Nat
  notFinal : Nat
  deriving DecidableEq, Repr

/-- A zone as READ_ZONE gives it (R81). -/
structure ZoneView where
  phase : Phase
  inbound : Option Nat
  geometry : ZoneGeometry
  bed : List BedEntry
  nest : Option NestSummary
  deriving DecidableEq, Repr

/-- An answer OK to NEXT_MARK (R87). -/
structure MarkView where
  table : Nat
  ref : PartRef
  plate : Handle
  text : List Nat
  x : Nat
  y : Nat
  failures : Nat
  deriving DecidableEq, Repr

/-- The counts an answer NONE to NEXT_MARK carries where the table has an active zone (R87). -/
structure MarkCounts where
  bed : Bed
  nest : Nat
  pending : Nat
  failed : Nat
  satisfied : Nat
  deriving DecidableEq, Repr

/-- The mark fields of a part (R64, R88). -/
structure MarkFields where
  part : Nat
  text : Option (List Nat)
  x : Nat
  y : Nat
  mark : MarkState
  failures : Nat
  deriving DecidableEq, Repr

/-- An answer OK to NEXT_BURN (R99). -/
structure GrantView where
  table : Nat
  ref : PartRef
  plate : Handle
  resumed : Bool
  starts : Nat
  arcTime : Nat
  torch : Option Nat
  wear : Option Nat
  deriving DecidableEq, Repr

/-- The reply to a burn report: the part's burn fields, the nest's state and the table's burn records (R100). -/
structure BurnReport where
  part : Nat
  burn : PartBurn
  starts : Nat
  arcTime : Nat
  failedPierces : Nat
  nest : NestState
  state : BurnState
  grant : Option Grant
  ended : Option (PartRef × GrantEnd)
  deriving DecidableEq, Repr

/-- A torch record with its wear points (R117, R119). -/
structure TorchView where
  number : Nat
  torch : Torch
  wear : Nat
  deriving DecidableEq, Repr

/-- What READ_SAMPLE gives of one axis by its letter (R139): the change of X or Y, the good-value flag of X, and the
channel; the latched count and flag of H, and the hoist. -/
inductive AxisSource where
  | x (delta : Option Int) (good : Bool) (channel : Channel)
  | y (delta : Option Int) (channel : Channel)
  | h (latch : Latch) (hoist : Hoist)
  deriving DecidableEq, Repr

/-- An axis as READ_SAMPLE gives it: its place in the latest sample, its settings and its source (R137, R139). -/
structure AxisView where
  reading : Reading
  scale : Int
  offset : Int
  source : AxisSource
  deriving DecidableEq, Repr

/-- Everything READ_SAMPLE gives (R139). -/
structure SampleView where
  sample : Sample
  axes : List (Int × Int)
  channels : List Channel
  hoists : List Hoist
  period : Nat
  staleLimit : Nat
  deriving DecidableEq, Repr

/-- Where a TAKE_MOVE reply says a piece lies, with the centre (R162). -/
structure SourceView where
  place : Place
  pos : Nat
  count : Nat
  x : Nat
  y : Nat
  deriving DecidableEq, Repr

/-- A move as TAKE_MOVE gives it (R162). -/
structure TakeView where
  crane : Nat
  move : Move
  key : Key
  kind : Kind
  thickness : Nat
  mass : Nat
  source : Option SourceView
  dest : Option (Nat × Nat)
  deriving DecidableEq, Repr

/-- The results of a position check (R163). -/
inductive CheckResult where
  | verified | wrongPlace | unverified
  deriving DecidableEq, Repr, Inhabited

/-- A position check as a reply carries it (R163). -/
structure PosCheck where
  result : CheckResult
  seq : Nat
  x : Int
  y : Int
  validX : Validity
  validY : Validity
  centreX : Nat
  centreY : Nat
  deriving DecidableEq, Repr

/-- The checks of a queue's head, in the order of R161 case 6: the source slot's inbound count, the top of its stack, the
room of the destination slot, the phase of the destination zone. -/
inductive HeadCheck where
  | sourceInbound | notOnTop | slotRoom | zoneClear
  deriving DecidableEq, Repr, Inhabited

/-- A move in READ_CRANE (R171): its source, while it is QUEUED or TAKEN, is the piece's place, with the stack position
or place in the row and the stack count as a location reference carries them (R194). -/
structure QueueEntry where
  move : Move
  key : Key
  mass : Nat
  source : Option (Place × Nat × Nat)
  deriving DecidableEq, Repr

/-- The piece on a hook in READ_CRANE (R171). -/
structure HookView where
  handle : Handle
  key : Key
  thickness : Nat
  mass : Nat
  deriving DecidableEq, Repr

/-- Everything READ_CRANE gives (R171). -/
structure CraneView where
  hook : Option HookView
  queue : List QueueEntry
  count : Nat
  room : Nat
  ended : Option EndedMove
  seq : Nat
  sample : CraneSample
  clear : CraneClear
  intruded : List Nat
  pairs : List Pair
  deriving DecidableEq, Repr

/-- A line of READ_NOTICES: a pending kind of a unit, and whether it is enabled (R186). -/
structure NoticeView where
  unit : Nat
  kind : Nat
  enabled : Bool
  deriving DecidableEq, Repr

/-- Everything READ_LINK gives (R181). -/
structure LinkView where
  stations : List Station
  list : List Nat
  cursor : Nat
  waiting : Option LinkSettings
  rate : Nat
  window : Nat
  turn : Option Nat
  deriving DecidableEq, Repr

/-- The record a reply carries after its status and kind; each constructor cites the rule that names its content. -/
inductive ReplyRecord where
  | none
  /-- R15 to R17, R19, R21 to R24 -/
  | piece (v : PieceView)
  /-- R20 -/
  | keyed (h : Handle) (v : PieceView)
  /-- R37, R40 -/
  | slot (v : SlotView)
  /-- R39, R41 -/
  | row (v : RowView)
  /-- R38 -/
  | geometry (v : ZoneGeometry)
  /-- R44, R46 -/
  | request (v : SearchRequest)
  /-- R56 -/
  | search (v : SearchView)
  /-- R67, R69, R71 to R73 -/
  | nest (v : Nest)
  /-- R68, R77 -/
  | table (v : TableView)
  /-- R80 -/
  | fullTable (v : FullTableView)
  /-- R79, R81 -/
  | zone (v : ZoneView)
  /-- R87 -/
  | mark (v : MarkView)
  /-- R87 -/
  | noMark (table : Nat) (counts : Option MarkCounts)
  /-- R88 -/
  | markReport (part : MarkFields) (marks : Marks)
  /-- R92 -/
  | part (index : Nat) (p : Part)
  /-- R98, R99 -/
  | grant (v : GrantView)
  /-- R98: a refusal carries the table. -/
  | burnRefused (table : Nat)
  /-- R98 -/
  | burnTorch (table : Nat) (torch : Option (Nat × TorchState × Nat))
  /-- R98 -/
  | burnHeld (table seq : Nat)
  /-- R99 -/
  | burnWait (table part : Nat) (mark : MarkState)
  /-- R100 -/
  | burnReport (v : BurnReport)
  /-- R113 -/
  | tableBurn (state : BurnState) (monitor : ArcState)
  /-- R114 -/
  | burnTimes (pierce limit : Nat)
  /-- R117, R119: the record and its wear points. -/
  | torch (v : TorchView)
  /-- R118, R120: the record alone. -/
  | torchOnly (number : Nat) (t : Torch)
  /-- R121 -/
  | fullTorch (v : TorchView) (left : Nat) (burn : Option (BurnState × ArcState))
  /-- R130 -/
  | hoist (h : Hoist)
  /-- R137 -/
  | axis (v : AxisView)
  /-- R138 -/
  | calibration (scale offset mm1 mm2 : Int)
  /-- R139 -/
  | sample (v : SampleView)
  /-- R146 -/
  | pair (gap : Option Int) (west east : Validity) (orderFault : Bool)
  /-- R154 -/
  | crane (capacity west east : Nat)
  /-- R155 -/
  | runway (v : Runway)
  /-- R160 -/
  | queued (crane : Nat) (m : Move) (place : Nat)
  /-- R161, R162 -/
  | take (v : TakeView)
  /-- R161: the cancelled move. -/
  | cancelledMove (m : EndedMove)
  /-- R161: a refusal names the head move, its piece and the check that failed. -/
  | blocked (id : Nat) (piece : Handle) (failed : HeadCheck)
  /-- R163: a report refused WRONG_PLACE. -/
  | check (k : PosCheck)
  /-- R165 -/
  | picked (crane : Nat) (m : Move) (piece : Option PieceView) (k : PosCheck)
  /-- R166; on a zone the reply shows the id and state of the zone's nest (log 29). -/
  | placed (piece : Option PieceView) (k : PosCheck) (nest : Option (Nat × NestState))
  /-- R167 -/
  | move (crane : Nat) (m : Move)
  /-- R164: a move in the queue, with its piece as they stand. -/
  | standing (crane : Nat) (m : Move) (piece : Option PieceView)
  /-- R164: the ended move, with its piece as it stands (a CANCELLED answer too, log 45). -/
  | endedReport (m : EndedMove) (piece : Option PieceView)
  /-- R168 -/
  | retarget (crane : Nat) (m : Move) (x y : Nat)
  /-- R171 -/
  | fullCrane (v : CraneView)
  /-- R179 -/
  | stations (entry : Nat × Station) (displaced : Option (Nat × Station))
  /-- R180 -/
  | pollList (v : LinkSettings)
  /-- R181 -/
  | link (v : LinkView)
  /-- R186 -/
  | notices (list : List NoticeView) (mode : Mode) (stop attention : Bool)
  /-- R187 -/
  | mask (flags : BitVec 21)
  /-- R189 -/
  | hall (mode : Mode) (stop : Bool)
  /-- R190 -/
  | cleared (pieces nests moves : Nat)
  deriving DecidableEq, Repr

/-- A reply: status, the request kind echoed by its code (0 where none), and the record (R193). -/
structure Reply where
  status : Status
  kind : Nat
  record : ReplyRecord
  deriving DecidableEq, Repr

/-- The reply buffer after device reset (R182). -/
def Reply.reset : Reply := ⟨.ok, 0, .none⟩

/-! ## Station Link Controller and Planning Port (chapters 10 and 11) -/

/-- A poll turn that runs: the address polled and, once the request is answered, the REPLY being sent (R175). -/
structure Turn where
  address : Nat
  reply : Option Reply
  deriving DecidableEq, Repr

/-- The Station Link Controller. -/
structure Slc where
  stations : Bank Station
  pollList : List Nat
  cursor : Nat
  bitRate : Nat
  window : Nat
  waiting : Option LinkSettings
  turn : Option Turn
  deriving DecidableEq, Repr

/-- R177, R180 -/
def Slc.reset : Slc := ⟨[], [], 0, 500, 300, none, none⟩

/-- The Planning Port and Notice Unit. A notice stands in `notices` under `32 * unit + kind`: absent when not pending,
else its seen flag (R185). -/
structure Ppn where
  reply : Reply
  notices : Bank (Option Bool)
  mask : BitVec 21
  mode : Mode
  stopInput : Bool
  deriving DecidableEq, Repr

/-- R187, R191: every kind enabled but MOVE_DONE (bit 10) and HOIST_HOMED (bit 15). -/
def Ppn.reset : Ppn := ⟨Reply.reset, [], 0x1F7BFF#21, .cold, false⟩

/-- The state of the part, block by block, and the queue of commands that wait. -/
structure State where
  srg : Srg
  lmap : Lmap
  fse : Fse
  tbc : Tbc
  mkd : Mkd
  bsv : Bsv
  rsu : Rsu
  clu : Clu
  mvc : Mvc
  slc : Slc
  ppn : Ppn
  pending : List Instr
  deriving DecidableEq, Repr

/-- The part right after device reset, with no command waiting. -/
def State.reset : State :=
  ⟨Srg.reset, Lmap.reset, Fse.reset, Tbc.reset, Mkd.reset, Bsv.reset, Rsu.reset, Clu.reset, Mvc.reset, Slc.reset,
    Ppn.reset, []⟩

/-- Faults that stop the model: the spec names none, so there is no constructor (safe). -/
inductive Fault where
  deriving DecidableEq, Repr

/-- Refusals of the model. -/
inductive Refusal where
  /-- Raised by an arm of `exec` whose command has no meaning yet; no arm does (safe: the model stops). -/
  | notModelled (mnemonic : String)
  deriving DecidableEq, Repr

end Sys2Proof.Machine
end

