-- ==== Sys2Proof/Machine/Ops.lean ====
section
/-! DEFINITION. The named operations over the state: banks, the accessors through which every record is read and
written, the key directory, the collections of the Location Map, creating and retiring pieces, and the reply of a
host request. -/

namespace Sys2Proof.Machine

/-! ## Banks -/

variable {α : Type}

/-- The record of index `k`: the listed one, else its reset value. -/
def bankGet (reset : Nat → α) : Bank α → Nat → α
  | [], k => reset k
  | (j, v) :: r, k => if j = k then v else bankGet reset r k

/-- `v` listed under index `k`, at its place in the order. -/
def bankInsert (k : Nat) (v : α) : Bank α → Bank α
  | [] => [(k, v)]
  | (j, w) :: r => if k < j then (k, v) :: (j, w) :: r else if k = j then (k, v) :: r else (j, w) :: bankInsert k v r

/-- Nothing listed under index `k`. -/
def bankErase (k : Nat) (m : Bank α) : Bank α := m.filter (fun e => e.1 ≠ k)

/-- The bank with `v` as the record of index `k`, in canonical form (log 35). -/
def bankSet [DecidableEq α] (reset : Nat → α) (m : Bank α) (k : Nat) (v : α) : Bank α :=
  if v = reset k then bankErase k m else bankInsert k v m

/-- The bank with `f` applied to every listed record, in canonical form. -/
def bankMap [DecidableEq α] (reset : Nat → α) (f : Nat → α → α) (m : Bank α) : Bank α :=
  (m.map (fun e => (e.1, f e.1 e.2))).filter (fun e => e.2 ≠ reset e.1)

/-- The canonical form: indexes strictly rising, and no listed record equal to its reset value. -/
def bankWf [DecidableEq α] (reset : Nat → α) (m : Bank α) : Bool :=
  (m.map (·.1)).Pairwise (· < ·) && m.all (fun e => e.2 ≠ reset e.1)

/-- The first number from `i` on, of the next `fuel` numbers, that passes `p`. -/
def firstFrom (p : Nat → Bool) : (fuel i : Nat) → Option Nat
  | 0, _ => none
  | fuel + 1, i => if p i then some i else firstFrom p fuel (i + 1)

/-! ## Accessors -/

namespace State

/-- Record `i` of the Stock Registry (R1). -/
def record (s : State) (i : Nat) : PieceRecord := bankGet (fun _ => PieceRecord.reset) s.srg.records i
/-- Writes record `i` of the Stock Registry. -/
def setRecord (s : State) (i : Nat) (r : PieceRecord) : State :=
  { s with srg := { s.srg with records := bankSet (fun _ => PieceRecord.reset) s.srg.records i r } }
/-- Slot `n` (R28). -/
def slot (s : State) (n : Nat) : Slot := bankGet (fun _ => Slot.reset) s.lmap.slots n
/-- Writes slot `n`. -/
def setSlot (s : State) (n : Nat) (v : Slot) : State :=
  { s with lmap := { s.lmap with slots := bankSet (fun _ => Slot.reset) s.lmap.slots n v } }
/-- The bed and geometry of zone `z` (R34, R35). -/
def bed (s : State) (z : Nat) : BedRec := bankGet (fun _ => BedRec.reset) s.lmap.beds z
/-- Writes the bed and geometry of zone `z`. -/
def setBed (s : State) (z : Nat) (v : BedRec) : State :=
  { s with lmap := { s.lmap with beds := bankSet (fun _ => BedRec.reset) s.lmap.beds z v } }
/-- The piece on the hook of crane `c` (R36). -/
def hook (s : State) (c : Nat) : Option Handle := bankGet (fun _ => none) s.lmap.hooks c
/-- Loads or empties the hook of crane `c`. -/
def setHook (s : State) (c : Nat) (v : Option Handle) : State :=
  { s with lmap := { s.lmap with hooks := bankSet (fun _ => none) s.lmap.hooks c v } }
/-- The TBC's part of table `t` (R59). -/
def table (s : State) (t : Nat) : Table := bankGet (fun _ => Table.reset) s.tbc.tables t
/-- Writes the TBC's part of table `t`. -/
def setTable (s : State) (t : Nat) (v : Table) : State :=
  { s with tbc := { s.tbc with tables := bankSet (fun _ => Table.reset) s.tbc.tables t v } }
/-- Zone `z` (R60). -/
def zone (s : State) (z : Nat) : Zone := bankGet (fun _ => Zone.reset) s.tbc.zones z
/-- Writes zone `z`. -/
def setZone (s : State) (z : Nat) (v : Zone) : State :=
  { s with tbc := { s.tbc with zones := bankSet (fun _ => Zone.reset) s.tbc.zones z v } }
/-- The issued mark and ended issue of table `t` (R83). -/
def marks (s : State) (t : Nat) : Marks := bankGet (fun _ => Marks.reset) s.mkd.marks t
/-- Writes the issued mark and ended issue of table `t`. -/
def setMarks (s : State) (t : Nat) (v : Marks) : State :=
  { s with mkd := { s.mkd with marks := bankSet (fun _ => Marks.reset) s.mkd.marks t v } }
/-- The burn records of table `t` (R96). -/
def burn (s : State) (t : Nat) : Burn := bankGet (fun _ => Burn.reset) s.bsv.burns t
/-- Writes the burn records of table `t`. -/
def setBurn (s : State) (t : Nat) (v : Burn) : State :=
  { s with bsv := { s.bsv with burns := bankSet (fun _ => Burn.reset) s.bsv.burns t v } }
/-- The grant-held flag of zone `z` (R97). -/
def grantHeld (s : State) (z : Nat) : Bool := bankGet (fun _ => false) s.bsv.grantHeld z
/-- Writes the grant-held flag of zone `z`. -/
def setGrantHeld (s : State) (z : Nat) (v : Bool) : State :=
  { s with bsv := { s.bsv with grantHeld := bankSet (fun _ => false) s.bsv.grantHeld z v } }
/-- The arc monitor of table `t` (R107). -/
def monitor (s : State) (t : Nat) : Monitor := bankGet (fun _ => Monitor.reset) s.bsv.monitors t
/-- Writes the arc monitor of table `t`. -/
def setMonitor (s : State) (t : Nat) (v : Monitor) : State :=
  { s with bsv := { s.bsv with monitors := bankSet (fun _ => Monitor.reset) s.bsv.monitors t v } }
/-- The torch record of number `n` (R115). -/
def torch (s : State) (n : Nat) : Torch := bankGet Torch.reset s.bsv.torches n
/-- Writes the torch record of number `n`. -/
def setTorch (s : State) (n : Nat) (v : Torch) : State :=
  { s with bsv := { s.bsv with torches := bankSet Torch.reset s.bsv.torches n v } }
/-- SSI channel `c` (R123). -/
def channel (s : State) (c : Nat) : Channel := bankGet (fun _ => Channel.reset) s.rsu.channels c
/-- Writes SSI channel `c`. -/
def setChannel (s : State) (c : Nat) (v : Channel) : State :=
  { s with rsu := { s.rsu with channels := bankSet (fun _ => Channel.reset) s.rsu.channels c v } }
/-- Axis `k` (R124). -/
def axis (s : State) (k : Nat) : Axis := bankGet Axis.reset s.rsu.axes k
/-- Writes axis `k`. -/
def setAxis (s : State) (k : Nat) (v : Axis) : State :=
  { s with rsu := { s.rsu with axes := bankSet Axis.reset s.rsu.axes k v } }
/-- The hoist counter of crane `c` (R129). -/
def hoist (s : State) (c : Nat) : Hoist := bankGet (fun _ => Hoist.reset) s.rsu.hoists c
/-- Writes the hoist counter of crane `c`. -/
def setHoist (s : State) (c : Nat) (v : Hoist) : State :=
  { s with rsu := { s.rsu with hoists := bankSet (fun _ => Hoist.reset) s.rsu.hoists c v } }
/-- Crane `c` in the latest completed sample (R135). -/
def sampled (s : State) (c : Nat) : CraneSample := bankGet (fun _ => CraneSample.reset) s.rsu.latest.cranes c
/-- The clearance record of crane `c` (R141). -/
def crane (s : State) (c : Nat) : CraneClear := bankGet (fun _ => CraneClear.reset) s.clu.cranes c
/-- Writes the clearance record of crane `c`. -/
def setCrane (s : State) (c : Nat) (v : CraneClear) : State :=
  { s with clu := { s.clu with cranes := bankSet (fun _ => CraneClear.reset) s.clu.cranes c v } }
/-- The pair whose western crane is `c` (R141). -/
def pair (s : State) (c : Nat) : Pair := bankGet (fun _ => Pair.reset) s.clu.pairs c
/-- Writes the pair whose western crane is `c`. -/
def setPair (s : State) (c : Nat) (v : Pair) : State :=
  { s with clu := { s.clu with pairs := bankSet (fun _ => Pair.reset) s.clu.pairs c v } }
/-- The cranes that intrude zone `z` (R141, R148). -/
def intruders (s : State) (z : Nat) : List Nat := bankGet (fun _ => []) s.clu.intruders z
/-- Writes the set of cranes that intrude zone `z`. -/
def setIntruders (s : State) (z : Nat) (v : List Nat) : State :=
  { s with clu := { s.clu with intruders := bankSet (fun _ => []) s.clu.intruders z v } }
/-- The intrusion flag of zone `z`: its set of intruding cranes is not empty (R148). -/
def intruded (s : State) (z : Nat) : Bool := !(s.intruders z).isEmpty
/-- The queue of crane `c`, its current move first (R158). -/
def queue (s : State) (c : Nat) : List Move := bankGet (fun _ => []) s.mvc.queues c
/-- Writes the queue of crane `c`. -/
def setQueue (s : State) (c : Nat) (v : List Move) : State :=
  { s with mvc := { s.mvc with queues := bankSet (fun _ => []) s.mvc.queues c v } }
/-- The ended move of crane `c` (R157). -/
def endedMove (s : State) (c : Nat) : Option EndedMove := bankGet (fun _ => none) s.mvc.ended c
/-- Writes the ended move of crane `c`. -/
def setEndedMove (s : State) (c : Nat) (v : Option EndedMove) : State :=
  { s with mvc := { s.mvc with ended := bankSet (fun _ => none) s.mvc.ended c v } }
/-- The station table entry of address `a` (R177). -/
def station (s : State) (a : Nat) : Station := bankGet (fun _ => Station.reset) s.slc.stations a
/-- Writes the station table entry of address `a`. -/
def setStation (s : State) (a : Nat) (v : Station) : State :=
  { s with slc := { s.slc with stations := bankSet (fun _ => Station.reset) s.slc.stations a v } }
/-- A pending notice's seen flag under its code (R185). -/
def notice (s : State) (n : Nat) : Option Bool := bankGet (fun _ => none) s.ppn.notices n
/-- Writes a notice under its code. -/
def setNotice (s : State) (n : Nat) (v : Option Bool) : State :=
  { s with ppn := { s.ppn with notices := bankSet (fun _ => none) s.ppn.notices n v } }

/-- The live piece a handle names, if it names one (R2). -/
def piece? (s : State) (h : Handle) : Option Piece :=
  if (s.record h.index).gen = h.gen then (s.record h.index).live else none

/-- Writes the piece in record `h.index`, its generation unchanged. -/
def setPiece (s : State) (h : Handle) (p : Piece) : State := s.setRecord h.index ⟨h.gen, some p⟩

/-- Amends the live piece a handle names; nothing where it names none. -/
def modPiece (s : State) (h : Handle) (f : Piece → Piece) : State :=
  match s.piece? h with
  | some p => s.setPiece h (f p)
  | none => s

/-- Every live piece with its handle, in index order. -/
def livePieces (s : State) : List (Handle × Piece) :=
  s.srg.records.filterMap fun e => e.2.live.map fun p => (⟨e.1, e.2.gen⟩, p)

end State

/-! ## Handles -/

/-- The three checks of a request that names a piece by handle, in their order (R2). -/
def checkHandle (s : State) (h : Handle) : Except Status Piece :=
  if Config.pieceRecords ≤ h.index then .error .range
  else if (s.record h.index).gen ≠ h.gen then .error .stale
  else match (s.record h.index).live with
    | none => .error .notFound
    | some p => .ok p

/-! ## The key directory -/

/-- The ten bytes of a key: the heat-code characters, then the sequence's high and low byte (R10). -/
def keyBytes (k : Key) : List Nat := k.heat ++ [k.seq / 256, k.seq % 256]

/-- The hash of a key (R10). -/
def keyHash (k : Key) : Nat := (keyBytes k).foldl (fun v b => (v * 31 + b) % Config.primaryEntries) 0

/-- Entry `i` of the primary table (R9). -/
def dirEntry (g : Srg) (i : Nat) : DirEntry := bankGet (fun _ => .empty) g.primary i
/-- Writes entry `i` of the primary table. -/
def setDirEntry (g : Srg) (i : Nat) (e : DirEntry) : Srg :=
  { g with primary := bankSet (fun _ => .empty) g.primary i e }
/-- Spill group `n` (R9). -/
def spillGroup (g : Srg) (n : Nat) : SpillGroup := bankGet (fun _ => SpillGroup.reset) g.groups n
/-- Writes spill group `n`. -/
def setSpillGroup (g : Srg) (n : Nat) (v : SpillGroup) : Srg :=
  { g with groups := bankSet (fun _ => SpillGroup.reset) g.groups n v }

/-- The filled slot of a group that holds the key. -/
def SpillGroup.find (v : SpillGroup) (k : Key) : Option Handle :=
  (v.slots.filterMap id).findSome? fun i => if i.key = k then some i.handle else none

/-- A lookup (R11): the handle of the piece that carries the key. -/
def dirLookup (g : Srg) (k : Key) : Option Handle :=
  match dirEntry g (keyHash k) with
  | .empty => none
  | .direct i => if i.key = k then some i.handle else none
  | .spill n => (spillGroup g n).find k

/-- A slot list with the item in its lowest-numbered empty slot; none when all are full. -/
def fillSlot (i : DirItem) : List (Option DirItem) → Option (List (Option DirItem))
  | [] => none
  | none :: r => some (some i :: r)
  | some j :: r => (fillSlot i r).map (some j :: ·)

/-- The lowest-numbered free spill group (R12). -/
def freeGroup (g : Srg) : Option Nat := firstFrom (fun n => !(spillGroup g n).inUse) Config.spillGroups 0

/-- An insert (R12): the directory with the key placed, or the refusal. -/
def dirInsert (g : Srg) (k : Key) (h : Handle) : Except Status Srg :=
  match dirEntry g (keyHash k) with
  | .empty => .ok (setDirEntry g (keyHash k) (.direct ⟨k, h⟩))
  | .direct i =>
    if i.key = k then .error .duplicateKey
    else match freeGroup g with
      | none => .error .directoryFull
      | some n =>
        .ok (setDirEntry (setSpillGroup g n ⟨true, [some i, some ⟨k, h⟩, none, none]⟩) (keyHash k) (.spill n))
  | .spill n =>
    if ((spillGroup g n).find k).isSome then .error .duplicateKey
    else match fillSlot ⟨k, h⟩ (spillGroup g n).slots with
      | none => .error .directoryFull
      | some sl => .ok (setSpillGroup g n ⟨true, sl⟩)

/-- A slot list with the slot that holds the key emptied. -/
def dropKey (k : Key) (sl : List (Option DirItem)) : List (Option DirItem) :=
  sl.map fun o => match o with
    | some i => if i.key = k then none else some i
    | none => none

/-- A delete (R13): a group left with one key gives its entry back as DIRECT and becomes free. -/
def dirDelete (g : Srg) (k : Key) : Srg :=
  match dirEntry g (keyHash k) with
  | .empty => g
  | .direct i => if i.key = k then setDirEntry g (keyHash k) .empty else g
  | .spill n =>
    let sl := dropKey k (spillGroup g n).slots
    match sl.filterMap id with
    | [i] => setDirEntry (setSpillGroup g n SpillGroup.reset) (keyHash k) (.direct i)
    | _ => setSpillGroup g n ⟨true, sl⟩

/-! ## Collections of the Location Map -/

/-- zone of table `t` and bed `bd`: zone 0A is 0, zone 5B is 11. -/
def zoneOf (t : Nat) (bd : Bed) : Nat := 2 * t + bd.ctorIdx
/-- The table of zone `z`. -/
def zoneTable (z : Nat) : Nat := z / 2
/-- The bed of zone `z`. -/
def zoneBed (z : Nat) : Bed := if z % 2 = 0 then .a else .b
/-- The other zone of the same table. -/
def otherZone (z : Nat) : Nat := if z % 2 = 0 then z + 1 else z - 1

/-- The piece joins the collection: the top of a stack, the end of the row or of a bed, or a hook (R29, R33, R34, R36). -/
def joinPlace (s : State) (pl : Place) (h : Handle) (thickness : Nat) : State :=
  match pl with
  | .receiving => { s with lmap := { s.lmap with receiving := s.lmap.receiving ++ [h] } }
  | .slot n =>
    let v := s.slot n
    s.setSlot n { v with stack := v.stack ++ [h], height := v.height + thickness }
  | .zone z =>
    let v := s.bed z
    s.setBed z { v with pieces := v.pieces ++ [h] }
  | .hook c => s.setHook c (some h)

/-- The piece leaves the collection; those above or after it close up (R4, R29, R33, R34, R36). -/
def leavePlace (s : State) (pl : Place) (h : Handle) (thickness : Nat) : State :=
  match pl with
  | .receiving => { s with lmap := { s.lmap with receiving := s.lmap.receiving.filter (· ≠ h) } }
  | .slot n =>
    let v := s.slot n
    s.setSlot n { v with stack := v.stack.filter (· ≠ h), height := v.height - thickness }
  | .zone z =>
    let v := s.bed z
    s.setBed z { v with pieces := v.pieces.filter (· ≠ h) }
  | .hook c => s.setHook c none

/-- A piece's stack position or place in the row, and the count of its stack or row (R26, R194). -/
def piecePos (s : State) (h : Handle) (p : Piece) : Nat × Nat :=
  match p.place with
  | .receiving => (s.lmap.receiving.idxOf h, s.lmap.receiving.length)
  | .slot n => ((s.slot n).stack.idxOf h, (s.slot n).stack.length)
  | .zone z => ((s.bed z).pieces.idxOf h, (s.bed z).pieces.length)
  | .hook _ => (0, 1)

/-- The number of pieces above a piece in its slot (R1). -/
def pieceDepth (s : State) (h : Handle) (p : Piece) : Nat := (piecePos s h p).2 - (piecePos s h p).1 - 1

/-- A piece record as replies carry it (R21). -/
def pieceView (s : State) (h : Handle) (p : Piece) : PieceView := ⟨h, p, (piecePos s h p).1, (piecePos s h p).2⟩

/-- The centre against which a pick from or a placement on a collection is checked; a hook has none (R28, R33, R35, R36). -/
def placeCentre (s : State) : Place → Nat × Nat
  | .receiving => (s.lmap.recvX, s.lmap.recvY)
  | .slot n => ((s.slot n).x, (s.slot n).y)
  | .zone z => ((s.bed z).x, (s.bed z).y)
  | .hook _ => (0, 0)

/-! ## Area and mass -/

/-- `a / b` rounded up. -/
def ceilDiv (a b : Nat) : Nat := (a + b - 1) / b

/-- The area of a rectangle in cm² (R8). -/
def area (len wid : Nat) : Nat := len * wid / 100

/-- The mass of a plate in kg (R8). -/
def plateMass (len wid thickness : Nat) : Nat := ceilDiv (len * wid * thickness * 785) (10 ^ 9)

/-- The mass of a remnant in kg (R8). -/
def remnantMass (net thickness : Nat) : Nat := ceilDiv (net * thickness * 785) (10 ^ 7)

/-! ## Creating and retiring pieces -/

/-- The number after `c` in a count that runs from 1 to 4,294,967,295 (R6, R135). -/
def next32 (c : Nat) : Nat := if Config.max32 ≤ c then 1 else c + 1

/-- A live piece carries this creation sequence (R6, R17). -/
def createdInUse (s : State) (c : Nat) : Bool := s.livePieces.any fun e => e.2.created == c

/-- The creation sequence the next new piece receives: the first from the counter on that no live piece carries (R6). -/
def freeCreated (s : State) : (fuel c : Nat) → Nat
  | 0, c => c
  | fuel + 1, c => if createdInUse s c then freeCreated s fuel (next32 c) else c

/-- The sequence drawn from the creation counter as it stands (R6). -/
def drawCreated (s : State) : Nat := freeCreated s (Config.pieceRecords + 1) s.srg.creation

/-- The lowest-numbered free record (R2). -/
def freeRecord (s : State) : Option Nat :=
  firstFrom (fun i => (s.record i).live.isNone) Config.pieceRecords 0

/-- The number after `n` in the remnant counter (R7). -/
def nextRemnant (n : Nat) : Nat := if Config.maxRemnant ≤ n then 1 else n + 1

/-- The first remnant number from `n` on whose key no live piece carries; none after `fuel` tries (R7). -/
def drawRemnant (s : State) (heat : List Nat) : (fuel n : Nat) → Option Nat
  | 0, _ => none
  | fuel + 1, n =>
    if (dirLookup s.srg ⟨heat, 32768 + n⟩).isSome then drawRemnant s heat fuel (nextRemnant n) else some n

/-- Makes `p` live in record `i`: key inserted, record written, collection joined (R14). -/
def createAt (s : State) (i : Nat) (p : Piece) : Except Status (Handle × State) :=
  let h : Handle := ⟨i, (s.record i).gen⟩
  match dirInsert s.srg p.key h with
  | .error e => .error e
  | .ok g => .ok (h, joinPlace (({ s with srg := g } : State).setPiece h p) p.place h p.thickness)

/-- A creation with a given key: duplicate key, then free record, then directory (R12, R14). -/
def createKeyed (s : State) (p : Piece) : Except Status (Handle × State) :=
  if (dirLookup s.srg p.key).isSome then .error .duplicateKey
  else match freeRecord s with
    | none => .error .registryFull
    | some i => createAt s i p

/-- A creation of a remnant whose key is drawn from the remnant counter and whose age from the creation counter. The
refusals come as R7 orders them, and at DIRECTORY_FULL the counter keeps the number tried last. -/
def createRemnant (s : State) (heat : List Nat) (p : Piece) : Except Status Handle × State :=
  match freeRecord s with
  | none => (.error .registryFull, s)
  | some i =>
    match drawRemnant s heat Config.maxRemnant s.srg.remnant with
    | none => (.error .duplicateKey, s)
    | some n =>
      let c := drawCreated s
      match createAt s i { p with key := ⟨heat, 32768 + n⟩, created := c } with
      | .error e => (.error e, { s with srg := { s.srg with remnant := n } })
      | .ok (h, s') => (.ok h, { s' with srg := { s'.srg with remnant := nextRemnant n, creation := next32 c } })

/-- Retires the piece a handle names: it leaves its collection, its key leaves the directory, and its record is free at
the next generation (R4). -/
def retire (s : State) (h : Handle) : State :=
  match s.piece? h with
  | none => s
  | some p =>
    let s := leavePlace s p.place h p.thickness
    let s := { s with srg := dirDelete s.srg p.key }
    s.setRecord h.index ⟨(h.gen + 1) % 256, none⟩

/-! ## Replies of the planning port -/

/-- What a request is answered: the state it leaves, the status and the record. -/
structure Ans where
  st : State
  status : Status
  record : ReplyRecord

/-- A refusal without a record that changes nothing (log 4). -/
def refuse (s : State) (st : Status) : Ans := ⟨s, st, .none⟩

/-- Answered OK with a record. -/
def okWith (s : State) (r : ReplyRecord) : Ans := ⟨s, .ok, r⟩

/-- A host request's answer becomes the reply buffer, with the request kind echoed (R182, R183). -/
def hostAnswer (k : ReqKind) (a : Ans) : Host.Outcome State Fault Refusal :=
  .next { a.st with ppn := { a.st.ppn with reply := ⟨a.status, k.code, a.record⟩ } }

end Sys2Proof.Machine
end

