-- ==== Sys2Proof/Machine/Operands.lean ====
section
/-! DEFINITION. What the operands of the commands mean: the ranges of the fields and the names of slots, zones, beds,
roles and settings, as the chapters give them. -/

namespace Sys2Proof.Machine

/-- `lo ≤ n ≤ hi`. -/
def inRange (lo hi n : Nat) : Bool := lo ≤ n && n ≤ hi

/-- A value clamped to the nearer end of its range (R44, R114, R155, R180). -/
def clamp (lo hi n : Nat) : Nat := max lo (min hi n)

/-- A number rises by one, saturating at `top`. -/
def satInc (top n : Nat) : Nat := min top (n + 1)

/-- The division rounded to the nearest whole number, a half away from zero (R138). -/
def roundDiv (n d : Int) : Int :=
  let q : Int := ((2 * n.natAbs + d.natAbs) / (2 * d.natAbs) : Nat)
  if (n < 0) = (d < 0) then q else -q

/-! ## Names of places -/

/-- A bed code: 0 is A and 1 is B (R194). -/
def bedOf : Nat → Option Bed
  | 0 => some .a
  | 1 => some .b
  | _ => none

/-- The zone a request names; none where the table is outside 0-5 or the bed is not A or B. -/
def zoneArg? (z : ZoneArg) : Option Nat :=
  if z.table < 6 then (bedOf z.bed).map (zoneOf z.table) else none

/-- The slot a request names; none where the bay is outside 0-9 or the slot outside 0-15. -/
def slotArg? (a : SlotArg) : Option Nat := if a.bay < 10 && a.slot < 16 then some (16 * a.bay + a.slot) else none

/-- The destination a request names, a slot or a zone (R160, R168). -/
def destArg? : LocArg → Option Dest
  | .slot a => (slotArg? a).map .slot
  | .zone z => (zoneArg? z).map .zone
  | _ => none

/-- The location a request names (R17). -/
def placeArg? : LocArg → Option Place
  | .receiving => some .receiving
  | .slot a => (slotArg? a).map .slot
  | .zone z => (zoneArg? z).map .zone
  | .hook c => if c < 3 then some (.hook c) else none
  | .other _ => none

/-- The collection a destination names. -/
def Dest.place : Dest → Place
  | .slot n => .slot n
  | .zone z => .zone z

/-- A hall position (R28, R37 to R39). -/
def hallPoint (x y : Nat) : Bool := x ≤ Config.hallX && y ≤ Config.hallY

/-! ## Fields of a piece -/

/-- A character of a heat code: A-Z, 0-9 or '-' (R5). -/
def heatChar (c : Nat) : Bool := inRange 65 90 c || inRange 48 57 c || c == 45

/-- A heat code of exactly eight of these characters (R5). -/
def heatOk (heat : List Nat) : Bool := heat.length == 8 && heat.all heatChar

/-- A key in the range of either kind, as LOOKUP_KEY takes it (R5, R20). -/
def keyOk (k : Key) : Bool := heatOk k.heat && inRange 1 65535 k.seq && k.seq != 32768

/-- A key in the range of the kind it is created for (R5). -/
def keyOkFor (kind : Kind) (k : Key) : Bool :=
  heatOk k.heat && (match kind with
    | .plate => inRange 1 32767 k.seq
    | .remnant => inRange 32769 65535 k.seq)

/-- Grade and thickness (R1). -/
def steelOk (grade thickness : Nat) : Bool := grade ≤ 63 && inRange 30 1000 thickness

/-- The outline of a plate, or the bounding size of a remnant (R1). -/
def outlineOk (len wid : Nat) : Bool := inRange 1000 18000 len && inRange 500 4800 wid

/-- A usable rectangle within the bounds of R1, for a remnant of bounding size `len` by `wid`. -/
def rectOk (len wid : Nat) (r : Rect) : Bool :=
  inRange 1 18000 r.len && inRange 1 4800 r.wid && r.len ≤ len && r.wid ≤ wid && r.dx + r.len ≤ 18000 &&
    r.dy + r.wid ≤ 4800

/-- The net area lies between the area of the largest rectangle and the sum of all areas (R8). -/
def netOk (rects : List Rect) (net : Nat) : Bool :=
  let areas := rects.map fun r => area r.len r.wid
  areas.foldl max 0 ≤ net && net ≤ areas.foldl (· + ·) 0

/-- Bounding size, one to four rectangles and net area of a remnant (R1, R8). -/
def remnantOk (d : DeclArg) : Bool :=
  outlineOk d.len d.wid && inRange 1 4 d.rects.length && d.rects.all (rectOk d.len d.wid) && netOk d.rects d.net

/-! ## Fields of a nest -/

/-- A mark text of 1 to 20 characters of codes 32-126 (R64, R66). -/
def textOk (t : List Nat) : Bool := inRange 1 20 t.length && t.all (inRange 32 126)

/-- A part as STAGE_NEST carries it (R66). -/
def partOk (p : PartArg) : Bool :=
  (match p.text with
    | some t => textOk t
    | none => true) && p.x ≤ 18000 && p.y ≤ 4800

/-- `r` lies wholly within `o`, offsets and all (R65). -/
def rectWithin (o r : Rect) : Bool :=
  o.dx ≤ r.dx && r.dx + r.len ≤ o.dx + o.len && o.dy ≤ r.dy && r.dy + r.wid ≤ o.dy + o.wid

/-- A declared rectangle lies within the parent (R65). -/
def withinParent (parent : Piece) (r : Rect) : Bool :=
  match parent.kind with
  | .plate => rectWithin ⟨0, 0, parent.len, parent.wid⟩ r
  | .remnant => parent.rects.any fun o => rectWithin o r

/-- A nest's declarations judged against its plate (R65). -/
def declsOk (parent : Piece) (ds : List DeclArg) : Bool :=
  ds.all (fun d => remnantOk d && d.rects.all (withinParent parent)) &&
    (ds.map (·.net)).foldl (· + ·) 0 ≤ parent.net

/-! ## Named settings -/

/-- R44: 0 REMNANT, 1 PLATE, 2 ANY. -/
def filterOf : Nat → Option KindFilter
  | 0 => some .remnant
  | 1 => some .plate
  | 2 => some .any
  | _ => none

/-- R123: 0 DISABLED, 1 MASTER, 2 LISTEN. -/
def modeOf : Nat → Option ChannelMode
  | 0 => some .disabled
  | 1 => some .master
  | 2 => some .listen
  | _ => none

/-- R123: 0 NONE, 1 EVEN, 2 ODD. -/
def parityOf : Nat → Option Parity
  | 0 => some .none
  | 1 => some .even
  | 2 => some .odd
  | _ => none

/-- R123: 0 BINARY, 1 GRAY. -/
def codeOf : Nat → Option PosCode
  | 0 => some .binary
  | 1 => some .gray
  | _ => none

/-- R177: 0 BURN, 1 MARK, 2 CRANE. -/
def roleOf : Nat → Option Role
  | 0 => some .burn
  | 1 => some .mark
  | 2 => some .crane
  | _ => none

/-- The units a role may be bound to: tables 0-5 for BURN and MARK, cranes 0-2 for CRANE (R177). -/
def unitOk : Role → Nat → Bool
  | .burn, u => u < 6
  | .mark, u => u < 6
  | .crane, u => u < 3

end Sys2Proof.Machine
end

