-- ==== Sys2Proof/Machine/Flags.lean ====
section
/-! DEFINITION. Notices and their flags: raising a kind, marking kinds seen, the unit reads that clear them, and the
attention line (chapter 11.2). -/

namespace Sys2Proof.Machine

/-- The number of a notice unit: T0 to T5, C0 to C2, LINK, REGISTRY, HALL (R184). -/
def NoticeUnit.code : NoticeUnit → Nat
  | .table t => t
  | .crane c => 6 + c
  | .link => 9
  | .registry => 10
  | .hall => 11

/-- The number of a kind in the order of R184, counted through all units (log 68); it is the kind's bit in the enable mask. -/
def NoticeKind.code (k : NoticeKind) : Nat := k.ctorIdx

/-- Where a kind of a unit stands among the notices. -/
def noticeCode (u : NoticeUnit) (k : NoticeKind) : Nat := 32 * u.code + k.code

/-- A block raises a kind at a unit: whatever its state, it is pending and not seen afterwards (R185). -/
def raise (s : State) (u : NoticeUnit) (k : NoticeKind) : State := s.setNotice (noticeCode u k) (some false)

/-- A unit read: the unit's pending kinds whose seen flag is set are cleared (R186). -/
def unitRead (s : State) (u : NoticeUnit) : State :=
  { s with ppn := { s.ppn with
      notices := s.ppn.notices.filter fun e => !(e.1 / 32 == u.code && e.2 == some true) } }

/-- Every pending kind is marked seen (R186). -/
def markSeen (s : State) : State :=
  { s with ppn := { s.ppn with
      notices := bankMap (fun _ => none) (fun _ v => v.map fun _ => true) s.ppn.notices } }

/-- The kind numbered `k` is enabled in the mask (R187). -/
def kindEnabled (s : State) (k : Nat) : Bool := s.ppn.mask.getLsbD k

/-- The attention line is asserted: at least one pending kind at any unit is enabled, seen or not (R187). -/
def attention (s : State) : Bool := s.ppn.notices.any fun e => e.2.isSome && kindEnabled s (e.1 % 32)

/-- The pending kinds as READ_NOTICES lists them (R186), units and kinds in the order of R184 (log 68). -/
def pendingNotices (s : State) : List NoticeView :=
  s.ppn.notices.filterMap fun e =>
    if e.2.isSome then some ⟨e.1 / 32, e.1 % 32, kindEnabled s (e.1 % 32)⟩ else none

end Sys2Proof.Machine
end

