-- ==== Sys2Proof/Machine/Envelope.lean ====
section
/-! DEFINITION. The way of a station request through the Station Link Controller: the end of a poll turn, a station
that answers, the checks of R178 and the REPLY (chapter 10). -/

namespace Sys2Proof.Machine

/-- Waiting list, rate and window take effect, with the cursor at the start of the list (R180). -/
def applyWaiting (s : State) : State :=
  match s.slc.waiting with
  | none => s
  | some w =>
    { s with slc := { s.slc with
        pollList := w.list, bitRate := w.rate, window := w.window, cursor := 0, waiting := none } }

/-- The running turn ends (R175, R180). -/
def endTurn (s : State) : State := applyWaiting { s with slc := { s.slc with turn := none } }

/-- The address of a turn that waits for its answer: a POLL has been sent and no REPLY is being sent (R174, R175). -/
def awaited (s : State) : Option Nat :=
  match s.slc.turn with
  | some ⟨a, none⟩ => some a
  | _ => none

/-- A good answer: the count is 0, and an OFFLINE station becomes ONLINE with STATION_ONLINE raised (R176). -/
def answering (s : State) (a : Nat) : State :=
  let e := s.station a
  let s := s.setStation a { e with state := .online, misses := 0 }
  if e.state = .offline then raise s .link .stationOnline else s

/-- The kinds a role may send (R178). -/
def roleAllows (r : Role) (k : ReqKind) : Bool :=
  match k with
  | .lookupKey | .readPiece | .readZone => true
  | .nextBurn | .burnDone | .burnAbandon | .zoneCleared => r == .burn
  | .nextMark | .markDone | .markFailed => r == .mark
  | .takeMove | .picked | .placed | .moveAbandon => r == .crane
  | _ => false

/-- The REPLY of the turn is being sent (R175). -/
def sendReply (s : State) (a : Nat) (r : Reply) : State :=
  { s with slc := { s.slc with turn := some ⟨a, some r⟩ } }

/-- A good REQUEST of kind `k` in the answer that is awaited. It is discarded where the entry has been released;
otherwise the station is answering, the request is checked for role and, where it names a table or crane, for the
bound unit, and then delivered to `body` (R175, R176, R178). Outside an awaited answer nothing is taken (R174). -/
def stationRequest (k : ReqKind) (unit : Option Nat) (body : State → Ans) (s : State) :
    Host.Outcome State Fault Refusal :=
  match awaited s with
  | none => .next s
  | some a =>
    match (s.station a).binding with
    | none => .next (endTurn s)
    | some (role, bound) =>
      let s := answering s a
      if !roleAllows role k then .next (sendReply s a ⟨.unknownRequest, k.code, .none⟩)
      else if unit.any (· ≠ bound) then .next (sendReply s a ⟨.notYours, k.code, .none⟩)
      else
        let r := body s
        .next (sendReply r.st a ⟨r.status, k.code, r.record⟩)

/-- A request that the host and any station may send (R20, R21, R81). -/
def sharedRequest (sender : Sender) (k : ReqKind) (body : State → Ans) (s : State) :
    Host.Outcome State Fault Refusal :=
  match sender with
  | .host => hostAnswer k (body s)
  | .station => stationRequest k none body s

end Sys2Proof.Machine
end

