-- ==== Sys2Proof/Machine/Nests.lean ====
section
/-! DEFINITION. The shared operations of the Table Controller and the Mark Dispatcher: naming a nest, activation, the
pending start check, ending parts, closing a nest, withdrawing an issued mark (chapters 4 and 5). -/

namespace Sys2Proof.Machine

/-! ## Zones, nests and parts -/

/-- The zone's phase is set. -/
def setPhase (s : State) (z : Nat) (p : Phase) : State := s.setZone z { s.zone z with phase := p }

/-- The zone's nest slot is written. -/
def setNest (s : State) (z : Nat) (n : Option Nest) : State := s.setZone z { s.zone z with nest := n }

/-- Amends the nest in the zone's slot, if it holds one. -/
def modNest (s : State) (z : Nat) (f : Nest → Nest) : State := setNest s z ((s.zone z).nest.map f)

/-- Part `i` of the nest in the zone's slot. -/
def part? (s : State) (z i : Nat) : Option Part := (s.zone z).nest.bind fun n => n.parts[i]?

/-- Amends part `i` of the nest in the zone's slot. -/
def modPart (s : State) (z i : Nat) (f : Part → Part) : State :=
  modNest s z fun n => { n with parts := n.parts.modify i f }

/-- The nest checks of R63: a table or bed out of range is RANGE; an empty slot or another id is NOT_FOUND. -/
def checkNest (s : State) (z : ZoneArg) (id : Nat) : Except Status (Nat × Nest) :=
  match zoneArg? z with
  | none => .error .range
  | some k =>
    match (s.zone k).nest with
    | none => .error .notFound
    | some n => if n.id = id then .ok (k, n) else .error .notFound

/-- The reply record that shows the zone's nest as it stands. -/
def nestRecord (s : State) (z : Nat) : ReplyRecord :=
  match (s.zone z).nest with
  | some n => .nest n
  | none => .none

/-- A part that is BURNT or SKIPPED is final (R64). -/
def Part.final (p : Part) : Bool := p.burn == .burnt || p.burn == .skipped

/-- A mark that lets its part burn: MARKED, WAIVED or NOT_REQUIRED (R84). -/
def MarkState.satisfied (m : MarkState) : Bool := m == .marked || m == .waived || m == .notRequired

/-- The torch mounted on a table: the record whose mounted table it is (R59, R115). -/
def mountedTorch (s : State) (t : Nat) : Option Nat := firstFrom (fun n => (s.torch n).mounted == some t) 12 0

/-- The address bound to a role and unit (R59, R177). -/
def boundStation (s : State) (r : Role) (u : Nat) : Option Nat :=
  firstFrom (fun a => (s.station a).binding == some (r, u)) 31 1

/-- The table record with the fields kept by the other blocks (R59). -/
def tableView (s : State) (t : Nat) : TableView :=
  { active := (s.table t).active, chain := (s.table t).chain, burn := (s.burn t).state,
    torch := (mountedTorch s t).map fun n => (s.torch n).id,
    burnStation := boundStation s .burn t, markStation := boundStation s .mark t }

/-! ## Starting -/

/-- The start conditions of the STAGED nest of zone `z` (R70). -/
def startOk (s : State) (z : Nat) : Bool :=
  match (s.zone z).nest with
  | none => false
  | some n =>
    n.state == .staged && (s.table (zoneTable z)).active.isNone && s.ppn.mode == .opened &&
      (s.zone z).phase == .loaded && (s.bed z).pieces.contains n.plate && (s.zone z).inbound.isNone &&
      (match s.piece? n.plate with
        | some p => p.move.isNone
        | none => false)

/-- Activation: the nest becomes ACTIVE, its zone CUTTING, its plate IN_CUT, and the table's active zone names the zone
(R71). -/
def activate (s : State) (z : Nat) : State :=
  match (s.zone z).nest with
  | none => s
  | some n =>
    let s := s.setZone z { s.zone z with phase := .cutting, nest := some { n with state := .active } }
    let s := s.modPiece n.plate fun p => { p with state := .inCut }
    s.setTable (zoneTable z) { s.table (zoneTable z) with active := some (zoneBed z) }

/-- Activation by the chain: the flag is cleared and ZONE_SWITCHED raised (R76, R78). -/
def switchTo (s : State) (z : Nat) : State :=
  let s := activate s z
  let s := s.setTable (zoneTable z) { s.table (zoneTable z) with chain := false }
  raise s (.table (zoneTable z)) .zoneSwitched

/-- The pending start check of a table: zone A, then zone B (R78). -/
def pendingStart (s : State) (t : Nat) : State :=
  if (s.table t).active.isNone && (s.table t).chain then
    if startOk s (zoneOf t .a) then switchTo s (zoneOf t .a)
    else if startOk s (zoneOf t .b) then switchTo s (zoneOf t .b)
    else s
  else s

/-- The pending start check of every table, as the hall becomes OPEN (R78, R188). -/
def pendingStartAll (s : State) : State := (List.range 6).foldl pendingStart s

/-! ## Marks -/

/-- A withdrawal of the table's issued mark: the mark returns to PENDING and the ended issue names it WITHDRAWN (R91).
Nothing where no mark is issued. -/
def withdrawMark (s : State) (t : Nat) : State :=
  match (s.marks t).issued with
  | none => s
  | some r =>
    let s := modPart s (zoneOf t r.bed) r.part fun p => { p with mark := .pending }
    s.setMarks t ⟨none, some (r, .withdrawn)⟩

/-! ## Ending parts and closing -/

/-- A PENDING or INTERRUPTED part becomes SKIPPED; if its mark was ISSUED, the issue is withdrawn (R72). -/
def skipOne (s : State) (z i : Nat) : State :=
  match part? s z i with
  | none => s
  | some p =>
    if p.burn == .pending || p.burn == .interrupted then
      let s := modPart s z i fun p => { p with burn := .skipped }
      if p.mark == .issued then withdrawMark s (zoneTable z) else s
    else s

/-- The remnant a declaration of the plate `parent` becomes on the bed of zone `z` (R75); key and creation sequence are
drawn at creation. -/
def remnantOf (parent : Piece) (d : DeclArg) (z : Nat) : Piece :=
  { key := parent.key, kind := .remnant, grade := parent.grade, thickness := parent.thickness, len := d.len,
    wid := d.wid, rects := d.rects, net := d.net, mass := remnantMass d.net parent.thickness, state := .onTable,
    place := .zone z, reservation := none, hold := false, move := none, created := 0 }

/-- Each declaration, in index order, becomes a remnant, or is dropped with REMNANT_LOST raised (R75). -/
def createRemnants (s : State) (parent : Piece) (z : Nat) : List Decl → State × List Decl
  | [] => (s, [])
  | d :: ds =>
    match createRemnant s parent.key.heat (remnantOf parent d.arg z) with
    | (.ok h, s) =>
      let r := createRemnants s parent z ds
      (r.1, { d with outcome := some (.created h) } :: r.2)
    | (.error e, s) =>
      let r := createRemnants (raise s (.table (zoneTable z)) .remnantLost) parent z ds
      (r.1, { d with outcome := some (.refused e) } :: r.2)

/-- The chain step of a close: the other zone's STAGED nest is started when the chain flag is set and it meets the start
conditions (R76). -/
def chainStep (s : State) (z : Nat) : State :=
  if (s.table (zoneTable z)).chain && startOk s (otherZone z) then switchTo s (otherZone z) else s

/-- The close of the zone's nest, in the order of R74. -/
def closeNest (s : State) (z : Nat) : State :=
  match (s.zone z).nest with
  | none => s
  | some n =>
    match s.piece? n.plate with
    | none => s
    | some parent =>
      let r := createRemnants (retire s n.plate) parent z n.decls
      let s := r.1
      let s := s.setZone z { s.zone z with phase := .cut, nest := some { n with state := .closed, decls := r.2 } }
      let s := s.setTable (zoneTable z) { s.table (zoneTable z) with active := none }
      chainStep (raise s (.table (zoneTable z)) .nestClosed) z

/-- The nest closes in the step in which every part has become final while the table holds no grant (R74). -/
def closeIfFinal (s : State) (z : Nat) : State :=
  match (s.zone z).nest with
  | none => s
  | some n =>
    if n.state == .active && n.parts.all Part.final && (s.burn (zoneTable z)).grant.isNone then closeNest s z else s

end Sys2Proof.Machine
end

