-- ==== Sys2Proof/Machine/Evaluation.lean ====
section
/-! DEFINITION. The Clearance Unit's evaluation: allowances, gaps and order faults, hook states, intrusion flags, and the
twelve travel permissives (chapter 8). -/

namespace Sys2Proof.Machine

/-- A position a block may rely on: VALID or HELD. -/
def Validity.placed (v : Validity) : Bool := v == .valid || v == .held

/-- The distance a crane could travel during the look-ahead at `d` mm per sample, capped; `d` is the speed in the
direction concerned (R143). -/
def allowanceOf (r : Runway) (d : Int) : Nat :=
  if 0 < d then min Config.allowanceCap (ceilDiv (d.toNat * r.lookAhead) r.period) else 0

/-- An allowance from a measured speed; an unknown speed takes the cap (R143). -/
def allowance (r : Runway) (sign : Int) (d : Option Int) : Nat :=
  match d with
  | none => Config.allowanceCap
  | some v => allowanceOf r (sign * v)

/-- Stage 1: the allowances of a crane (R143). -/
def setAllowances (s : State) (c : Nat) : State :=
  let m := s.sampled c
  let r := s.clu.runway
  s.setCrane c { s.crane c with
    aE := allowance r 1 m.dx, aW := allowance r (-1) m.dx, aN := allowance r 1 m.dy, aS := allowance r (-1) m.dy }

/-- The gap of the pair whose western crane is `c`; not judged unless both X are VALID or HELD (R144). -/
def pairGap (s : State) (c : Nat) : Option Int :=
  if (s.sampled c).x.validity.placed && (s.sampled (c + 1)).x.validity.placed then
    some (((s.sampled (c + 1)).x.value - (s.crane (c + 1)).westIn) - ((s.sampled c).x.value + (s.crane c).eastIn))
  else none

/-- Stage 2: the gap of a pair, and its order fault, which latches on a judged gap below 0 and then raises ORDER_FAULT at
both cranes if it was clear (R144, R145). -/
def setGap (s : State) (c : Nat) : State :=
  let g := pairGap s c
  let old := (s.pair c).orderFault
  let bad := g.any (· < 0)
  let s := s.setPair c ⟨g, old || bad⟩
  if bad && !old then raise (raise s (.crane c) .orderFault) (.crane (c + 1)) .orderFault else s

/-- Stage 3: the hook state of a crane (R147). -/
def setHookState (s : State) (c : Nat) : State :=
  let h := (s.sampled c).h
  let high := h.validity.placed && (s.clu.runway.overfly : Int) ≤ h.value
  s.setCrane c { s.crane c with hook := if high then .high else .low }

/-- `v` lies in the span `lo` to `hi` grown by `m` on both sides, both ends included (R148, R150). -/
def inSpan (lo hi m : Nat) (v : Int) : Bool := (lo : Int) - m ≤ v && v ≤ (hi : Int) + m

/-- The distance from `v` to a span, 0 inside it (R149). -/
def spanDistance (lo hi : Nat) (v : Int) : Int :=
  if v < lo then lo - v else if (hi : Int) < v then v - hi else 0

/-- A crane intrudes a configured zone: by its place and a LOW hook, or by the stale reach (R148, R149). -/
def intrudes (s : State) (c z : Nat) : Bool :=
  let b := s.bed z
  let m := s.sampled c
  let r := s.clu.runway
  b.configured &&
    (if m.x.validity.placed && m.y.validity.placed then
      (s.crane c).hook == .low && inSpan b.x0 b.x1 r.margin m.x.value && inSpan b.y0 b.y1 r.margin m.y.value
    else !m.goodX || spanDistance b.x0 b.x1 m.x.value ≤ (r.reach : Int))

/-- Stage 4: the set of cranes that intrude a zone (R148). -/
def setIntrusion (s : State) (z : Nat) : State := s.setIntruders z ((List.range 3).filter fun c => intrudes s c z)

/-- The four directions of the permissives. -/
inductive Dir where
  | w | e | n | s
  deriving DecidableEq, Repr

/-- A distance test: a permissive that was on needs `required`, one that was off needs the hysteresis too (R151). -/
def falls (wasOn : Bool) (hysteresis : Nat) (required distance : Int) : Bool :=
  distance < (if wasOn then required else required + hysteresis)

/-- The crane has ORDER_FAULT: a pair it belongs to is latched (R141). -/
def craneOrderFault (s : State) (c : Nat) : Bool :=
  (c < 2 && (s.pair c).orderFault) || (0 < c && (s.pair (c - 1)).orderFault)

/-- NEIGHBOUR_STALE and NEIGHBOUR for the pair whose western crane is `c`, seen from crane `me` toward `other` (R151). -/
def pairConds (s : State) (wasOn : Bool) (c me other : Nat) : List Cond :=
  let required : Int := s.clu.runway.separation + (s.crane c).aE + (s.crane (c + 1)).aW
  (if (s.sampled other).x.validity.placed then [] else [.neighbourStale]) ++
    (if (s.sampled me).x.validity.placed && (pairGap s c).any (falls wasOn s.clu.runway.hysteresis required)
      then [.neighbour] else [])

/-- END for C0's W or C2's E (R144, R151). -/
def endConds (s : State) (wasOn : Bool) (c : Nat) (east : Bool) : List Cond :=
  let r := s.clu.runway
  let x := (s.sampled c).x.value
  let gap : Int := if east then r.length - (x + (s.crane c).eastIn) else x - (s.crane c).westIn
  let required : Int := r.separation + (if east then (s.crane c).aE else (s.crane c).aW)
  if (s.sampled c).x.validity.placed && falls wasOn r.hysteresis required gap then [.runwayEnd] else []

/-- The neighbour and runway-end conditions of a permissive (R144, R151). -/
def gapConds (s : State) (wasOn : Bool) (c : Nat) : Dir → List Cond
  | .w => if c = 0 then endConds s wasOn c false else pairConds s wasOn (c - 1) c (c - 1)
  | .e => if c = 2 then endConds s wasOn c true else pairConds s wasOn c c (c + 1)
  | _ => []

/-- The keep-out term of a permissive against zone `z` fails (R150). -/
def keepOutFails (s : State) (wasOn : Bool) (c : Nat) (d : Dir) (z : Nat) : Bool :=
  let b := s.bed z
  let m := s.sampled c
  let r := s.clu.runway
  let v := s.crane c
  let inY := !m.y.validity.placed || inSpan b.y0 b.y1 r.margin m.y.value
  let inX := inSpan b.x0 b.x1 r.margin m.x.value
  let term (band : Bool) (dist : Int) (a : Nat) : Bool :=
    band && 0 ≤ dist && falls wasOn r.hysteresis (a + r.margin) dist
  s.grantHeld z && b.configured && v.hook == .low && m.x.validity.placed &&
    (match d with
      | .e => term inY ((b.x0 : Int) - r.margin - m.x.value) v.aE
      | .w => term inY (m.x.value - ((b.x1 : Int) + r.margin)) v.aW
      | .n => m.y.validity.placed && term inX ((b.y0 : Int) - r.margin - m.y.value) v.aN
      | .s => m.y.validity.placed && term inX (m.y.value - ((b.y1 : Int) + r.margin)) v.aS)

/-- The conditions that hold a permissive off, by the table of R151 and R145: a fault of the neighbour from its other pair
is none of them (log 44). They stand in the order of that table, zones rising, though the spec calls them a set (log 68). -/
def condsOf (s : State) (wasOn : Bool) (c : Nat) (d : Dir) : List Cond :=
  let m := s.sampled c
  (if s.ppn.mode = .opened then [] else [.mode]) ++
    (if craneOrderFault s c then [.orderFault] else []) ++
    (if m.x.validity.placed then [] else [.staleX]) ++
    (if (d == .n || d == .s) && !m.y.validity.placed then [.staleY] else []) ++
    gapConds s wasOn c d ++
    ((List.range 12).filter (keepOutFails s wasOn c d)).map .keepOut

/-- A permissive evaluated at a sample completion (R151). -/
def permissiveAt (s : State) (c : Nat) (d : Dir) (p : Permissive) : Permissive :=
  let cs := condsOf s p.on c d
  ⟨cs.isEmpty, cs⟩

/-- Stage 5: the four permissives of a crane (R151). -/
def setPermissives (s : State) (c : Nat) : State :=
  let v := s.crane c
  s.setCrane c { v with
    pW := permissiveAt s c .w v.pW, pE := permissiveAt s c .e v.pE, pN := permissiveAt s c .n v.pN,
    pS := permissiveAt s c .s v.pS }

/-- The evaluation of a sample completion, stage by stage (R142). -/
def evaluate (s : State) : State :=
  let s := (List.range 3).foldl setAllowances s
  let s := (List.range 2).foldl setGap s
  let s := (List.range 3).foldl setHookState s
  let s := (List.range 12).foldl setIntrusion s
  (List.range 3).foldl setPermissives s

/-- A permissive evaluated at a grant: one that is on may go off, one that is off stays as it is (R152; log 21). -/
def permissiveAtGrant (s : State) (c : Nat) (d : Dir) (p : Permissive) : Permissive :=
  if p.on then permissiveAt s c d p else p

/-- The permissives of a crane at a grant (R152). -/
def regrantPermissives (s : State) (c : Nat) : State :=
  let v := s.crane c
  s.setCrane c { v with
    pW := permissiveAtGrant s c .w v.pW, pE := permissiveAtGrant s c .e v.pE,
    pN := permissiveAtGrant s c .n v.pN, pS := permissiveAtGrant s c .s v.pS }

/-- The evaluation of the twelve permissives at a grant (R152). -/
def evaluateGrant (s : State) : State := (List.range 3).foldl regrantPermissives s

/-- A permissive as the hall stops: off, with MODE added (R153). -/
def Permissive.stop (p : Permissive) : Permissive := ⟨false, if p.conds.contains .mode then p.conds else .mode :: p.conds⟩

/-- Every travel permissive goes off as the hall stops (R153). -/
def stopPermissives (s : State) : State :=
  (List.range 3).foldl (fun s c =>
    let v := s.crane c
    s.setCrane c { v with pW := v.pW.stop, pE := v.pE.stop, pN := v.pN.stop, pS := v.pS.stop }) s

end Sys2Proof.Machine
end

