-- ==== Sys2Proof/Machine/Grants.lean ====
section
/-! DEFINITION. The shared operations of the Burn Supervisor: making, ending and revoking a grant, arc time, failed
pierces and torch wear (chapter 6). -/

namespace Sys2Proof.Machine

/-- A torch's wear points (R116). -/
def Torch.wear (t : Torch) : Nat := t.starts * t.weight + t.arcTime / 100

/-- Amends the torch mounted on a table, if one is mounted. -/
def modMounted (s : State) (t : Nat) (f : Torch → Torch) : State :=
  match mountedTorch s t with
  | some n => s.setTorch n (f (s.torch n))
  | none => s

/-- The torch of an id (R115). -/
def torchOfId (s : State) (id : Nat) : Option Nat := firstFrom (fun n => (s.torch n).id == id) 12 0

/-- The zone a table's reference names. -/
def PartRef.zone (r : PartRef) (t : Nat) : Nat := zoneOf t r.bed

/-- A grant's end reaches the arc monitor: with the arc on, the pierce is no longer measured and the stuck-arc timer
starts (R111). -/
def monitorTold (s : State) (t : Nat) : State :=
  let m := s.monitor t
  if m.state = .off then s else s.setMonitor t { m with state := .cutting, stuck := true }

/-- A grant ends, whatever ends it: the table becomes IDLE, the grant absent, the ended grant written, the permissive off,
the zone's grant-held flag clear, and the arc monitor is told (R97, R101 to R103). -/
def endGrant (s : State) (t : Nat) (g : Grant) (e : GrantEnd) : State :=
  let s := s.setBurn t ⟨.idle, none, some (g.ref, e), false⟩
  let s := s.setGrantHeld (g.ref.zone t) false
  monitorTold s t

/-- A revocation of the table's grant: the part becomes INTERRUPTED, the grant ends REVOKED with its cause, and
GRANT_REVOKED is raised with the cause's own notice at the table (R103). Nothing where no grant is held. -/
def revoke (s : State) (t : Nat) (c : Cause) : State :=
  match (s.burn t).grant with
  | none => s
  | some g =>
    let s := modPart s (g.ref.zone t) g.ref.part fun p => { p with burn := .interrupted }
    let s := endGrant s t g (.revoked c)
    let s := raise s (.table t) .grantRevoked
    match c with
    | .torchFault => raise s (.table t) .torchFault
    | .overtime => raise s (.table t) .burnOvertime
    | _ => s

/-- The grant of part `i` of the table's active nest (R99): the part is BURNING, the table GRANTED, the permissive on, the
zone's flag set, and the travel permissives are evaluated at once (R97, R152). -/
def makeGrant (s : State) (t : Nat) (r : PartRef) (resumed : Bool) : State :=
  let z := r.zone t
  let s := modPart s z r.part fun p => { p with burn := .burning, failedPierces := 0 }
  let s := s.setBurn t ⟨.granted, some ⟨r, 0, s.bsv.pierceMin, s.bsv.burnLimit, resumed⟩, none, true⟩
  evaluateGrant (s.setGrantHeld z true)

/-- Intrusion found at a sample completion revokes the grants of intruded zones (R104). -/
def revokeIntruded (s : State) : State :=
  (List.range 6).foldl (fun s t =>
    match (s.burn t).grant with
    | some g => if s.intruded (g.ref.zone t) then revoke s t .intrusion else s
    | none => s) s

/-- `n` units of 0.1 s of arc are added to the mounted torch and, under a grant, to the part and the grant (R110). -/
def addArcUnits (s : State) (t n : Nat) : State :=
  let s := modMounted s t fun v => { v with arcTime := min Config.max32 (v.arcTime + n) }
  match (s.burn t).grant with
  | none => s
  | some g =>
    let s := modPart s (g.ref.zone t) g.ref.part fun p => { p with arcTime := min Config.max32 (p.arcTime + n) }
    s.setBurn t { s.burn t with grant := some { g with arcTime := g.arcTime + n } }

/-- A failed pierce under a grant: the part's and the torch's counts rise; at the torch's third in a row it becomes FAULT,
TORCH_FAULT is raised and the grant is revoked (R109). -/
def failedPierce (s : State) (t : Nat) (g : Grant) : State :=
  let s := modPart s (g.ref.zone t) g.ref.part fun p => { p with failedPierces := satInc 3 p.failedPierces }
  let s := modMounted s t fun v => { v with failed := satInc 3 v.failed }
  if (mountedTorch s t).any fun n => (s.torch n).failed = 3 then
    let s := modMounted s t fun v => { v with state := .fault }
    revoke (raise s (.table t) .torchFault) t .torchFault
  else s

/-- The wear check of the torch mounted on a table (R116). -/
def wearCheck (s : State) (t : Nat) : State :=
  match mountedTorch s t with
  | none => s
  | some n =>
    let v := s.torch n
    if v.state = .inService && v.limit ≤ v.wear then
      raise (s.setTorch n { v with state := .worn }) (.table t) .torchWorn
    else s

end Sys2Proof.Machine
end

