-- ==== Sys2Proof/Machine/Sampling.lean ====
section
/-! DEFINITION. The shared operations of the Runway Sensor Unit: judging a frame, starting a sample, ending a read, and
completing a sample with all that follows in the same step (chapter 7). -/

namespace Sys2Proof.Machine

/-! ## Frames -/

/-- The expected bit count of a frame (R123). -/
def FrameSettings.bits (f : FrameSettings) : Nat := f.dataBits + f.statusBits + (if f.parity = .none then 0 else 1)

/-- The `n` least significant bits of `w`, the most significant first (R125). -/
def bitsOf (w : Nat) : (n : Nat) → List Bool
  | 0 => []
  | n + 1 => w.testBit n :: bitsOf w n

/-- Bits read as an unsigned number, the most significant first (R125). -/
def ofBits (bs : List Bool) : Nat := bs.foldl (fun n b => 2 * n + b.toNat) 0

/-- Gray to binary: each binary bit is the one above it exclusive-or'd with the gray bit in its place (R125). -/
def grayBits (above : Bool) : List Bool → List Bool
  | [] => []
  | g :: r => (above ^^ g) :: grayBits (above ^^ g) r

/-- The raw position of a frame's data bits (R125). -/
def rawPosition (c : PosCode) (data : List Bool) : Nat :=
  match c with
  | .binary => ofBits data
  | .gray => ofBits (grayBits false data)

/-- The parity check on the bits as received (R125). -/
def parityOk (p : Parity) (bs : List Bool) : Bool :=
  match p with
  | .none => true
  | .even => bs.count true % 2 == 0
  | .odd => bs.count true % 2 == 1

/-- The status bits of a frame (R125). -/
def statusOf (f : FrameSettings) (bs : List Bool) : List Bool := (bs.drop f.dataBits).take f.statusBits

/-- A frame whose bits have all been received, judged by the settings: the failed result, or the raw position (R125). -/
def judgeFrame (f : FrameSettings) (bs : List Bool) : Except FrameResult Nat :=
  if !parityOk f.parity bs then .error .parity
  else if (statusOf f bs).any id then .error .encoderAlarm
  else .ok (rawPosition f.code (bs.take f.dataBits))

/-- The sample result a failed frame of a MASTER read gives (R126). -/
def FrameResult.toRead : FrameResult → ReadResult
  | .parity => .parity
  | .encoderAlarm => .encoderAlarm
  | .bitCount => .bitCount
  | .passed => .good

/-! ## Judging the axes -/

/-- The position conversion, floored toward minus infinity (R133). -/
def convert (raw offset scale : Int) : Int := ((raw - offset) * scale).fdiv 65536

/-- The band of an axis: what lies outside is RANGE, what lies inside is clamped for X and Y (R133). -/
def bandValue (r : Runway) (letter : Nat) (v : Int) : Option Int :=
  match letter with
  | 0 => if -500 ≤ v && v ≤ r.length + 500 then some (max 0 (min r.length v)) else none
  | 1 => if -500 ≤ v && v ≤ r.span + 500 then some (max 0 (min r.span v)) else none
  | _ => if 0 ≤ v && v ≤ 40000 then some v else none

/-- An axis's own read: a failed result, or the position it reads (R132, R133). A read that failed keeps its result; one
that passed is UNCONFIGURED with scale 0 (log 14). -/
def readOf (r : Runway) (letter : Nat) (a : Axis) (o : ReadOutcome) : Except ReadResult Int :=
  match o with
  | .inFlight => .error .noData
  | .failed f => .error f
  | .raw n =>
    if a.scale = 0 then .error .unconfigured
    else match bandValue r letter (convert n a.offset a.scale) with
      | none => .error .range
      | some v => .ok v

/-- A hoist's read: its latched count (R132, R133). -/
def hoistRead (r : Runway) (a : Axis) (l : Latch) : Except ReadResult Int :=
  if a.scale = 0 then .error .unconfigured
  else match bandValue r 2 (convert l.count.toInt a.offset a.scale) with
    | none => .error .range
    | some v => .ok v

/-- The axis takes its read, and each missed tick counts as one more failed read (R132, second stage). -/
def takeRead (a : Axis) (missed : Nat) (rd : Except ReadResult Int) : Axis :=
  match rd with
  | .ok v => { a with value := v, age := min 255 missed, good := true }
  | .error _ => { a with age := min 255 (a.age + 1 + missed) }

/-- A read ended GOOD (R132). -/
def readGood (rd : Except ReadResult Int) : Bool :=
  match rd with
  | .ok _ => true
  | .error _ => false

/-- The validity by age and good-value flag (R132, third stage). -/
def validityByAge (limit : Nat) (a : Axis) : Validity :=
  if !a.good then .stale
  else if a.age = 0 then .valid
  else if a.age < limit then .held
  else .stale

/-- The validity of an axis that has taken its read. An axis that was STALE `before` returns only by a GOOD read, whatever
the stale limit (R132, R136). -/
def validityOf (limit : Nat) (before : Validity) (rd : Except ReadResult Int) (a : Axis) : Validity :=
  if readGood rd || before != .stale then validityByAge limit a else .stale

/-- The validity of an H axis as its hoist is homed (R124, R130): one that was UNHOMED takes the validity of its age; any
other stands (log 12). -/
def validityAtHoming (limit : Nat) (a : Axis) : Validity :=
  if a.validity = .unhomed then validityByAge limit a else a.validity

/-- The speed of an X or Y axis (R134), from its place in the previous sample. -/
def deltaOf (now before : Validity) (value old : Int) (oldDelta : Option Int) : Option Int :=
  if before.placed then
    match now with
    | .valid => some (value - old)
    | .held => oldDelta
    | _ => none
  else none

/-- An axis enters STALE from VALID or HELD (R132). -/
def entersStale (before now : Validity) : Bool := before.placed && now == .stale

/-- An axis as a sample holds it (R135). -/
def Axis.reading (a : Axis) : Reading := ⟨a.value, a.validity, a.age⟩

/-- The channel keeps the result of its sample read (R132). -/
def countRead (ch : Channel) (rd : Except ReadResult Int) : Channel :=
  match rd with
  | .ok _ => { ch with lastResult := .good, good := satInc Config.max16 ch.good }
  | .error r => { ch with lastResult := r, failed := satInc Config.max16 ch.failed }

/-- Judges the X (letter 0) or Y (letter 1) axis of crane `c` at a completion (R132 to R134). -/
def judgeSsi (cl : Collecting) (c letter : Nat) (s : State) : State :=
  let k := 3 * c + letter
  let ch := 2 * c + letter
  let a := s.axis k
  let rd := readOf s.clu.runway letter a (bankGet (fun _ => .failed .disabled) cl.reads ch)
  let a' := takeRead a cl.missed rd
  let v := validityOf s.clu.runway.staleLimit a.validity rd a'
  let m := s.sampled c
  let old := if letter = 0 then m.x else m.y
  let d := deltaOf v old.validity a'.value old.value (if letter = 0 then m.dx else m.dy)
  let s := s.setChannel ch (countRead (s.channel ch) rd)
  let s := s.setAxis k { a' with validity := v, delta := d }
  if entersStale a.validity v then raise s (.crane c) .positionStale else s

/-- Judges the H axis of crane `c` at a completion (R132). An UNHOMED axis is not STALE, so that the judging that ends
UNHOMED goes by age alone (log 50). -/
def judgeHoist (cl : Collecting) (c : Nat) (s : State) : State :=
  let k := 3 * c + 2
  let a := s.axis k
  let l := bankGet (fun _ => Latch.reset) cl.latches c
  let rd := hoistRead s.clu.runway a l
  let a' := takeRead a cl.missed rd
  let v := if l.homed then validityOf s.clu.runway.staleLimit a.validity rd a' else .unhomed
  let fresh := (s.hoist c).fresh
  let s := s.setHoist c { s.hoist c with fresh := false }
  let s := s.setAxis k { a' with validity := v }
  if entersStale a.validity v && !fresh then raise s (.crane c) .positionStale else s

/-- Judges the three axes of a crane. -/
def judgeCrane (cl : Collecting) (s : State) (c : Nat) : State :=
  judgeHoist cl c (judgeSsi cl c 1 (judgeSsi cl c 0 s))

/-- What the completed sample holds for a crane (R135). -/
def craneSample (cl : Collecting) (s : State) (c : Nat) : CraneSample :=
  { x := (s.axis (3 * c)).reading, y := (s.axis (3 * c + 1)).reading, h := (s.axis (3 * c + 2)).reading,
    dx := (s.axis (3 * c)).delta, dy := (s.axis (3 * c + 1)).delta, goodX := (s.axis (3 * c)).good,
    latch := bankGet (fun _ => Latch.reset) cl.latches c }

/-- The completed sample becomes the latest (R135). -/
def takeSample (cl : Collecting) (s : State) : State :=
  let cranes := (List.range 3).foldl
    (fun m c => bankSet (fun _ => CraneSample.reset) m c (craneSample cl s c)) ([] : Bank CraneSample)
  { s with rsu := { s.rsu with
      collecting := none, latest := ⟨next32 s.rsu.latest.seq, cl.missed, s.rsu.missedTicks, cranes⟩ } }

/-- Settings accepted by SET_RUNWAY and SET_CRANE come into force (R142, R154, R155). -/
def applySettings (s : State) : State :=
  let s := (List.range 3).foldl (fun s c =>
    s.setCrane c { s.crane c with westIn := (s.crane c).west, eastIn := (s.crane c).east }) s
  match s.clu.runwayNext with
  | none => s
  | some r => { s with clu := { s.clu with runway := r, runwayNext := none } }

/-- The completion of a sample and all that follows in its step: settings in force, axes judged, the sample latest, the
evaluation of the Clearance Unit, and the revocation of intruded grants (R132, R135, R142, R104). -/
def completeSample (s : State) (cl : Collecting) : State :=
  let s := applySettings s
  let s := (List.range 3).foldl (judgeCrane cl) s
  revokeIntruded (evaluate (takeSample cl s))

/-- The sample completes when none of its reads is in flight (R131). -/
def completeIfDone (s : State) : State :=
  match s.rsu.collecting with
  | none => s
  | some cl => if cl.reads.all (fun e => e.2 != .inFlight) then completeSample s cl else s

/-! ## Starting a sample and ending a read -/

/-- Channel `c` starts its part of a sample: a MASTER read is launched, a LISTEN channel hands over its held frame, a
DISABLED one fails (R126, R128, R131). `high` is the level of the channel's data line. -/
def startRead (lines : BitVec 6) (s : State) (c : Nat) : State × ReadOutcome :=
  let ch := s.channel c
  match ch.mode with
  | .disabled => (s, .failed .disabled)
  | .master =>
    let ph := if lines.getLsbD c then FlightPhase.clocking else .waiting
    (s.setChannel c { ch with flight := some ⟨ph, ch.settings, s.clu.runway.period⟩ }, .inFlight)
  | .listen =>
    match ch.held with
    | none => (s, .failed .noFrame)
    | some n => (s.setChannel c { ch with held := none }, .raw n)

/-- The reads of the channels `cs`, started in order. -/
def startReads (lines : BitVec 6) : List Nat → State → Bank ReadOutcome → State × Bank ReadOutcome
  | [], s, m => (s, m)
  | c :: cs, s, m =>
    let r := startRead lines s c
    startReads lines cs r.1 (bankSet (fun _ => .failed .disabled) m c r.2)

/-- The hoist counts as they stand, each with its homed flag (R131). -/
def latchHoists (s : State) : Bank Latch :=
  (List.range 3).foldl (fun m c =>
    bankSet (fun _ => Latch.reset) m c ⟨(s.hoist c).count, (s.hoist c).homed⟩) []

/-- A new sample starts, and completes at once where no MASTER read is in flight (R131). -/
def startSample (s : State) (lines : BitVec 6) : State :=
  let r := startReads lines (List.range 6) s []
  let s := r.1
  completeIfDone { s with rsu := { s.rsu with collecting := some ⟨r.2, latchHoists s, 0⟩ } }

/-- A MASTER read ends, good or failed: it is reported to the sample, which completes with its last read (R126, R131). -/
def endRead (s : State) (c : Nat) (o : ReadOutcome) : State :=
  let s := s.setChannel c { s.channel c with flight := none }
  match s.rsu.collecting with
  | none => s
  | some cl =>
    completeIfDone { s with rsu := { s.rsu with
      collecting := some { cl with reads := bankSet (fun _ => .failed .disabled) cl.reads c o } } }

end Sys2Proof.Machine
end

