-- ==== Sys2Proof/Machine/MoveOps.lean ====
section
/-! DEFINITION. The shared operations of the Move Controller: finding moves, assigning ids, the room test, reserving and
releasing places, and the position check (chapter 9, with R30 to R32 and R61). -/

namespace Sys2Proof.Machine

/-- The crane and the record of the move in use that an id names (R157). -/
def findMove (s : State) (id : Nat) : Option (Nat × Move) :=
  (List.range 3).findSome? fun c => ((s.queue c).find? fun m => m.id == id).map fun m => (c, m)

/-- A move in use holds this id (R158). -/
def moveIdInUse (s : State) (id : Nat) : Bool := (findMove s id).isSome

/-- The current move of a crane: the front of its queue when it is not QUEUED (R158). -/
def currentMove (s : State) (c : Nat) : Option Move :=
  match s.queue c with
  | m :: _ => if m.state = .queued then none else some m
  | [] => none

/-- The move id after `n` (R158). -/
def idAfter (n : Nat) : Nat := if Config.max16 ≤ n then 1 else n + 1

/-- The first id from `n` on that no move in use holds (R158). -/
def freeMoveId (s : State) : (fuel n : Nat) → Nat
  | 0, n => n
  | fuel + 1, n => if moveIdInUse s n then freeMoveId s fuel (idAfter n) else n

/-- The id the next move created receives: there are 48 records, so 49 tries find one (R157, R158). -/
def drawMoveId (s : State) : Nat := freeMoveId s 49 s.mvc.nextId

/-- The id is assigned: the next one starts above it (R158). -/
def idAssigned (s : State) (id : Nat) : State := { s with mvc := { s.mvc with nextId := idAfter id } }

/-- Amends the move of an id in a crane's queue. -/
def modMove (s : State) (c id : Nat) (f : Move → Move) : State :=
  s.setQueue c ((s.queue c).map fun m => if m.id = id then f m else m)

/-- The move of an id leaves its crane's queue; its record is freed (R158). -/
def dropMove (s : State) (c id : Nat) : State := s.setQueue c ((s.queue c).filter fun m => m.id ≠ id)

/-! ## Room and reservations -/

/-- The room test of slot `n` for a piece of thickness `t`: none when it has room (R30). -/
def roomTest (s : State) (n t : Nat) : Option Status :=
  let v := s.slot n
  if 0 < v.outCount then some .occupied
  else if !v.enabled then some .occupied
  else if Config.stackRoom < v.stack.length + v.inCount + 1 then some .noRoom
  else if Config.heightRoom < v.height + v.inThick + t then some .noRoom
  else none

/-- A destination is reserved for a move: a slot's inbound count and thickness rise; a zone takes the move as its inbound
move and becomes LOADING (R31, R61, R162). -/
def reserveDest (s : State) (id t : Nat) : Dest → State
  | .slot n => s.setSlot n { s.slot n with inCount := (s.slot n).inCount + 1, inThick := (s.slot n).inThick + t }
  | .zone z => s.setZone z { s.zone z with inbound := some id, phase := .loading }

/-- A destination's reservation is released: a slot's inbound sums fall; a zone's inbound move becomes absent and the
zone CLEAR (R31, R61). -/
def releaseDest (s : State) (t : Nat) : Option Dest → State
  | some (.slot n) =>
    s.setSlot n { s.slot n with inCount := (s.slot n).inCount - 1, inThick := (s.slot n).inThick - t }
  | some (.zone z) => s.setZone z { s.zone z with inbound := none, phase := .clear }
  | none => s

/-- A source slot's outbound count rises: it is pick-locked (R32). -/
def lockSource (s : State) : Place → State
  | .slot n => s.setSlot n { s.slot n with outCount := (s.slot n).outCount + 1 }
  | _ => s

/-- A source slot's outbound count falls (R32). -/
def unlockSource (s : State) : Place → State
  | .slot n => s.setSlot n { s.slot n with outCount := (s.slot n).outCount - 1 }
  | _ => s

/-- An unfinished move other than `id` names zone `z` as its destination (R160, R168). -/
def zoneNamed (s : State) (z id : Nat) : Bool :=
  (List.range 3).any fun c => (s.queue c).any fun m => m.id != id && m.dest == some (.zone z)

/-- The zone's nest slot holds a STAGED nest whose plate is another piece (R160, R168). -/
def stagedForOther (s : State) (z : Nat) (h : Handle) : Bool :=
  match (s.zone z).nest with
  | some n => n.state == .staged && n.plate != h
  | none => false

/-- The mass of the piece a handle names, 0 where it names none. -/
def massOf (s : State) (h : Handle) : Nat :=
  match s.piece? h with
  | some p => p.mass
  | none => 0

/-- What the head of a queue fails at TAKE_MOVE, in the order of R161 case 6: the status and the check that failed (named
as log 48 has it); none when it may be taken. -/
def headBlocked (s : State) (m : Move) (p : Piece) : Option (Status × HeadCheck) :=
  let atSource : Option (Status × HeadCheck) := match p.place with
    | .slot n =>
      if 0 < (s.slot n).inCount then some (.occupied, .sourceInbound)
      else if 0 < pieceDepth s m.piece p then some (.buried, .notOnTop)
      else none
    | _ => none
  match atSource with
  | some e => some e
  | none =>
    match m.dest with
    | some (.slot n) => (roomTest s n p.thickness).map fun e => (e, .slotRoom)
    | some (.zone z) => if (s.zone z).phase = .clear then none else some (.occupied, .zoneClear)
    | none => none

/-! ## The position check -/

/-- `v` lies within `tol` of `centre`, the tolerance included (R163). -/
def nearTo (tol centre : Nat) (v : Int) : Bool := (v - centre).natAbs ≤ tol

/-- The position check of crane `c` against a centre (R163). -/
def positionCheck (s : State) (c : Nat) (centre : Nat × Nat) : PosCheck :=
  let m := s.sampled c
  let result : CheckResult :=
    if !m.x.validity.placed || !m.y.validity.placed then .unverified
    else if nearTo s.clu.runway.tolerance centre.1 m.x.value && nearTo s.clu.runway.tolerance centre.2 m.y.value then
      .verified
    else .wrongPlace
  { result := result, seq := s.rsu.latest.seq, x := m.x.value, y := m.y.value, validX := m.x.validity,
    validY := m.y.validity, centreX := centre.1, centreY := centre.2 }

/-- A report taken with result UNVERIFIED raises PICK_UNVERIFIED at the crane's unit (R163). -/
def raiseUnverified (s : State) (c : Nat) (k : PosCheck) : State :=
  if k.result = .unverified then raise s (.crane c) .pickUnverified else s

/-! ## What replies carry -/

/-- The centre of a destination (R162, R168). -/
def destCentre (s : State) (d : Dest) : Nat × Nat := placeCentre s d.place

/-- A piece as it stands, where the handle names one. -/
def viewOf (s : State) (h : Handle) : Option PieceView := (s.piece? h).map fun p => pieceView s h p

/-- A move as it stands in a crane's queue. -/
def moveOf (s : State) (c id : Nat) : Option Move := (s.queue c).find? fun m => m.id == id

/-- What TAKE_MOVE carries of a move: while it is TAKEN, its source with the centre (R161, R162). -/
def takeView (s : State) (c : Nat) (m : Move) : ReplyRecord :=
  match s.piece? m.piece with
  | none => .none
  | some p =>
    let source : Option SourceView :=
      if m.state = .taken then
        some ⟨p.place, (piecePos s m.piece p).1, (piecePos s m.piece p).2, (placeCentre s p.place).1,
          (placeCentre s p.place).2⟩
      else none
    .take ⟨c, m, p.key, p.kind, p.thickness, p.mass, source, m.dest.map (destCentre s)⟩

end Sys2Proof.Machine
end

