-- ==== Sys2Proof/Machine/Registry.lean ====
section
/-! DEFINITION. The meanings of the Stock Registry's requests (chapter 1). Each is the answer to the request, made the
reply by `hostAnswer` or, where a station may send it, by `sharedRequest`. -/

namespace Sys2Proof.Machine

/-- The record that shows the piece of a handle as it stands. -/
def pieceRecord (s : State) (h : Handle) : ReplyRecord :=
  match s.piece? h with
  | some p => .piece (pieceView s h p)
  | none => .none

/-! ## ENROL_PLATE -/

/-- The plate ENROL_PLATE creates, with the creation sequence `created` (R8, R14, R15). -/
def newPlate (key : Key) (grade thickness len wid created : Nat) : Piece :=
  { key := key, kind := .plate, grade := grade, thickness := thickness, len := len, wid := wid, rects := [],
    net := area len wid, mass := plateMass len wid thickness, state := .arriving, place := .receiving,
    reservation := none, hold := false, move := none, created := created }

/-- R15 -/
def enrolPlateAns (key : Key) (grade thickness len wid : Nat) (s : State) : Ans :=
  if s.ppn.mode = .stopped then refuse s .wrongMode
  else if !(keyOkFor .plate key && steelOk grade thickness && outlineOk len wid) then refuse s .range
  else if Config.rowRoom ≤ s.lmap.receiving.length then refuse s .noRoom
  else
    let c := drawCreated s
    match createKeyed s (newPlate key grade thickness len wid c) with
    | .error e => refuse s e
    | .ok (h, s) =>
      let s := { s with srg := { s.srg with creation := next32 c } }
      okWith s (pieceRecord s h)

/-- ENROL_PLATE -/
def execEnrolPlate (key : Key) (grade thickness len wid : Nat) (s : State) : Host.Outcome State Fault Refusal :=
  hostAnswer .enrolPlate (enrolPlateAns key grade thickness len wid s)

/-! ## ENROL_REMNANT -/

/-- The remnant ENROL_REMNANT creates on zone `z`; key and creation sequence are drawn at creation (R16). -/
def newRemnant (heat : List Nat) (grade thickness : Nat) (d : DeclArg) (z : Nat) : Piece :=
  { key := ⟨heat, 0⟩, kind := .remnant, grade := grade, thickness := thickness, len := d.len, wid := d.wid,
    rects := d.rects, net := d.net, mass := remnantMass d.net thickness, state := .onTable, place := .zone z,
    reservation := none, hold := false, move := none, created := 0 }

/-- R16 -/
def enrolRemnantAns (zone : ZoneArg) (heat : List Nat) (grade thickness : Nat) (d : DeclArg) (s : State) : Ans :=
  if s.ppn.mode = .cold then refuse s .wrongMode
  else match zoneArg? zone with
    | none => refuse s .range
    | some z =>
      if !(heatOk heat && steelOk grade thickness && remnantOk d) then refuse s .range
      else if (s.zone z).phase ≠ .cut then refuse s .badState
      else if Config.bedRoom ≤ (s.bed z).pieces.length then refuse s .noRoom
      else match createRemnant s heat (newRemnant heat grade thickness d z) with
        | (.error e, s) => refuse s e
        | (.ok h, s) => okWith s (pieceRecord s h)

/-- ENROL_REMNANT -/
def execEnrolRemnant (zone : ZoneArg) (heat : List Nat) (grade thickness : Nat) (d : DeclArg) (s : State) :
    Host.Outcome State Fault Refusal :=
  hostAnswer .enrolRemnant (enrolRemnantAns zone heat grade thickness d s)

/-! ## RESTORE_PIECE -/

/-- The state that belongs with a location (R3, R17). -/
def stateAt : Place → PieceState
  | .receiving => .arriving
  | .slot _ => .stored
  | .zone _ => .onTable
  | .hook _ => .inTransit

/-- The piece RESTORE_PIECE describes at place `pl`; none where a field is outside its range (R1, R5, R8, R17). -/
def restored (a : RestoreArg) (pl : Place) : Option Piece :=
  if !(steelOk a.grade a.thickness && inRange 1 Config.max32 a.created) then none
  else if a.kind = 0 then
    if keyOkFor .plate a.key && outlineOk a.len a.wid then
      some { newPlate a.key a.grade a.thickness a.len a.wid a.created with
        state := stateAt pl, place := pl, hold := a.hold }
    else none
  else if a.kind = 1 then
    if keyOkFor .remnant a.key && remnantOk ⟨a.len, a.wid, a.rects, a.net⟩ then
      some { newRemnant a.key.heat a.grade a.thickness ⟨a.len, a.wid, a.rects, a.net⟩ 0 with
        key := a.key, state := stateAt pl, place := pl, hold := a.hold, created := a.created }
    else none
  else none

/-- The location check of RESTORE_PIECE: the refusal, or none (R17 step 4, R18). -/
def restoreBlocked (s : State) (p : Piece) : Option Status :=
  match p.place with
  | .receiving => if Config.rowRoom ≤ s.lmap.receiving.length then some .noRoom else none
  | .slot n =>
    let v := s.slot n
    if !v.enabled then some .badState
    else if Config.stackRoom < v.stack.length + v.inCount + 1 ||
        Config.heightRoom < v.height + v.inThick + p.thickness then some .noRoom
    else none
  | .zone z =>
    if !(s.bed z).configured then some .badState
    else if !(s.bed z).pieces.isEmpty || (s.zone z).inbound.isSome ||
        (s.zone z).nest.any (fun n => n.state == .staged) then some .occupied
    else if (s.zone z).phase ≠ .clear then some .badState
    else none
  | .hook c =>
    if (s.hook c).isSome || (currentMove s c).isSome then some .occupied
    else if (s.crane c).capacity < p.mass then some .overweight
    else if Config.queueRoom ≤ (s.queue c).length then some .queueFull
    else none

/-- What a restored piece brings with it: a zone becomes LOADED, and a hook's crane receives the SUSPENDED move that
names the piece (R17, R18, R62). -/
def restoreEffect (s : State) (h : Handle) : Place → State
  | .zone z => setPhase s z .loaded
  | .hook c =>
    let id := drawMoveId s
    let s := idAssigned (s.setQueue c (⟨id, h, none, .suspended⟩ :: s.queue c)) id
    s.modPiece h fun p => { p with move := some id }
  | _ => s

/-- The creation counter follows a restored sequence that is at least its value (R6). -/
def creationFollows (s : State) (c : Nat) : State :=
  if s.srg.creation ≤ c then { s with srg := { s.srg with creation := next32 c } } else s

/-- R17, R18 -/
def restorePieceAns (a : RestoreArg) (s : State) : Ans :=
  if s.ppn.mode ≠ .cold then refuse s .wrongMode
  else match (placeArg? a.loc).bind (restored a) with
    | none => refuse s .range
    | some p =>
      if createdInUse s p.created then refuse s .badState
      else match restoreBlocked s p with
        | some e => refuse s e
        | none =>
          match createKeyed s p with
          | .error e => refuse s e
          | .ok (h, s) =>
            let s := restoreEffect (creationFollows s p.created) h p.place
            okWith s (pieceRecord s h)

/-- RESTORE_PIECE -/
def execRestorePiece (a : RestoreArg) (s : State) : Host.Outcome State Fault Refusal :=
  hostAnswer .restorePiece (restorePieceAns a s)

/-! ## RETIRE_PIECE -/

/-- The piece lies in a slot with a move in flight to or from it (R19, R32). -/
def slotBusy (s : State) (p : Piece) : Bool :=
  match p.place with
  | .slot n => 0 < (s.slot n).inCount || 0 < (s.slot n).outCount
  | _ => false

/-- STORED or ARRIVING. -/
def PieceState.resting (st : PieceState) : Bool := st == .stored || st == .arriving

/-- R19 -/
def retirePieceAns (h : Handle) (s : State) : Ans :=
  match checkHandle s h with
  | .error e => refuse s e
  | .ok p =>
    if !p.state.resting then refuse s .badState
    else if p.move.isSome then refuse s .badState
    else if p.reservation.any (fun r => r.holder == .nest) then refuse s .badState
    else if slotBusy s p then refuse s .occupied
    else okWith (retire s h) (.piece (pieceView s h p))

/-- RETIRE_PIECE -/
def execRetirePiece (h : Handle) (s : State) : Host.Outcome State Fault Refusal :=
  hostAnswer .retirePiece (retirePieceAns h s)

/-! ## Reads -/

/-- R20 -/
def lookupKeyAns (k : Key) (s : State) : Ans :=
  if !keyOk k then refuse s .range
  else match dirLookup s.srg k with
    | none => refuse s .notFound
    | some h =>
      match s.piece? h with
      | some p => okWith s (.keyed h (pieceView s h p))
      | none => refuse s .notFound

/-- LOOKUP_KEY -/
def execLookupKey (sender : Sender) (k : Key) (s : State) : Host.Outcome State Fault Refusal :=
  sharedRequest sender .lookupKey (lookupKeyAns k) s

/-- R21 -/
def readPieceAns (h : Handle) (s : State) : Ans :=
  match checkHandle s h with
  | .error e => refuse s e
  | .ok p => okWith s (.piece (pieceView s h p))

/-- READ_PIECE -/
def execReadPiece (sender : Sender) (h : Handle) (s : State) : Host.Outcome State Fault Refusal :=
  sharedRequest sender .readPiece (readPieceAns h) s

/-! ## Hold and reservation -/

/-- The piece of a handle amended, answered OK with its record. -/
def amendPiece (s : State) (h : Handle) (p : Piece) : Ans :=
  let s := s.setPiece h p
  okWith s (pieceRecord s h)

/-- R22 -/
def setHoldAns (h : Handle) (s : State) : Ans :=
  match checkHandle s h with
  | .error e => refuse s e
  | .ok p => amendPiece s h { p with hold := true }

/-- SET_HOLD -/
def execSetHold (h : Handle) (s : State) : Host.Outcome State Fault Refusal := hostAnswer .setHold (setHoldAns h s)

/-- R22 -/
def releaseHoldAns (h : Handle) (s : State) : Ans :=
  match checkHandle s h with
  | .error e => refuse s e
  | .ok p => amendPiece s h { p with hold := false }

/-- RELEASE_HOLD -/
def execReleaseHold (h : Handle) (s : State) : Host.Outcome State Fault Refusal :=
  hostAnswer .releaseHold (releaseHoldAns h s)

/-- R23 -/
def reservePieceAns (h : Handle) (tag : Nat) (s : State) : Ans :=
  match checkHandle s h with
  | .error e => refuse s e
  | .ok p =>
    if tag = 0 then refuse s .range
    else match p.reservation with
      | some r => if r = ⟨.host, tag⟩ then okWith s (pieceRecord s h) else refuse s .badState
      | none =>
        if p.hold then refuse s .badState
        else if !p.state.resting then refuse s .badState
        else amendPiece s h { p with reservation := some ⟨.host, tag⟩ }

/-- RESERVE_PIECE -/
def execReservePiece (h : Handle) (tag : Nat) (s : State) : Host.Outcome State Fault Refusal :=
  hostAnswer .reservePiece (reservePieceAns h tag s)

/-- R24 -/
def unreservePieceAns (h : Handle) (tag : Nat) (s : State) : Ans :=
  match checkHandle s h with
  | .error e => refuse s e
  | .ok p =>
    if p.reservation = some ⟨.host, tag⟩ then amendPiece s h { p with reservation := none } else refuse s .badState

/-- UNRESERVE_PIECE -/
def execUnreservePiece (h : Handle) (tag : Nat) (s : State) : Host.Outcome State Fault Refusal :=
  hostAnswer .unreservePiece (unreservePieceAns h tag s)

end Sys2Proof.Machine
end

