-- ==== Sys2Proof/Machine/Locations.lean ====
section
/-! DEFINITION. The meanings of the Location Map's requests (chapter 2). -/

namespace Sys2Proof.Machine

/-- The entries of a collection in its order, counted from position `i` (R40, R41). -/
def stackEntries (s : State) : (i : Nat) → List Handle → List StackEntry
  | _, [] => []
  | i, h :: r =>
    match s.piece? h with
    | some p =>
      ⟨i, h, p.key, p.kind, p.thickness, p.mass, p.hold, p.reservation.isSome, p.move⟩ :: stackEntries s (i + 1) r
    | none => stackEntries s (i + 1) r

/-- Slot `n` as READ_SLOT gives it (R40). -/
def slotView (s : State) (n : Nat) : SlotView :=
  let v := s.slot n
  { x := v.x, y := v.y, enabled := v.enabled, pickLock := 0 < v.outCount, count := v.stack.length, height := v.height,
    inCount := v.inCount, inThick := v.inThick, outCount := v.outCount,
    roomCount := Config.stackRoom - v.stack.length - v.inCount,
    roomHeight := Config.heightRoom - v.height - v.inThick, stack := stackEntries s 0 v.stack }

/-- The receiving row as READ_RECEIVING gives it (R41). -/
def rowView (s : State) : RowView :=
  { x := s.lmap.recvX, y := s.lmap.recvY, count := s.lmap.receiving.length,
    room := Config.rowRoom - s.lmap.receiving.length, pieces := stackEntries s 0 s.lmap.receiving }

/-- A zone's geometry (R35, R38). -/
def geometryView (s : State) (z : Nat) : ZoneGeometry :=
  let b := s.bed z
  ⟨b.x, b.y, b.x0, b.x1, b.y0, b.y1⟩

/-- R37 -/
def setSlotAns (a : SlotArg) (x y : Nat) (enabled : Bool) (s : State) : Ans :=
  match slotArg? a with
  | none => refuse s .range
  | some n =>
    if !hallPoint x y then refuse s .range
    else if s.ppn.mode ≠ .cold && ((s.slot n).x ≠ x || (s.slot n).y ≠ y) then refuse s .wrongMode
    else
      let s := s.setSlot n { s.slot n with x := x, y := y, enabled := enabled }
      okWith s (.slot (slotView s n))

/-- SET_SLOT -/
def execSetSlot (a : SlotArg) (x y : Nat) (enabled : Bool) (s : State) : Host.Outcome State Fault Refusal :=
  hostAnswer .setSlot (setSlotAns a x y enabled s)

/-- The figures of SET_ZONE are in range (R38). -/
def zoneFiguresOk (x y x0 x1 y0 y1 : Nat) : Bool :=
  hallPoint x y && hallPoint x0 y0 && hallPoint x1 y1 && x0 < x1 && y0 < y1 && inRange x0 x1 x && inRange y0 y1 y

/-- R38 -/
def setZoneAns (z : ZoneArg) (x y x0 x1 y0 y1 : Nat) (s : State) : Ans :=
  if s.ppn.mode ≠ .cold then refuse s .wrongMode
  else match zoneArg? z with
    | none => refuse s .range
    | some k =>
      if !zoneFiguresOk x y x0 x1 y0 y1 then refuse s .range
      else
        let s := s.setBed k { s.bed k with
          x := x, y := y, x0 := x0, x1 := x1, y0 := y0, y1 := y1, configured := true }
        okWith s (.geometry (geometryView s k))

/-- SET_ZONE -/
def execSetZone (z : ZoneArg) (x y x0 x1 y0 y1 : Nat) (s : State) : Host.Outcome State Fault Refusal :=
  hostAnswer .setZone (setZoneAns z x y x0 x1 y0 y1 s)

/-- R39; the mode is checked before the ranges, an order that the rule does not give (log 64). -/
def setReceivingAns (x y : Nat) (s : State) : Ans :=
  if s.ppn.mode ≠ .cold then refuse s .wrongMode
  else if !hallPoint x y then refuse s .range
  else
    let s := { s with lmap := { s.lmap with recvX := x, recvY := y } }
    okWith s (.row (rowView s))

/-- SET_RECEIVING -/
def execSetReceiving (x y : Nat) (s : State) : Host.Outcome State Fault Refusal :=
  hostAnswer .setReceiving (setReceivingAns x y s)

/-- R40 -/
def readSlotAns (a : SlotArg) (s : State) : Ans :=
  match slotArg? a with
  | none => refuse s .range
  | some n => okWith s (.slot (slotView s n))

/-- READ_SLOT -/
def execReadSlot (a : SlotArg) (s : State) : Host.Outcome State Fault Refusal := hostAnswer .readSlot (readSlotAns a s)

/-- READ_RECEIVING (R41) -/
def execReadReceiving (s : State) : Host.Outcome State Fault Refusal :=
  hostAnswer .readReceiving (okWith s (.row (rowView s)))

end Sys2Proof.Machine
end

