-- ==== Sys2Proof/Machine/Search.lean ====
section
/-! DEFINITION. The meanings of the Fit Search Engine's requests, and of the steps of its walk (chapter 3). -/

namespace Sys2Proof.Machine

/-! ## Judging a piece -/

/-- A rectangle of length `li` and width `wi` fits the request: `false` unrotated, `true` rotated (R48). -/
def rectFits (q : SearchRequest) (li wi : Nat) : Option Bool :=
  if q.len ≤ li && q.wid ≤ wi then some false
  else if q.rotate && q.wid ≤ li && q.len ≤ wi then some true
  else none

/-- The first rectangle, from index `i` on, that fits: its index and whether rotated (R48). -/
def firstFit (q : SearchRequest) : (i : Nat) → List Rect → Option (Nat × Bool)
  | _, [] => none
  | i, r :: rs =>
    match rectFits q r.len r.wid with
    | some b => some (i, b)
    | none => firstFit q (i + 1) rs

/-- The rectangles a piece is tried through: a plate's whole outline, a remnant's usable rectangles (R48). -/
def tried (p : Piece) : List Rect :=
  match p.kind with
  | .plate => [⟨0, 0, p.len, p.wid⟩]
  | .remnant => p.rects

/-- The rectangle through which a piece fits (R48). -/
def fitOf (q : SearchRequest) (p : Piece) : Option (Nat × Bool) := firstFit q 0 (tried p)

/-- The kind passes the filter (R47). -/
def KindFilter.admits : KindFilter → Kind → Bool
  | .remnant, k => k == .remnant
  | .plate, k => k == .plate
  | .any, _ => true

/-- The conditions of eligibility but for the fit (R47). -/
def eligible (q : SearchRequest) (p : Piece) : Bool :=
  p.state == .stored && p.reservation.isNone && !p.hold && p.move.isNone && p.grade == q.grade &&
    p.thickness == q.thickness && q.filter.admits p.kind

/-- The score of a piece at a depth (R49). -/
def scoreOf (q : SearchRequest) (p : Piece) (depth : Nat) : Nat :=
  (p.net - area q.len q.wid) + depth * q.depthPenalty + (if p.kind = .plate then q.platePenalty else 0)

/-- A sorts before B: by score, then by creation sequence (R50). -/
def Candidate.before (a b : Candidate) : Bool := a.score < b.score || (a.score == b.score && a.created < b.created)

/-- A candidate inserted at its place; an entry equal in both stays ahead of it (R50). -/
def insertCandidate (c : Candidate) : List Candidate → List Candidate
  | [] => [c]
  | d :: r => if c.before d then c :: d :: r else d :: insertCandidate c r

/-- The four best (R50). -/
def keepCandidate (c : Candidate) (l : List Candidate) : List Candidate :=
  (insertCandidate c l).take Config.candidateRoom

/-- The record at an index judged: the candidate it gives, if it is eligible and fits (R47 to R49). -/
def judgeRecord (s : State) (q : SearchRequest) (i : Nat) : Option Candidate :=
  match (s.record i).live with
  | none => none
  | some p =>
    if eligible q p then
      (fitOf q p).map fun f =>
        let h : Handle := ⟨i, (s.record i).gen⟩
        ⟨h, scoreOf q p (pieceDepth s h p), f.1, f.2, p.created, none⟩
    else none

/-- A kept candidate checked again at completion: dropped, or scored anew with its details (R53). All of R47 but the fit is
judged again, even where the handle has come round to another piece (log 51). -/
def recheck (s : State) (q : SearchRequest) (c : Candidate) : Option Candidate :=
  match s.piece? c.handle with
  | none => none
  | some p =>
    if eligible q p then
      let depth := pieceDepth s c.handle p
      let slot := match p.place with
        | .slot n => n
        | _ => 0
      some { c with score := scoreOf q p depth, created := p.created, detail := some ⟨p.key, slot, depth, p.net⟩ }
    else none

/-- The survivors in order (R53). -/
def survivors (s : State) (q : SearchRequest) (l : List Candidate) : List Candidate :=
  (l.filterMap (recheck s q)).foldl (fun acc c => insertCandidate c acc) []

/-! ## FIT and FIT_RESERVE -/

/-- The fields of a search are in range; the filter (R44). -/
def fitRange (a : FitArg) : Option KindFilter :=
  if steelOk a.grade a.thickness && inRange 1 18000 a.len && inRange 1 18000 a.wid then filterOf a.filter else none

/-- The penalties in force with the ones a request carries, clamped (R44). -/
def penaltyOf (carried : Option Nat) (inForce : Nat) : Nat :=
  match carried with
  | some v => min Config.maxPenalty v
  | none => inForce

/-- What the overwritten field of a new search becomes (R45). -/
def overwrittenBy (f : Fse) : Option (Option Handle) :=
  if f.phase = .ready && !f.readFlag then some f.reserved else none

/-- The start of a search, with the tag of FIT_RESERVE (R45). -/
def startSearch (s : State) (a : FitArg) (k : KindFilter) (tag : Option Nat) : State :=
  let f := s.fse
  let d := penaltyOf a.depthPenalty f.depthPenalty
  let p := penaltyOf a.platePenalty f.platePenalty
  { s with fse :=
    { phase := .scanning, outcome := none, readFlag := false, overwritten := overwrittenBy f,
      request := some ⟨a.grade, a.thickness, a.len, a.wid, a.rotate, k, tag, d, p⟩, cursor := 0, candidates := [],
      reserved := none, depthPenalty := d, platePenalty := p } }

/-- A search request after the tag's check (R44). -/
def searchAns (a : FitArg) (tag : Option Nat) (s : State) : Ans :=
  match fitRange a with
  | none => refuse s .range
  | some k =>
    if s.fse.phase = .scanning then refuse s .busy
    else
      let s := startSearch s a k tag
      ⟨s, .accepted, match s.fse.request with
        | some q => .request q
        | none => .none⟩

/-- FIT (R44, R45) -/
def execFit (a : FitArg) (s : State) : Host.Outcome State Fault Refusal := hostAnswer .fit (searchAns a none s)

/-- FIT_RESERVE (R46) -/
def execFitReserve (a : FitArg) (tag : Nat) (s : State) : Host.Outcome State Fault Refusal :=
  hostAnswer .fitReserve (if tag = 0 then refuse s .range else searchAns a (some tag) s)

/-! ## READ_SEARCH -/

/-- The result as READ_SEARCH gives it in each state (R56). -/
def searchView (f : Fse) : SearchView :=
  match f.phase with
  | .idle => .idle
  | .scanning => .scanning f.overwritten f.request f.cursor
  | .ready => .ready f.outcome f.readFlag f.overwritten f.request f.candidates f.reserved

/-- R56, R57: in READY the read flag is set; in every state it is the unit read of REGISTRY. -/
def readSearchAns (s : State) : Ans :=
  let view := searchView s.fse
  let flag := s.fse.readFlag || s.fse.phase == .ready
  okWith (unitRead { s with fse := { s.fse with readFlag := flag } } .registry) (.search view)

/-- READ_SEARCH -/
def execReadSearch (s : State) : Host.Outcome State Fault Refusal := hostAnswer .readSearch (readSearchAns s)

/-! ## The walk -/

/-- WALK_STEP: the record at the cursor is judged and kept or passed, and the cursor advances (R51). Nothing where no
walk stands before its end (log 2). -/
def execWalkStep (s : State) : Host.Outcome State Fault Refusal :=
  match s.fse.phase, s.fse.request with
  | .scanning, some q =>
    if s.fse.cursor < Config.pieceRecords then
      let l := match judgeRecord s q s.fse.cursor with
        | some c => keepCandidate c s.fse.candidates
        | none => s.fse.candidates
      .next { s with fse := { s.fse with candidates := l, cursor := s.fse.cursor + 1 } }
    else .next s
  | _, _ => .next s

/-- The piece a FIT_RESERVE reserves: the first survivor (R54). -/
def reservedBy (q : SearchRequest) (l : List Candidate) : Option Handle :=
  match q.tag, l with
  | some _, c :: _ => some c.handle
  | _, _ => none

/-- The first survivor of a FIT_RESERVE receives the reservation (R54). -/
def reserveFirst (s : State) (q : SearchRequest) (l : List Candidate) : State :=
  match q.tag, l with
  | some tag, c :: _ => s.modPiece c.handle fun p => { p with reservation := some ⟨.host, tag⟩ }
  | _, _ => s

/-- The completion of a walk for request `q` (R53 to R55). -/
def completeSearch (s : State) (q : SearchRequest) : State :=
  let l := survivors s q s.fse.candidates
  let s := reserveFirst s q l
  let s := { s with fse := { s.fse with
      phase := .ready, outcome := some (if l.isEmpty then .none else .ok), readFlag := false, candidates := l,
      reserved := reservedBy q l } }
  raise s .registry .searchDone

/-- SEARCH_COMPLETION: the cursor has reached 2048 (R51, R53). Nothing where no walk stands at its end (log 2). -/
def execSearchCompletion (s : State) : Host.Outcome State Fault Refusal :=
  match s.fse.phase, s.fse.request with
  | .scanning, some q => if s.fse.cursor = Config.pieceRecords then .next (completeSearch s q) else .next s
  | _, _ => .next s

end Sys2Proof.Machine
end

