-- ==== Sys2Proof/Machine/Tables.lean ====
section
/-! DEFINITION. The meanings of the Table Controller's requests and of the burn station's ZONE_CLEARED (chapter 4). -/

namespace Sys2Proof.Machine

/-! ## Laying out a nest -/

/-- The fields of STAGE_NEST are in range (R66 step 1). -/
def stageRange (id : Nat) (parts : List PartArg) (decls : List DeclArg) : Bool :=
  inRange 1 Config.max32 id && inRange 1 64 parts.length && parts.all partOk && decls.length ≤ 2

/-- A part as staging writes it (R64). -/
def stagedPart (a : PartArg) : Part :=
  match a.text with
  | some t => ⟨some t, a.x, a.y, .pending, 0, .pending, 0, 0, 0⟩
  | none => ⟨none, 0, 0, .notRequired, 0, .pending, 0, 0, 0⟩

/-- The plate may be staged as far as its own record goes (R66 step 6). -/
def plateFree (id : Nat) (p : Piece) : Bool :=
  !p.hold && p.state != .inCut && (p.reservation == none || p.reservation == some ⟨.host, id⟩)

/-- An unfinished move to zone `z` names a piece other than `h` (R66 step 8). -/
def otherPieceBound (s : State) (z : Nat) (h : Handle) : Bool :=
  (List.range 3).any fun c => (s.queue c).any fun m => m.dest == some (.zone z) && m.piece != h

/-- The checks of the zone and of the plate (R66 steps 2 to 8): the refusal, or the plate. -/
def stageChecks (s : State) (z id : Nat) (plate : Handle) : Except Status Piece :=
  if !(s.bed z).configured then .error .badState
  else if (s.zone z).phase = .cutting || (s.zone z).phase = .cut then .error .badState
  else if (s.zone z).nest.isSome then .error .occupied
  else match checkHandle s plate with
    | .error e => .error e
    | .ok p =>
      if !plateFree id p then .error .badState
      else if (s.bed z).pieces.any (· ≠ plate) then .error .occupied
      else if otherPieceBound s z plate then .error .occupied
      else .ok p

/-- The nest STAGE_NEST writes (R67). -/
def stagedNest (id : Nat) (plate : Handle) (parts : List PartArg) (decls : List DeclArg) : Nest :=
  ⟨id, plate, .staged, parts.map stagedPart, decls.map fun d => ⟨d, none⟩⟩

/-- The nest is written and its plate reserved (R67). -/
def stageNest (s : State) (z : Nat) (n : Nest) : State :=
  (setNest s z (some n)).modPiece n.plate fun p => { p with reservation := some ⟨.nest, n.id⟩ }

/-- R66, R67 -/
def stageNestAns (z : ZoneArg) (id : Nat) (plate : Handle) (parts : List PartArg) (decls : List DeclArg) (s : State) :
    Ans :=
  match zoneArg? z with
  | none => refuse s .range
  | some k =>
    if !stageRange id parts decls then refuse s .range
    else match stageChecks s k id plate with
      | .error e => refuse s e
      | .ok p =>
        if !declsOk p decls then refuse s .range
        else
          let s := pendingStart (stageNest s k (stagedNest id plate parts decls)) (zoneTable k)
          okWith s (nestRecord s k)

/-- STAGE_NEST -/
def execStageNest (z : ZoneArg) (id : Nat) (plate : Handle) (parts : List PartArg) (decls : List DeclArg) (s : State) :
    Host.Outcome State Fault Refusal :=
  hostAnswer .stageNest (stageNestAns z id plate parts decls s)

/-- R68 -/
def withdrawNestAns (z : ZoneArg) (id : Nat) (s : State) : Ans :=
  match checkNest s z id with
  | .error e => refuse s e
  | .ok (k, n) =>
    if n.state ≠ .staged then refuse s .badState
    else
      let s := (setNest s k none).modPiece n.plate fun p => { p with reservation := none }
      let s := s.setTable (zoneTable k) { s.table (zoneTable k) with chain := false }
      okWith s (.table (tableView s (zoneTable k)))

/-- WITHDRAW_NEST -/
def execWithdrawNest (z : ZoneArg) (id : Nat) (s : State) : Host.Outcome State Fault Refusal :=
  hostAnswer .withdrawNest (withdrawNestAns z id s)

/-- The declarations as DECLARE_REMNANT would leave them: appended, replaced or removed; none where the index is out of
range for the change (R69 steps 3). -/
def declsAfter (ds : List Decl) (i : Nat) : Option DeclArg → Option (List Decl)
  | some d =>
    if ds.length < i then none
    else if i = ds.length then some (ds ++ [⟨d, none⟩])
    else some (ds.set i ⟨d, none⟩)
  | none => if ds.length ≤ i then none else some (ds.eraseIdx i)

/-- The changed declarations pass R65 against the nest's plate; a removal is not judged (R69 step 4). -/
def declsPass (s : State) (plate : Handle) (d : Option DeclArg) (ds : List Decl) : Bool :=
  d.isNone || (s.piece? plate).any fun p => declsOk p (ds.map (·.arg))

/-- R69 -/
def declareRemnantAns (z : ZoneArg) (id i : Nat) (d : Option DeclArg) (s : State) : Ans :=
  match checkNest s z id with
  | .error e => refuse s e
  | .ok (k, n) =>
    if 1 < i then refuse s .range
    else if n.state = .closed then refuse s .badState
    else match declsAfter n.decls i d with
      | none => refuse s .range
      | some ds =>
        if !declsPass s n.plate d ds then refuse s .range
        else
          let s := setNest s k (some { n with decls := ds })
          okWith s (nestRecord s k)

/-- DECLARE_REMNANT -/
def execDeclareRemnant (z : ZoneArg) (id i : Nat) (d : Option DeclArg) (s : State) :
    Host.Outcome State Fault Refusal :=
  hostAnswer .declareRemnant (declareRemnantAns z id i d s)

/-! ## Starting and ending -/

/-- R71 -/
def startNestAns (z : ZoneArg) (id : Nat) (s : State) : Ans :=
  if (zoneArg? z).isNone then refuse s .range
  else if s.ppn.mode = .cold then refuse s .wrongMode
  else match checkNest s z id with
    | .error e => refuse s e
    | .ok (k, n) =>
      if n.state ≠ .staged then refuse s .badState
      else if !startOk s k then refuse s .badState
      else
        let s := activate s k
        okWith s (nestRecord s k)

/-- START_NEST -/
def execStartNest (z : ZoneArg) (id : Nat) (s : State) : Host.Outcome State Fault Refusal :=
  hostAnswer .startNest (startNestAns z id s)

/-- R72 -/
def skipPartAns (z : ZoneArg) (id i : Nat) (s : State) : Ans :=
  match checkNest s z id with
  | .error e => refuse s e
  | .ok (k, n) =>
    match n.parts[i]? with
    | none => refuse s .range
    | some p =>
      if n.state ≠ .active then refuse s .badState
      else match p.burn with
        | .burning | .burnt => refuse s .badState
        | .skipped => okWith s (nestRecord s k)
        | .pending | .interrupted =>
          let s := closeIfFinal (skipOne s k i) k
          okWith s (nestRecord s k)

/-- SKIP_PART -/
def execSkipPart (z : ZoneArg) (id i : Nat) (s : State) : Host.Outcome State Fault Refusal :=
  hostAnswer .skipPart (skipPartAns z id i s)

/-- Every part still open is given up, as SKIP_PART gives one up (R73). -/
def skipAll (s : State) (z n : Nat) : State := (List.range n).foldl (fun s i => skipOne s z i) s

/-- R73 -/
def closeNestAns (z : ZoneArg) (id : Nat) (s : State) : Ans :=
  match checkNest s z id with
  | .error e => refuse s e
  | .ok (k, n) =>
    if n.state ≠ .active then refuse s .badState
    else if (s.burn (zoneTable k)).state = .granted then refuse s .badState
    else
      let s := closeNest (skipAll s k n.parts.length) k
      okWith s (nestRecord s k)

/-- CLOSE_NEST -/
def execCloseNest (z : ZoneArg) (id : Nat) (s : State) : Host.Outcome State Fault Refusal :=
  hostAnswer .closeNest (closeNestAns z id s)

/-- R77 -/
def setChainAns (t : Nat) (on : Bool) (s : State) : Ans :=
  if 6 ≤ t then refuse s .range
  else
    let s := s.setTable t { s.table t with chain := on }
    let s := if on then pendingStart s t else s
    okWith s (.table (tableView s t))

/-- SET_CHAIN -/
def execSetChain (t : Nat) (on : Bool) (s : State) : Host.Outcome State Fault Refusal :=
  hostAnswer .setChain (setChainAns t on s)

/-! ## Reading zones and tables -/

/-- The pieces of a bed in joining order (R81). -/
def bedEntries (s : State) (l : List Handle) : List BedEntry :=
  l.filterMap fun h => (s.piece? h).map fun p => ⟨h, p.key, p.kind, p.thickness, p.mass⟩

/-- The summary of a nest (R81). -/
def nestSummary (n : Nest) : NestSummary :=
  { id := n.id, plate := n.plate, state := n.state, parts := n.parts.length,
    burnt := n.parts.countP fun p => p.burn == .burnt, skipped := n.parts.countP fun p => p.burn == .skipped,
    notFinal := n.parts.countP fun p => !p.final }

/-- A zone as READ_ZONE gives it (R81). -/
def zoneView (s : State) (z : Nat) : ZoneView :=
  { phase := (s.zone z).phase, inbound := (s.zone z).inbound, geometry := geometryView s z,
    bed := bedEntries s (s.bed z).pieces, nest := (s.zone z).nest.map nestSummary }

/-- A zone as READ_TABLE gives it (R80). -/
def zoneNestView (s : State) (z : Nat) : ZoneNestView :=
  ⟨(s.zone z).phase, (s.zone z).inbound, (s.bed z).pieces, (s.zone z).nest⟩

/-- Everything READ_TABLE gives (R80); the stuck-arc timer is shown as running or not (log 41). -/
def fullTableView (s : State) (t : Nat) : FullTableView :=
  { table := tableView s t, zoneA := zoneNestView s (zoneOf t .a), zoneB := zoneNestView s (zoneOf t .b),
    marks := s.marks t, grant := (s.burn t).grant, ended := (s.burn t).ended, permissive := (s.burn t).permissive,
    monitor := (s.monitor t).state, stuck := (s.monitor t).stuck,
    torchState := (mountedTorch s t).map fun n => (s.torch n).state,
    wear := (mountedTorch s t).map fun n => (s.torch n).starts * (s.torch n).weight + (s.torch n).arcTime / 100 }

/-- R79. A bed code that is neither A nor B is RANGE (log 25). -/
def zoneClearedAns (z : ZoneArg) (s : State) : Ans :=
  if s.ppn.mode = .cold then refuse s .wrongMode
  else match zoneArg? z with
    | none => refuse s .range
    | some k =>
      match (s.zone k).phase with
      | .cut =>
        if (s.bed k).pieces.isEmpty then
          let s := s.setZone k { s.zone k with phase := .clear, nest := none }
          okWith s (.zone (zoneView s k))
        else ⟨s, .occupied, .zone (zoneView s k)⟩
      | .clear => okWith s (.zone (zoneView s k))
      | _ => ⟨s, .badState, .zone (zoneView s k)⟩

/-- ZONE_CLEARED -/
def execZoneCleared (z : ZoneArg) (s : State) : Host.Outcome State Fault Refusal :=
  stationRequest .zoneCleared (some z.table) (zoneClearedAns z) s

/-- R80 -/
def readTableAns (t : Nat) (s : State) : Ans :=
  if 6 ≤ t then refuse s .range else okWith (unitRead s (.table t)) (.fullTable (fullTableView s t))

/-- READ_TABLE -/
def execReadTable (t : Nat) (s : State) : Host.Outcome State Fault Refusal := hostAnswer .readTable (readTableAns t s)

/-- R81 -/
def readZoneAns (z : ZoneArg) (s : State) : Ans :=
  match zoneArg? z with
  | none => refuse s .range
  | some k => okWith s (.zone (zoneView s k))

/-- READ_ZONE -/
def execReadZone (sender : Sender) (z : ZoneArg) (s : State) : Host.Outcome State Fault Refusal :=
  sharedRequest sender .readZone (readZoneAns z) s

end Sys2Proof.Machine
end

