-- ==== Sys2Proof/Machine/Marking.lean ====
section
/-! DEFINITION. The meanings of the mark station's requests and of WAIVE_MARK (chapter 5). -/

namespace Sys2Proof.Machine

/-- The part NEXT_MARK selects: the first with mark PENDING and burn PENDING (R85). -/
def nextMarkPart (n : Nest) : Option Nat := n.parts.findIdx? fun p => p.mark == .pending && p.burn == .pending

/-- The mark of a part as an answer OK to NEXT_MARK carries it (R87). -/
def markView (s : State) (t : Nat) (r : PartRef) : ReplyRecord :=
  match (s.zone (zoneOf t r.bed)).nest with
  | none => .none
  | some n =>
    match n.parts[r.part]? with
    | none => .none
    | some p => .mark ⟨t, r, n.plate, p.text.getD [], p.x, p.y, p.markFailures⟩

/-- The counts an answer NONE carries (R87). -/
def markCounts (bed : Bed) (n : Nest) : MarkCounts :=
  { bed := bed, nest := n.id, pending := n.parts.countP fun p => p.mark == .pending,
    failed := n.parts.countP fun p => p.mark == .failed, satisfied := n.parts.countP fun p => p.mark.satisfied }

/-- The part named becomes the table's issued mark (R86 case 5). -/
def issueMark (s : State) (t : Nat) (r : PartRef) : State :=
  (modPart s (zoneOf t r.bed) r.part fun p => { p with mark := .issued }).setMarks t ⟨some r, none⟩

/-- A new mark chosen from the active nest (R86 cases 5 and 6). -/
def chooseMark (s : State) (t : Nat) (bed : Bed) : Ans :=
  match (s.zone (zoneOf t bed)).nest with
  | none => ⟨s, .none, .noMark t none⟩
  | some n =>
    match nextMarkPart n with
    | none => ⟨s, .none, .noMark t (some (markCounts bed n))⟩
    | some i =>
      let r : PartRef := ⟨bed, n.id, i⟩
      let s := issueMark s t r
      okWith s (markView s t r)

/-- R86 -/
def nextMarkAns (t : Nat) (s : State) : Ans :=
  match s.ppn.mode with
  | .cold => refuse s .wrongMode
  | .stopped => refuse s .stopped
  | .opened =>
    match (s.table t).active with
    | none => ⟨s, .none, .noMark t none⟩
    | some bed =>
      match (s.marks t).issued with
      | some r => okWith s (markView s t r)
      | none => chooseMark s t bed

/-- NEXT_MARK -/
def execNextMark (t : Nat) (s : State) : Host.Outcome State Fault Refusal :=
  stationRequest .nextMark (some t) (nextMarkAns t) s

/-- The reply of cases 4 to 7 of R88: the part's mark fields, and the table's issued mark and ended issue. -/
def markReportRecord (s : State) (z i : Nat) : ReplyRecord :=
  match part? s z i with
  | none => .none
  | some p => .markReport ⟨i, p.text, p.x, p.y, p.mark, p.markFailures⟩ (s.marks (zoneTable z))

/-- R89 -/
def takeMarkDone (s : State) (z : Nat) (r : PartRef) : State :=
  (modPart s z r.part fun p => { p with mark := .marked }).setMarks (zoneTable z) ⟨none, some (r, .done)⟩

/-- R90 -/
def takeMarkFailed (s : State) (z : Nat) (r : PartRef) : State :=
  let second := (part? s z r.part).any fun p => 1 ≤ p.markFailures
  let s := modPart s z r.part fun p =>
    { p with markFailures := satInc 2 p.markFailures, mark := if 1 ≤ p.markFailures then .failed else .pending }
  let s := s.setMarks (zoneTable z) ⟨none, some (r, .failed)⟩
  if second then raise s (.table (zoneTable z)) .markFailed else s

/-- The sorting of a mark report (R88): `ending` is the ending the report brings, `take` its action by case 4. -/
def markReportAns (z : ZoneArg) (id i : Nat) (ending : IssueEnd) (take : State → Nat → PartRef → State) (s : State) :
    Ans :=
  if s.ppn.mode = .cold then refuse s .wrongMode
  else match checkNest s z id with
    | .error e => refuse s e
    | .ok (k, n) =>
      match n.parts[i]? with
      | none => refuse s .range
      | some p =>
        let t := zoneTable k
        let r : PartRef := ⟨zoneBed k, id, i⟩
        if (s.marks t).issued = some r then
          let s := take s k r
          okWith s (markReportRecord s k i)
        else
          let asOther : Ans :=
            if ending = .done ∧ p.mark = .marked then okWith s (markReportRecord s k i)
            else ⟨s, .badState, markReportRecord s k i⟩
          match (s.marks t).ended with
          | none => asOther
          | some (q, e) =>
            if q ≠ r then asOther
            else if e = ending then okWith s (markReportRecord s k i)
            else if e = .withdrawn then
              let s := s.setMarks t ⟨(s.marks t).issued, none⟩
              ⟨s, .cancelled, markReportRecord s k i⟩
            else ⟨s, .badState, markReportRecord s k i⟩

/-- MARK_DONE (R88, R89) -/
def execMarkDone (z : ZoneArg) (id i : Nat) (s : State) : Host.Outcome State Fault Refusal :=
  stationRequest .markDone (some z.table) (markReportAns z id i .done takeMarkDone) s

/-- MARK_FAILED (R88, R90) -/
def execMarkFailed (z : ZoneArg) (id i : Nat) (s : State) : Host.Outcome State Fault Refusal :=
  stationRequest .markFailed (some z.table) (markReportAns z id i .failed takeMarkFailed) s

/-- The reply that shows a part as it stands (R92). -/
def partRecord (s : State) (z i : Nat) : ReplyRecord :=
  match part? s z i with
  | none => .none
  | some p => .part i p

/-- R92 -/
def waiveMarkAns (z : ZoneArg) (id i : Nat) (s : State) : Ans :=
  match checkNest s z id with
  | .error e => refuse s e
  | .ok (k, n) =>
    match n.parts[i]? with
    | none => refuse s .range
    | some p =>
      if n.state = .closed then refuse s .badState
      else match p.mark with
        | .waived => okWith s (partRecord s k i)
        | .pending | .failed =>
          let s := modPart s k i fun p => { p with mark := .waived }
          okWith s (partRecord s k i)
        | _ => refuse s .badState

/-- WAIVE_MARK -/
def execWaiveMark (z : ZoneArg) (id i : Nat) (s : State) : Host.Outcome State Fault Refusal :=
  hostAnswer .waiveMark (waiveMarkAns z id i s)

end Sys2Proof.Machine
end

