-- ==== Sys2Proof/Machine/Burning.lean ====
section
/-! DEFINITION. The meanings of the burn station's requests, of the arc events and of the torch requests (chapter 6). -/

namespace Sys2Proof.Machine

/-! ## NEXT_BURN -/

/-- The grant a table holds, as an answer OK to NEXT_BURN carries it (R99). -/
def grantRecord (s : State) (t : Nat) : ReplyRecord :=
  match (s.burn t).grant with
  | none => .burnRefused t
  | some g =>
    match (s.zone (g.ref.zone t)).nest with
    | none => .burnRefused t
    | some n =>
      match n.parts[g.ref.part]? with
      | none => .burnRefused t
      | some p =>
        .grant ⟨t, g.ref, n.plate, g.resumed, p.starts, p.arcTime,
          (mountedTorch s t).map fun k => (s.torch k).id, (mountedTorch s t).map fun k => (s.torch k).wear⟩

/-- The record of a refusal by the torch (R98). -/
def torchRefusal (s : State) (t : Nat) : ReplyRecord :=
  .burnTorch t ((mountedTorch s t).map fun k => ((s.torch k).id, (s.torch k).state, (s.torch k).wear))

/-- The grant is made and answered (R99). -/
def grantPart (s : State) (t : Nat) (r : PartRef) (resumed : Bool) : Ans :=
  let s := makeGrant s t r resumed
  okWith s (grantRecord s t)

/-- The part NEXT_BURN grants, once every check of R98 has passed (R99). -/
def chooseBurn (s : State) (t : Nat) (bed : Bed) : Ans :=
  match (s.zone (zoneOf t bed)).nest with
  | none => ⟨s, .none, .burnRefused t⟩
  | some n =>
    match n.parts.findIdx? fun p => p.burn == .interrupted with
    | some i => grantPart s t ⟨bed, n.id, i⟩ true
    | none =>
      match n.parts.findIdx? fun p => p.burn == .pending with
      | none => ⟨s, .none, .burnRefused t⟩
      | some i =>
        match n.parts[i]? with
        | none => ⟨s, .none, .burnRefused t⟩
        | some p =>
          if p.mark.satisfied then grantPart s t ⟨bed, n.id, i⟩ false
          else ⟨s, .waitMark, .burnWait t i p.mark⟩

/-- Cases 7 to 10 of R98, for a table whose active zone is `bed`. -/
def nextBurnActive (s : State) (t : Nat) (bed : Bed) : Ans :=
  match (mountedTorch s t).map fun k => (s.torch k).state with
  | none => ⟨s, .torchFault, torchRefusal s t⟩
  | some .fault => ⟨s, .torchFault, torchRefusal s t⟩
  | some .worn => ⟨s, .torchWorn, torchRefusal s t⟩
  | some _ =>
    if s.intruded (zoneOf t bed) then ⟨s, .zoneHeld, .burnHeld t s.rsu.latest.seq⟩ else chooseBurn s t bed

/-- R98 -/
def nextBurnAns (t : Nat) (s : State) : Ans :=
  if s.ppn.mode = .cold then ⟨s, .wrongMode, .burnRefused t⟩
  else if s.ppn.mode = .stopped then ⟨s, .stopped, .burnRefused t⟩
  else if (s.burn t).state = .granted then okWith s (grantRecord s t)
  else if (s.burn t).state = .fault then ⟨s, .tableFault, .burnRefused t⟩
  else if (s.monitor t).state ≠ .off then ⟨s, .busy, .burnRefused t⟩
  else match (s.table t).active with
    | none => ⟨s, .none, .burnRefused t⟩
    | some bed => nextBurnActive s t bed

/-- NEXT_BURN -/
def execNextBurn (t : Nat) (s : State) : Host.Outcome State Fault Refusal :=
  stationRequest .nextBurn (some t) (nextBurnAns t) s

/-! ## BURN_DONE and BURN_ABANDON -/

/-- The reply of cases 4 to 8 of R100. -/
def burnReportRecord (s : State) (z i : Nat) : ReplyRecord :=
  match (s.zone z).nest with
  | none => .none
  | some n =>
    match n.parts[i]? with
    | none => .none
    | some p =>
      let b := s.burn (zoneTable z)
      .burnReport ⟨i, p.burn, p.starts, p.arcTime, p.failedPierces, n.state, b.state, b.grant, b.ended⟩

/-- R101 -/
def takeBurnDone (s : State) (z : Nat) (g : Grant) : State :=
  let s := modPart s z g.ref.part fun p => { p with burn := .burnt }
  closeIfFinal (endGrant s (zoneTable z) g .done) z

/-- R102 -/
def takeBurnAbandon (s : State) (z : Nat) (g : Grant) : State :=
  let s := modPart s z g.ref.part fun p => { p with burn := .interrupted }
  endGrant s (zoneTable z) g .abandoned

/-- The answer of a report that meets the ended grant (R100 case 5): `done` tells a BURN_DONE. -/
def endedAnswer (done : Bool) : GrantEnd → Status
  | .done => if done then .ok else .badState
  | .abandoned => if done then .badState else .ok
  | .revoked _ => if done then .aborted else .ok

/-- The answer of a report that meets neither grant nor ended grant (R100 cases 6 to 8). -/
def partAnswer (done : Bool) (b : PartBurn) : Status :=
  if done && b == .burnt then .ok else if !done && b == .interrupted then .ok else .badState

/-- The sorting of a burn report (R100): `done` tells a BURN_DONE, `take` its action by case 4. -/
def burnReportAns (z : ZoneArg) (id i : Nat) (done : Bool) (take : State → Nat → Grant → State) (s : State) : Ans :=
  if s.ppn.mode = .cold then refuse s .wrongMode
  else match checkNest s z id with
    | .error e => refuse s e
    | .ok (k, n) =>
      match n.parts[i]? with
      | none => refuse s .range
      | some p =>
        let b := s.burn (zoneTable k)
        let r : PartRef := ⟨zoneBed k, id, i⟩
        match b.grant.filter fun g => g.ref = r with
        | some g =>
          let s := take s k g
          okWith s (burnReportRecord s k i)
        | none =>
          match b.ended.filter fun e => e.1 = r with
          | some e => ⟨s, endedAnswer done e.2, burnReportRecord s k i⟩
          | none => ⟨s, partAnswer done p.burn, burnReportRecord s k i⟩

/-- BURN_DONE (R100, R101) -/
def execBurnDone (z : ZoneArg) (id i : Nat) (s : State) : Host.Outcome State Fault Refusal :=
  stationRequest .burnDone (some z.table) (burnReportAns z id i true takeBurnDone) s

/-- BURN_ABANDON (R100, R102) -/
def execBurnAbandon (z : ZoneArg) (id i : Nat) (s : State) : Host.Outcome State Fault Refusal :=
  stationRequest .burnAbandon (some z.table) (burnReportAns z id i false takeBurnAbandon) s

/-! ## The arc monitor -/

/-- An arc-on edge under the grant `g` (R108). -/
def arcOnGranted (s : State) (t : Nat) (g : Grant) : State :=
  let s := modMounted s t fun v => { v with starts := satInc Config.max16 v.starts }
  let s := modPart s (g.ref.zone t) g.ref.part fun p => { p with starts := satInc Config.max16 p.starts }
  s.setMonitor t { s.monitor t with state := .piercing, units := 0 }

/-- An ungranted arc (R108). -/
def arcOnUngranted (s : State) (t : Nat) : State :=
  let s := s.setBurn t { s.burn t with state := .fault }
  let s := s.setMonitor t { s.monitor t with state := .cutting, units := 0 }
  raise s (.table t) .ungrantedArc

/-- ARC_ON_EDGE (R108). An edge comes only with the arc off (log 2). -/
def execArcOnEdge (t : Nat) (s : State) : Host.Outcome State Fault Refusal :=
  if 6 ≤ t || (s.monitor t).state ≠ .off then .next s
  else match (s.burn t).grant with
    | some g => .next (arcOnGranted s t g)
    | none => .next (arcOnUngranted s t)

/-- The 0.1 s units an arc that was on for `onMs` still adds at its end (R110; log 19). -/
def unitsDue (m : Monitor) (onMs : Nat) : Nat := (m.carry + onMs) / 100 - m.units

/-- The end of an arc: its units, the remainder carried, a failed pierce under a grant, and the wear check (R108 to R111,
R116). -/
def arcOff (s : State) (t onMs : Nat) : State :=
  let m := s.monitor t
  let s := addArcUnits s t (unitsDue m onMs)
  let s := s.setMonitor t ⟨.off, false, (m.carry + onMs) % 100, 0⟩
  let s := match (s.burn t).grant with
    | some g => if m.state = .piercing then failedPierce s t g else s
    | none => s
  wearCheck s t

/-- ARC_OFF_EDGE. An edge comes only with the arc on (log 2). -/
def execArcOffEdge (t onMs : Nat) (s : State) : Host.Outcome State Fault Refusal :=
  if 6 ≤ t || (s.monitor t).state = .off then .next s else .next (arcOff s t onMs)

/-- PIERCE_TIME_REACHED: the pierce has succeeded (R109). -/
def execPierceTimeReached (t : Nat) (s : State) : Host.Outcome State Fault Refusal :=
  if 6 ≤ t || (s.monitor t).state ≠ .piercing || (s.burn t).grant.isNone then .next s
  else
    let s := s.setMonitor t { s.monitor t with state := .cutting }
    .next (modMounted s t fun v => { v with failed := 0 })

/-- ARC_TIME_UNIT: a further full 100 ms of arc (R110). -/
def execArcTimeUnit (t : Nat) (s : State) : Host.Outcome State Fault Refusal :=
  if 6 ≤ t || (s.monitor t).state = .off then .next s
  else
    let s := addArcUnits s t 1
    .next (s.setMonitor t { s.monitor t with units := (s.monitor t).units + 1 })

/-- The grant arc time has reached ten times the burn limit held in the grant (R110). -/
def overtime (s : State) (t : Nat) : Bool := (s.burn t).grant.any fun g => 10 * g.burnLimit ≤ g.arcTime

/-- BURN_OVERTIME (R103, R110) -/
def execBurnOvertime (t : Nat) (s : State) : Host.Outcome State Fault Refusal :=
  if 6 ≤ t || !overtime s t then .next s else .next (revoke s t .overtime)

/-- STUCK_ARC_TIMER_EXPIRY: the timer runs out with the arc still on (R111). No grant is held while it runs (R98). -/
def execStuckArcTimerExpiry (t : Nat) (s : State) : Host.Outcome State Fault Refusal :=
  if 6 ≤ t || !(s.monitor t).stuck || (s.monitor t).state = .off || (s.burn t).grant.isSome then .next s
  else
    let s := s.setBurn t { s.burn t with state := .fault }
    let s := s.setMonitor t { s.monitor t with stuck := false }
    .next (raise s (.table t) .arcStuck)

/-- R113 -/
def clearTableFaultAns (t : Nat) (s : State) : Ans :=
  if 6 ≤ t then refuse s .range
  else if (s.monitor t).state ≠ .off then ⟨s, .badState, .tableBurn (s.burn t).state (s.monitor t).state⟩
  else
    let s := if (s.burn t).state = .fault then s.setBurn t { s.burn t with state := .idle } else s
    okWith s (.tableBurn (s.burn t).state (s.monitor t).state)

/-- CLEAR_TABLE_FAULT -/
def execClearTableFault (t : Nat) (s : State) : Host.Outcome State Fault Refusal :=
  hostAnswer .clearTableFault (clearTableFaultAns t s)

/-- R114. With neither value given the values in force stand and are answered (log 53). -/
def setBurnTimesAns (pierce limit : Option Nat) (s : State) : Ans :=
  let s := { s with bsv := { s.bsv with
    pierceMin := (pierce.map (clamp 50 2000)).getD s.bsv.pierceMin,
    burnLimit := (limit.map (clamp 10 3600)).getD s.bsv.burnLimit } }
  okWith s (.burnTimes s.bsv.pierceMin s.bsv.burnLimit)

/-- SET_BURN_TIMES -/
def execSetBurnTimes (pierce limit : Option Nat) (s : State) : Host.Outcome State Fault Refusal :=
  hostAnswer .setBurnTimes (setBurnTimesAns pierce limit s)

/-! ## Torches -/

/-- A torch record with its wear points (R117, R119). -/
def torchView (s : State) (n : Nat) : TorchView := ⟨n, s.torch n, (s.torch n).wear⟩

/-- The state of a torch as it is mounted (R117). -/
def TorchState.mount : TorchState → TorchState
  | .spare => .inService
  | x => x

/-- The state of a torch as it is unmounted (R118). -/
def TorchState.unmount : TorchState → TorchState
  | .inService => .spare
  | x => x

/-- The torch is mounted, and the monitor's carried remainder is 0 (R117). -/
def mountTorch (s : State) (t n : Nat) : State :=
  let s := s.setTorch n { s.torch n with mounted := some t, state := (s.torch n).state.mount }
  s.setMonitor t { s.monitor t with carry := 0 }

/-- R117 -/
def mountTorchAns (t id : Nat) (s : State) : Ans :=
  if 6 ≤ t then refuse s .range
  else match torchOfId s id with
    | none => refuse s .notFound
    | some n =>
      if (s.torch n).mounted = some t then okWith s (.torch (torchView s n))
      else if (s.burn t).state = .granted then refuse s .badState
      else if (s.monitor t).state ≠ .off then refuse s .badState
      else if (mountedTorch s t).isSome then refuse s .occupied
      else if (s.torch n).mounted.isSome then refuse s .badState
      else
        let s := mountTorch s t n
        okWith s (.torch (torchView s n))

/-- MOUNT_TORCH -/
def execMountTorch (t id : Nat) (s : State) : Host.Outcome State Fault Refusal :=
  hostAnswer .mountTorch (mountTorchAns t id s)

/-- R118. Without a torch the OK carries no record (log 43). -/
def unmountTorchAns (t : Nat) (s : State) : Ans :=
  if 6 ≤ t then refuse s .range
  else match mountedTorch s t with
    | none => okWith s .none
    | some n =>
      if (s.burn t).state = .granted then refuse s .badState
      else if (s.monitor t).state ≠ .off then refuse s .badState
      else
        let s := s.setTorch n { s.torch n with mounted := none, state := (s.torch n).state.unmount }
        okWith s (.torchOnly n (s.torch n))

/-- UNMOUNT_TORCH -/
def execUnmountTorch (t : Nat) (s : State) : Host.Outcome State Fault Refusal :=
  hostAnswer .unmountTorch (unmountTorchAns t s)

/-- The fields of SET_TORCH are in range (R119 step 1). -/
def torchRange (a : TorchArg) : Bool :=
  a.number < 12 && optFits (inRange 1 Config.max16) a.id && optFits (inRange 1 Config.max16) a.limit &&
    optFits (inRange 1 255) a.weight

/-- Another record holds the id (R119 step 2). -/
def idTaken (s : State) (a : TorchArg) : Bool :=
  a.id.any fun id => (List.range 12).any fun n => n != a.number && (s.torch n).id == id

/-- The check of SET_TORCH after its fields are written (R119). -/
def setTorchCheck (s : State) (n : Nat) : State :=
  let v := s.torch n
  let quiet := match v.mounted with
    | none => true
    | some t => (s.monitor t).state == .off
  if (v.state == .spare || v.state == .inService) && quiet && v.limit ≤ v.wear then
    let s := s.setTorch n { v with state := .worn }
    match v.mounted with
    | some t => raise s (.table t) .torchWorn
    | none => s
  else s

/-- R119. A 0 comes as a command alone: a frame cannot spell it (log 42). -/
def setTorchAns (a : TorchArg) (s : State) : Ans :=
  if !torchRange a then refuse s .range
  else if idTaken s a then refuse s .occupied
  else if a.weight.any (· ≠ (s.torch a.number).weight) && 0 < (s.torch a.number).starts then refuse s .badState
  else
    let v := s.torch a.number
    let s := s.setTorch a.number
      { v with id := a.id.getD v.id, limit := a.limit.getD v.limit, weight := a.weight.getD v.weight }
    let s := setTorchCheck s a.number
    okWith s (.torch (torchView s a.number))

/-- SET_TORCH -/
def execSetTorch (a : TorchArg) (s : State) : Host.Outcome State Fault Refusal := hostAnswer .setTorch (setTorchAns a s)

/-- R120 -/
def resetTorchAns (id : Nat) (s : State) : Ans :=
  match torchOfId s id with
  | none => refuse s .notFound
  | some n =>
    let v := s.torch n
    if v.mounted.any fun t => (s.burn t).state = .granted then refuse s .badState
    else if v.mounted.any fun t => (s.monitor t).state ≠ .off then refuse s .badState
    else
      let s := s.setTorch n { v with
        starts := 0, arcTime := 0, failed := 0, state := if v.mounted.isSome then .inService else .spare }
      okWith s (.torchOnly n (s.torch n))

/-- RESET_TORCH -/
def execResetTorch (id : Nat) (s : State) : Host.Outcome State Fault Refusal :=
  hostAnswer .resetTorch (resetTorchAns id s)

/-- R121 -/
def readTorchAns (id : Nat) (s : State) : Ans :=
  match torchOfId s id with
  | none => refuse s .notFound
  | some n =>
    let v := s.torch n
    okWith s (.fullTorch (torchView s n) (v.limit - v.wear)
      (v.mounted.map fun t => ((s.burn t).state, (s.monitor t).state)))

/-- READ_TORCH -/
def execReadTorch (id : Nat) (s : State) : Host.Outcome State Fault Refusal := hostAnswer .readTorch (readTorchAns id s)

end Sys2Proof.Machine
end

