-- ==== Sys2Proof/Machine/Sensing.lean ====
section
/-! DEFINITION. The meanings of the Runway Sensor Unit's events and requests (chapter 7). -/

namespace Sys2Proof.Machine

/-! ## Ticks and reads -/

/-- SAMPLE_TICK: a tick that finds a sample collecting is missed; otherwise a new sample starts (R131). -/
def execSampleTick (lines : BitVec 6) (s : State) : Host.Outcome State Fault Refusal :=
  match s.rsu.collecting with
  | some cl =>
    .next { s with rsu := { s.rsu with
      missedTicks := satInc Config.max16 s.rsu.missedTicks, collecting := some { cl with missed := cl.missed + 1 } } }
  | none => .next (startSample s lines)

/-- The phase of the read in flight of a channel. -/
def flightPhase (s : State) (c : Nat) : Option FlightPhase := (s.channel c).flight.map (·.phase)

/-- SSI_DATA_READY: a waiting read goes to CLOCKING (R126). -/
def execSsiDataReady (c : Nat) (s : State) : Host.Outcome State Fault Refusal :=
  if 6 ≤ c || flightPhase s c ≠ some .waiting then .next s
  else .next (s.setChannel c { s.channel c with flight := (s.channel c).flight.map fun f => { f with phase := .clocking } })

/-- READY_WAIT_EXPIRY: the wait runs out with the line low, and the read ends NO_DATA (R126). -/
def execReadyWaitExpiry (c : Nat) (s : State) : Host.Outcome State Fault Refusal :=
  if 6 ≤ c || flightPhase s c ≠ some .waiting then .next s else .next (endRead s c (.failed .noData))

/-- The end of a read clocked under the settings `f`, with the bits taken and the level at the end check: a high line is
NO_DATA, a low one lets the frame be judged (R125, R126). -/
def endMaster (s : State) (c : Nat) (f : FrameSettings) (bits : List Bool) (high : Bool) : State :=
  if high then endRead s c (.failed .noData)
  else
    let s := s.setChannel c { s.channel c with lastStatus := statusOf f bits }
    match judgeFrame f bits with
    | .error e => endRead s c (.failed e.toRead)
    | .ok n => endRead (s.setChannel c { s.channel c with lastRaw := n }) c (.raw n)

/-- MASTER_READ_END. The read is judged by the settings it was launched with (R126); its bits are the `n` least
significant ones of `bits`, `n` being the expected bit count (log 18). -/
def execMasterReadEnd (c bits : Nat) (high : Bool) (s : State) : Host.Outcome State Fault Refusal :=
  if 6 ≤ c then .next s
  else match (s.channel c).flight with
    | some ⟨.clocking, f, _⟩ => .next (endMaster s c f (bitsOf bits f.bits) high)
    | _ => .next s

/-- A LISTEN frame that has ended with `bits`, on the channel `ch` (R127). -/
def listenFrame (ch : Channel) (bits : List Bool) : Channel :=
  let n := ch.settings.bits
  if bits.length < n then { ch with lastLength := .less, lastFrame := some .bitCount }
  else if n < bits.length then { ch with lastLength := .more, lastFrame := some .bitCount }
  else
    let ch := { ch with lastLength := .exact, lastStatus := statusOf ch.settings bits }
    match judgeFrame ch.settings bits with
    | .error e => { ch with lastFrame := some e }
    | .ok r => { ch with lastFrame := some .passed, lastRaw := r, held := some r }

/-- LISTEN_FRAME_END (R127). Only a LISTEN channel receives frames. -/
def execListenFrameEnd (c : Nat) (bits : List Bool) (period : Option Nat) (s : State) :
    Host.Outcome State Fault Refusal :=
  if 6 ≤ c || (s.channel c).mode ≠ .listen then .next s
  else
    let ch := s.channel c
    .next (s.setChannel c (listenFrame { ch with period := period.getD ch.period } bits))

/-! ## Hoists -/

/-- Where the levels of A and B stand in the order 00, 10, 11, 01, in which A leads B (R129). -/
def quadrant : Bool → Bool → Nat
  | false, false => 0
  | true, false => 1
  | true, true => 2
  | false, true => 3

/-- An illegal transition: a homed axis ceases to be homed (R129). -/
def unhome (s : State) (c : Nat) : State :=
  let v := s.hoist c
  if v.homed then
    let s := s.setHoist c { v with homed := false }
    let s := s.setAxis (3 * c + 2) { s.axis (3 * c + 2) with validity := .unhomed }
    raise s (.crane c) .hoistUnhomed
  else s

/-- The count moves by one, wrapping (R129). -/
def countBy (s : State) (c : Nat) (d : BitVec 32) : State :=
  s.setHoist c { s.hoist c with count := (s.hoist c).count + d }

/-- QUADRATURE_TRANSITION (R129) -/
def execQuadratureTransition (c : Nat) (a b a' b' : Bool) (s : State) : Host.Outcome State Fault Refusal :=
  if 3 ≤ c || (a == a' && b == b') then .next s
  else if a ≠ a' ∧ b ≠ b' then .next (unhome s c)
  else if quadrant a' b' = (quadrant a b + 1) % 4 then .next (countBy s c 1)
  else .next (countBy s c (-1))

/-- An index pulse at the upper limit of an armed pass: the axis is homed (R130), and an UNHOMED axis has the validity of
its age from then on (R124, log 12). -/
def homed (s : State) (c : Nat) : State :=
  let v := s.hoist c
  let k := 3 * c + 2
  let s := s.setHoist c { v with count := v.home, homed := true, armed := false, fresh := true }
  let s := s.setAxis k { s.axis k with validity := validityAtHoming s.clu.runway.staleLimit (s.axis k) }
  raise s (.crane c) .hoistHomed

/-- INDEX_PULSE (R130) -/
def execIndexPulse (c : Nat) (upper : Bool) (s : State) : Host.Outcome State Fault Refusal :=
  if 3 ≤ c || !(s.hoist c).armed || !upper then .next s else .next (homed s c)

/-- R130 -/
def homeHoistAns (c : Nat) (s : State) : Ans :=
  if 3 ≤ c then refuse s .range
  else
    let s := s.setHoist c { s.hoist c with armed := true }
    okWith s (.hoist (s.hoist c))

/-- HOME_HOIST -/
def execHomeHoist (c : Nat) (s : State) : Host.Outcome State Fault Refusal := hostAnswer .homeHoist (homeHoistAns c s)

/-! ## Settings of an axis -/

/-- A channel field is given (R137). -/
def channelFields (a : AxisArg) : Bool :=
  a.mode.isSome || a.dataBits.isSome || a.statusBits.isSome || a.parity.isSome || a.code.isSome || a.clock.isSome

/-- A signed 32-bit value. -/
def inInt32 (i : Int) : Bool := -2147483648 ≤ i && i ≤ 2147483647

/-- The magnitude of a scale is in range (R124, R137). -/
def scaleOk (i : Int) : Bool := inRange 16 1048576 i.natAbs

/-- The fields of SET_AXIS are in range (R137). -/
def axisRange (crane letter : Nat) (a : AxisArg) : Bool :=
  crane < 3 && letter < 3 && (if letter = 2 then !channelFields a else a.home.isNone) &&
    optFits (fun n => (modeOf n).isSome) a.mode && optFits (inRange 10 31) a.dataBits &&
    optFits (inRange 0 4) a.statusBits && optFits (fun n => (parityOf n).isSome) a.parity &&
    optFits (fun n => (codeOf n).isSome) a.code && optFits (fun n => [100, 200, 400, 800, 1500].contains n) a.clock &&
    optFits scaleOk a.scale && optFits inInt32 a.offset && a.scale.isSome == a.offset.isSome

/-- The channel with the fields given written, the counts 0 and the held frame absent (R137). -/
def writeChannel (ch : Channel) (a : AxisArg) : Channel :=
  { ch with
    mode := (a.mode.bind modeOf).getD ch.mode,
    settings :=
      { dataBits := a.dataBits.getD ch.settings.dataBits, statusBits := a.statusBits.getD ch.settings.statusBits,
        parity := (a.parity.bind parityOf).getD ch.settings.parity, code := (a.code.bind codeOf).getD ch.settings.code,
        clock := a.clock.getD ch.settings.clock },
    good := 0, failed := 0, held := none }

/-- An axis as READ_SAMPLE gives it: its place in the latest completed sample, scale and offset, and the fields of its
channel or hoist (R137, R139). -/
def axisView (s : State) (crane letter : Nat) : AxisView :=
  let a := s.axis (3 * crane + letter)
  let m := s.sampled crane
  match letter with
  | 0 => ⟨m.x, a.scale, a.offset, .x m.dx m.goodX (s.channel (2 * crane))⟩
  | 1 => ⟨m.y, a.scale, a.offset, .y m.dy (s.channel (2 * crane + 1))⟩
  | _ => ⟨m.h, a.scale, a.offset, .h m.latch (s.hoist crane)⟩

/-- The source of an axis takes its fields: the channel of X or Y where channel fields were given; the hoist of H is
disarmed and takes a new home count (R137). -/
def writeSource (s : State) (crane letter : Nat) (a : AxisArg) : State :=
  if letter = 2 then
    s.setHoist crane { s.hoist crane with armed := false, home := a.home.getD (s.hoist crane).home }
  else if channelFields a then s.setChannel (2 * crane + letter) (writeChannel (s.channel (2 * crane + letter)) a)
  else s

/-- Scale and offset written (R137, R138). -/
def writeConversion (s : State) (k : Nat) (scale offset : Int) : State :=
  s.setAxis k { s.axis k with scale := scale, offset := offset }

/-- R137; the mode is checked before the ranges, an order that the rule does not give (log 64). -/
def setAxisAns (crane letter : Nat) (a : AxisArg) (s : State) : Ans :=
  if s.ppn.mode ≠ .cold then refuse s .wrongMode
  else if !axisRange crane letter a then refuse s .range
  else
    let s := writeSource s crane letter a
    let k := 3 * crane + letter
    let s := writeConversion s k (a.scale.getD (s.axis k).scale) (a.offset.getD (s.axis k).offset)
    okWith s (.axis (axisView s crane letter))

/-- SET_AXIS -/
def execSetAxis (crane letter : Nat) (a : AxisArg) (s : State) : Host.Outcome State Fault Refusal :=
  hostAnswer .setAxis (setAxisAns crane letter a s)

/-- The greatest position of an axis in mm (R138 step 2). -/
def axisTop (r : Runway) (letter : Nat) : Nat :=
  match letter with
  | 0 => r.length
  | 1 => r.span
  | _ => 40000

/-- A raw value the axis can give (R138 step 3). -/
def rawOk (s : State) (crane letter : Nat) (raw : Int) : Bool :=
  if letter = 2 then inInt32 raw
  else 0 ≤ raw && raw < (2 ^ (s.channel (2 * crane + letter)).settings.dataBits : Nat)

/-- The scale of two survey points (R138). -/
def surveyScale (a : SurveyArg) : Int := roundDiv ((a.mm2 - a.mm1) * 65536) (a.raw2 - a.raw1)

/-- The offset of two survey points (R138). -/
def surveyOffset (a : SurveyArg) : Int := a.raw1 - roundDiv (a.mm1 * 65536) (surveyScale a)

/-- The survey points pass the checks of R138. -/
def surveyOk (s : State) (crane letter : Nat) (a : SurveyArg) : Bool :=
  crane < 3 && letter < 3 &&
    (0 ≤ a.mm1 && a.mm1 ≤ axisTop s.clu.runway letter && 0 ≤ a.mm2 && a.mm2 ≤ axisTop s.clu.runway letter) &&
    (rawOk s crane letter a.raw1 && rawOk s crane letter a.raw2) && a.raw1 != a.raw2 && scaleOk (surveyScale a) &&
    inInt32 (surveyOffset a)

/-- R138; the mode is checked before the ranges, an order that the rule does not give (log 64). -/
def calibrateAxisAns (crane letter : Nat) (a : SurveyArg) (s : State) : Ans :=
  if s.ppn.mode ≠ .cold then refuse s .wrongMode
  else if !surveyOk s crane letter a then refuse s .range
  else
    let s := writeConversion s (3 * crane + letter) (surveyScale a) (surveyOffset a)
    okWith s (.calibration (surveyScale a) (surveyOffset a) (convert a.raw1 (surveyOffset a) (surveyScale a))
      (convert a.raw2 (surveyOffset a) (surveyScale a)))

/-- CALIBRATE_AXIS -/
def execCalibrateAxis (crane letter : Nat) (a : SurveyArg) (s : State) : Host.Outcome State Fault Refusal :=
  hostAnswer .calibrateAxis (calibrateAxisAns crane letter a s)

/-! ## READ_SAMPLE -/

/-- Everything READ_SAMPLE gives (R139); the axes crane by crane, each X, Y, H (log 57). -/
def sampleView (s : State) : SampleView :=
  { sample := s.rsu.latest, axes := (List.range 9).map fun k => ((s.axis k).scale, (s.axis k).offset),
    channels := (List.range 6).map s.channel, hoists := (List.range 3).map s.hoist, period := s.clu.runway.period,
    staleLimit := s.clu.runway.staleLimit }

/-- READ_SAMPLE: the unit read of HALL (R139). -/
def execReadSample (s : State) : Host.Outcome State Fault Refusal :=
  hostAnswer .readSample (okWith (unitRead s .hall) (.sample (sampleView s)))

end Sys2Proof.Machine
end

