-- ==== Sys2Proof/Machine/Clearance.lean ====
section
/-! DEFINITION. The meanings of the Clearance Unit's requests (chapter 8). -/

namespace Sys2Proof.Machine

/-- The X validity of a crane in the latest completed sample. -/
def xValidity (s : State) (c : Nat) : Validity := (s.sampled c).x.validity

/-- What the reply to CLEAR_ORDER_FAULT carries (R146). -/
def pairRecord (s : State) (c : Nat) : ReplyRecord :=
  .pair (s.pair c).gap (xValidity s c) (xValidity s (c + 1)) (s.pair c).orderFault

/-- R146 -/
def clearOrderFaultAns (c : Nat) (s : State) : Ans :=
  if 2 ≤ c then refuse s .range
  else if !(s.pair c).orderFault then okWith s (pairRecord s c)
  else if !((xValidity s c).placed && (xValidity s (c + 1)).placed) then ⟨s, .badState, pairRecord s c⟩
  else if (s.pair c).gap.any (· < 0) then ⟨s, .badState, pairRecord s c⟩
  else
    let s := s.setPair c { s.pair c with orderFault := false }
    okWith s (pairRecord s c)

/-- CLEAR_ORDER_FAULT -/
def execClearOrderFault (c : Nat) (s : State) : Host.Outcome State Fault Refusal :=
  hostAnswer .clearOrderFault (clearOrderFaultAns c s)

/-- The fields of SET_CRANE are in range (R154 step 1). -/
def craneRange (c : Nat) (a : CraneArg) : Bool :=
  c < 3 && optFits (inRange 0 100000) a.capacity && optFits (inRange 0 30000) a.west &&
    optFits (inRange 0 30000) a.east

/-- A capacity is below the mass on the crane's hook, or below that of a piece one of its moves names (R154 step 3). -/
def tooLight (s : State) (c capacity : Nat) : Bool :=
  (s.hook c).any (fun h => capacity < massOf s h) || (s.queue c).any fun m => capacity < massOf s m.piece

/-- R154. The extents written come into force at the next sample completion. -/
def setCraneAns (c : Nat) (a : CraneArg) (s : State) : Ans :=
  if !craneRange c a then refuse s .range
  else if s.ppn.mode ≠ .cold then refuse s .wrongMode
  else if a.capacity.any (tooLight s c) then refuse s .overweight
  else
    let v := s.crane c
    let v := { v with
      capacity := a.capacity.getD v.capacity, west := a.west.getD v.west, east := a.east.getD v.east }
    okWith (s.setCrane c v) (.crane v.capacity v.west v.east)

/-- SET_CRANE -/
def execSetCrane (c : Nat) (a : CraneArg) (s : State) : Host.Outcome State Fault Refusal :=
  hostAnswer .setCrane (setCraneAns c a s)

/-- A setting given, clamped to its range, or the value it had (R155). -/
def settle (given : Option Nat) (lo hi kept : Nat) : Nat := (given.map (clamp lo hi)).getD kept

/-- The settings SET_RUNWAY accepts over the settings `r` (R155). -/
def acceptRunway (a : RunwayArg) (r : Runway) : Runway :=
  { length := settle a.length 10000 400000 r.length, span := settle a.span 5000 60000 r.span,
    separation := settle a.separation 1000 50000 r.separation, lookAhead := settle a.lookAhead 0 8000 r.lookAhead,
    hysteresis := settle a.hysteresis 0 2000 r.hysteresis, overfly := settle a.overfly 1000 40000 r.overfly,
    margin := settle a.margin 0 10000 r.margin, reach := settle a.reach 0 400000 r.reach,
    tolerance := settle a.tolerance 50 2000 r.tolerance, period := settle a.period 5 100 r.period,
    staleLimit := settle a.staleLimit 2 10 r.staleLimit }

/-- The settings a SET_RUNWAY starts from: those accepted and waiting, else those in force (log 10). -/
def runwayBase (s : State) : Runway := s.clu.runwayNext.getD s.clu.runway

/-- R155: the settings accepted wait for the next sample completion. -/
def setRunwayAns (a : RunwayArg) (s : State) : Ans :=
  let r := acceptRunway a (runwayBase s)
  okWith { s with clu := { s.clu with runwayNext := some r } } (.runway r)

/-- SET_RUNWAY -/
def execSetRunway (a : RunwayArg) (s : State) : Host.Outcome State Fault Refusal :=
  hostAnswer .setRunway (setRunwayAns a s)

end Sys2Proof.Machine
end

