-- ==== Sys2Proof/Machine/Moves.lean ====
section
/-! DEFINITION. The meanings of the Move Controller's requests and of the crane station's reports (chapter 9). -/

namespace Sys2Proof.Machine

/-! ## QUEUE_MOVE -/

/-- A piece lies where no move may name it: in the cut, on a hook, or on a zone that is neither LOADED nor CUT (R160
step 4). -/
def unmovable (s : State) (p : Piece) : Bool :=
  match p.state with
  | .inCut | .inTransit => true
  | .onTable =>
    match p.place with
    | .zone z => (s.zone z).phase != .loaded && (s.zone z).phase != .cut
    | _ => false
  | _ => false

/-- The destination takes no moves: a slot not enabled, a zone not configured (R160 step 6, R168 step 4). -/
def destClosed (s : State) : Dest → Bool
  | .slot n => !(s.slot n).enabled
  | .zone z => !(s.bed z).configured

/-- The destination zone is promised to another piece (R160 step 8, R168 step 5). -/
def destPromised (s : State) (id : Nat) (h : Handle) : Dest → Bool
  | .slot _ => false
  | .zone z => zoneNamed s z id || stagedForOther s z h

/-- The new move joins the tail of the queue, and the piece names it (R160). -/
def queueMove (s : State) (c : Nat) (h : Handle) (d : Dest) : State :=
  let id := drawMoveId s
  let s := idAssigned (s.setQueue c (s.queue c ++ [⟨id, h, some d, .queued⟩])) id
  s.modPiece h fun p => { p with move := some id }

/-- R160. No move has id 0, so every move counts as another one in step 8. -/
def queueMoveAns (c : Nat) (h : Handle) (dest : LocArg) (s : State) : Ans :=
  match destArg? dest with
  | none => refuse s .range
  | some d =>
    if 3 ≤ c then refuse s .range
    else if Config.queueRoom ≤ (s.queue c).length then refuse s .queueFull
    else match checkHandle s h with
      | .error e => refuse s e
      | .ok p =>
        if unmovable s p then refuse s .badState
        else if p.move.isSome then refuse s .badState
        else if destClosed s d || p.place = d.place then refuse s .badState
        else if (s.crane c).capacity < p.mass then refuse s .overweight
        else if destPromised s 0 h d then refuse s .occupied
        else okWith (queueMove s c h d) (.queued c ⟨drawMoveId s, h, some d, .queued⟩ (s.queue c).length)

/-- QUEUE_MOVE -/
def execQueueMove (c : Nat) (h : Handle) (dest : LocArg) (s : State) : Host.Outcome State Fault Refusal :=
  hostAnswer .queueMove (queueMoveAns c h dest s)

/-! ## TAKE_MOVE -/

/-- The head `m` of the queue is taken (R162). -/
def takeHead (s : State) (c : Nat) (m : Move) (p : Piece) : State :=
  let s := (modMove s c m.id fun m => { m with state := .taken }).setEndedMove c none
  let s := lockSource s p.place
  match m.dest with
  | some d => reserveDest s m.id p.thickness d
  | none => s

/-- The head of a crane's queue: its first QUEUED move (R158). -/
def headMove (s : State) (c : Nat) : Option Move := (s.queue c).find? fun m => m.state == .queued

/-- Cases 4 to 7 of R161, for a crane without a current move. -/
def takeNext (c : Nat) (s : State) : Ans :=
  if s.ppn.mode = .stopped then refuse s .stopped
  else match headMove s c with
    | none => refuse s .none
    | some m =>
      match s.piece? m.piece with
      | none => refuse s .none
      | some p =>
        match headBlocked s m p with
        | some (e, k) => ⟨s, e, .blocked m.id m.piece k⟩
        | none =>
          let s := takeHead s c m p
          okWith s (takeView s c { m with state := .taken })

/-- R161. A CANCELLED answer carries the ended move, its told flag set (log 56). -/
def takeMoveAns (c : Nat) (s : State) : Ans :=
  if s.ppn.mode = .cold then refuse s .wrongMode
  else match currentMove s c with
    | some m => okWith s (takeView s c m)
    | none =>
      match s.endedMove c with
      | some ⟨id, h, .cancelled false⟩ =>
        ⟨s.setEndedMove c (some ⟨id, h, .cancelled true⟩), .cancelled, .cancelledMove ⟨id, h, .cancelled true⟩⟩
      | _ => takeNext c s

/-- TAKE_MOVE -/
def execTakeMove (c : Nat) (s : State) : Host.Outcome State Fault Refusal :=
  stationRequest .takeMove (some c) (takeMoveAns c) s

/-! ## The crane's reports -/

/-- A report that meets the crane's ended move, or none (R164): `placedOk` tells a PLACED. A CANCELLED answer carries the
ended move and its piece (log 45). -/
def endedReportAns (c id : Nat) (placedOk : Bool) (s : State) : Ans :=
  match s.endedMove c with
  | none => refuse s .notFound
  | some e =>
    if e.id ≠ id then refuse s .notFound
    else match e.ending with
      | .placed => if placedOk then okWith s (.endedReport e (viewOf s e.piece)) else refuse s .badState
      | .cancelled _ =>
        let e : EndedMove := { e with ending := .cancelled true }
        ⟨s.setEndedMove c (some e), .cancelled, .endedReport e (viewOf s e.piece)⟩

/-- An answer OK as it stands: the move and its piece (R164). -/
def asItStands (s : State) (c : Nat) (m : Move) : Ans := okWith s (.standing c m (viewOf s m.piece))

/-- The first checks of a report, then the move the id names in the crane's queue, or the ended move (R164). An id that both
hold is answered by the queue (log 63); the mode is checked before the id 0 (log 64). -/
def craneReport (c id : Nat) (placedOk : Bool) (byMove : State → Move → Ans) (s : State) : Ans :=
  if s.ppn.mode = .cold then refuse s .wrongMode
  else if id = 0 then refuse s .range
  else match moveOf s c id with
    | some m => byMove s m
    | none => endedReportAns c id placedOk s

/-- A LOADED zone left empty by a pick becomes CLEAR; a CUT zone stays CUT (R62). -/
def phaseAfterPick (s : State) : Place → State
  | .zone z => if (s.zone z).phase = .loaded && (s.bed z).pieces.isEmpty then setPhase s z .clear else s
  | _ => s

/-- The lift (R165). -/
def lift (s : State) (c : Nat) (m : Move) (p : Piece) : State :=
  let s := leavePlace s p.place m.piece p.thickness
  let s := phaseAfterPick (unlockSource s p.place) p.place
  let s := joinPlace s (.hook c) m.piece p.thickness
  let s := s.setPiece m.piece { p with state := .inTransit, place := .hook c }
  modMove s c m.id fun m => { m with state := .carrying }

/-- A PICKED of the TAKEN move (R163, R165). -/
def pickTaken (c : Nat) (s : State) (m : Move) : Ans :=
  match s.piece? m.piece with
  | none => refuse s .badState
  | some p =>
    let k := positionCheck s c (placeCentre s p.place)
    if k.result = .wrongPlace then ⟨s, .wrongPlace, .check k⟩
    else
      let s := raiseUnverified (lift s c m p) c k
      okWith s (.picked c { m with state := .carrying } (viewOf s m.piece) k)

/-- PICKED by the state of its move (R164). -/
def pickedAns (c : Nat) (s : State) (m : Move) : Ans :=
  match m.state with
  | .queued => refuse s .badState
  | .taken => pickTaken c s m
  | .carrying | .suspended => asItStands s c m

/-- PICKED (R164, R165) -/
def execPicked (c id : Nat) (s : State) : Host.Outcome State Fault Refusal :=
  stationRequest .picked (some c) (craneReport c id false (pickedAns c)) s

/-- The set-down on destination `d`, up to the raising of MOVE_DONE (R166, R29, R31, R62). -/
def setDown (s : State) (c : Nat) (m : Move) (p : Piece) (d : Dest) : State :=
  let s := leavePlace s (.hook c) m.piece p.thickness
  let s := joinPlace s d.place m.piece p.thickness
  let s := match d with
    | .slot _ => releaseDest s p.thickness (some d)
    | .zone z => s.setZone z { s.zone z with inbound := none, phase := .loaded }
  let s := s.setPiece m.piece
    { p with state := (match d with | .slot _ => .stored | .zone _ => .onTable), place := d.place, move := none }
  let s := (dropMove s c m.id).setEndedMove c (some ⟨m.id, m.piece, .placed⟩)
  raise s (.crane c) .moveDone

/-- The pending start check after a placement on a zone (R62, R78, R166). -/
def startAfterPlacing (s : State) : Dest → State
  | .slot _ => s
  | .zone z => pendingStart s (zoneTable z)

/-- The nest of the zone a piece was placed on, with its state (R166). -/
def destNest (s : State) : Dest → Option (Nat × NestState)
  | .slot _ => none
  | .zone z => (s.zone z).nest.map fun n => (n.id, n.state)

/-- A PLACED of the CARRYING move (R163, R166). -/
def placeCarried (c : Nat) (s : State) (m : Move) : Ans :=
  match s.piece? m.piece, m.dest with
  | some p, some d =>
    let k := positionCheck s c (destCentre s d)
    if k.result = .wrongPlace then ⟨s, .wrongPlace, .check k⟩
    else
      let s := startAfterPlacing (raiseUnverified (setDown s c m p d) c k) d
      okWith s (.placed (viewOf s m.piece) k (destNest s d))
  | _, _ => refuse s .badState

/-- PLACED by the state of its move (R164). -/
def placedAns (c : Nat) (s : State) (m : Move) : Ans :=
  match m.state with
  | .carrying => placeCarried c s m
  | _ => refuse s .badState

/-- PLACED (R164, R166) -/
def execPlaced (c id : Nat) (s : State) : Host.Outcome State Fault Refusal :=
  stationRequest .placed (some c) (craneReport c id true (placedAns c)) s

/-- The thickness of the piece a handle names, 0 where it names none. -/
def thicknessOf (s : State) (h : Handle) : Nat :=
  match s.piece? h with
  | some p => p.thickness
  | none => 0

/-- The source of a move that is TAKEN is released (R32). -/
def unlockSourceOf (s : State) (h : Handle) : State :=
  match s.piece? h with
  | some p => unlockSource s p.place
  | none => s

/-- A take given up (R167). -/
def abandonTaken (s : State) (c : Nat) (m : Move) : State :=
  let s := unlockSourceOf s m.piece
  let s := releaseDest s (thicknessOf s m.piece) m.dest
  modMove s c m.id fun m => { m with state := .queued }

/-- A carry given up: the move is SUSPENDED without a destination (R167). -/
def abandonCarrying (s : State) (c : Nat) (m : Move) : State :=
  let s := releaseDest s (thicknessOf s m.piece) m.dest
  let s := modMove s c m.id fun m => { m with state := .suspended, dest := none }
  raise s (.crane c) .moveSuspended

/-- MOVE_ABANDON by the state of its move (R164, R167). -/
def abandonAns (c : Nat) (s : State) (m : Move) : Ans :=
  match m.state with
  | .taken => okWith (abandonTaken s c m) (.move c { m with state := .queued })
  | .carrying => okWith (abandonCarrying s c m) (.move c { m with state := .suspended, dest := none })
  | .suspended | .queued => asItStands s c m

/-- MOVE_ABANDON (R164, R167) -/
def execMoveAbandon (c id : Nat) (s : State) : Host.Outcome State Fault Refusal :=
  stationRequest .moveAbandon (some c) (craneReport c id false (abandonAns c)) s

/-! ## RETARGET_MOVE and CANCEL_MOVE -/

/-- What a new destination of a SUSPENDED move fails (R168 steps 4 to 6); none when it may be taken. -/
def retargetBlocked (s : State) (m : Move) : Dest → Option Status
  | .zone z =>
    if !(s.bed z).configured then some .badState
    else if (s.zone z).phase ≠ .clear || destPromised s m.id m.piece (.zone z) then some .occupied
    else none
  | .slot n => roomTest s n (thicknessOf s m.piece)

/-- The destination is written and reserved, and the move becomes CARRYING (R168). -/
def retarget (s : State) (c : Nat) (m : Move) (d : Dest) : State :=
  let s := modMove s c m.id fun m => { m with state := .carrying, dest := some d }
  reserveDest s m.id (thicknessOf s m.piece) d

/-- R168 -/
def retargetMoveAns (id : Nat) (dest : LocArg) (s : State) : Ans :=
  if id = 0 then refuse s .range
  else match destArg? dest with
    | none => refuse s .range
    | some d =>
      match findMove s id with
      | none => refuse s .notFound
      | some (c, m) =>
        if m.state ≠ .suspended then refuse s .badState
        else match retargetBlocked s m d with
          | some e => refuse s e
          | none =>
            let s := retarget s c m d
            okWith s (.retarget c { m with state := .carrying, dest := some d } (destCentre s d).1 (destCentre s d).2)

/-- RETARGET_MOVE -/
def execRetargetMove (id : Nat) (dest : LocArg) (s : State) : Host.Outcome State Fault Refusal :=
  hostAnswer .retargetMove (retargetMoveAns id dest s)

/-- The move leaves the queue, and its piece names no move (R169). -/
def removeMove (s : State) (c : Nat) (m : Move) : State :=
  (dropMove s c m.id).modPiece m.piece fun p => { p with move := none }

/-- A TAKEN move cancelled: its source and destination are released, and it is the crane's ended move (R169). -/
def cancelTaken (s : State) (c : Nat) (m : Move) : State :=
  let s := unlockSourceOf s m.piece
  let s := releaseDest s (thicknessOf s m.piece) m.dest
  (removeMove s c m).setEndedMove c (some ⟨m.id, m.piece, .cancelled false⟩)

/-- The zone whose STAGED nest has the plate `h`. -/
def stagedZone (s : State) (h : Handle) : Option Nat :=
  firstFrom (fun z => (s.zone z).nest.any fun n => n.state == .staged && n.plate == h) 12 0

/-- The pending start check after a cancelled move of a STAGED nest's plate (R78, R169). -/
def startAfterCancel (s : State) (h : Handle) : State :=
  match stagedZone s h with
  | some z => pendingStart s (zoneTable z)
  | none => s

/-- R169. The OK carries no record (log 55). -/
def cancelMoveAns (id : Nat) (s : State) : Ans :=
  if id = 0 then refuse s .range
  else match findMove s id with
    | none => refuse s .notFound
    | some (c, m) =>
      match m.state with
      | .queued => okWith (startAfterCancel (removeMove s c m) m.piece) .none
      | .taken => okWith (startAfterCancel (cancelTaken s c m) m.piece) .none
      | .carrying | .suspended => refuse s .badState

/-- CANCEL_MOVE -/
def execCancelMove (id : Nat) (s : State) : Host.Outcome State Fault Refusal :=
  hostAnswer .cancelMove (cancelMoveAns id s)

/-! ## READ_CRANE -/

/-- A move as READ_CRANE lists it (R171). -/
def queueEntry (s : State) (m : Move) : Option QueueEntry :=
  (s.piece? m.piece).map fun p =>
    ⟨m, p.key, p.mass, if m.state = .queued || m.state = .taken then some (p.place, piecePos s m.piece p) else none⟩

/-- The piece on a hook as READ_CRANE gives it (R171). -/
def hookView (s : State) (c : Nat) : Option HookView :=
  (s.hook c).bind fun h => (s.piece? h).map fun p => ⟨h, p.key, p.thickness, p.mass⟩

/-- The pairs a crane belongs to, each by its western crane (R141). -/
def pairsOf : Nat → List Nat
  | 0 => [0]
  | 1 => [0, 1]
  | _ => [1]

/-- The zones a crane intrudes (R141), rising (log 68). -/
def zonesIntruded (s : State) (c : Nat) : List Nat := (List.range 12).filter fun z => (s.intruders z).contains c

/-- Everything READ_CRANE gives (R171). -/
def craneView (s : State) (c : Nat) : CraneView :=
  { hook := hookView s c, queue := (s.queue c).filterMap (queueEntry s), count := (s.queue c).length,
    room := Config.queueRoom - (s.queue c).length, ended := s.endedMove c, seq := s.rsu.latest.seq,
    sample := s.sampled c, clear := s.crane c, intruded := zonesIntruded s c, pairs := (pairsOf c).map s.pair }

/-- R171: the unit read of the crane's unit. -/
def readCraneAns (c : Nat) (s : State) : Ans :=
  if 3 ≤ c then refuse s .range else okWith (unitRead s (.crane c)) (.fullCrane (craneView s c))

/-- READ_CRANE -/
def execReadCrane (c : Nat) (s : State) : Host.Outcome State Fault Refusal := hostAnswer .readCrane (readCraneAns c s)

end Sys2Proof.Machine
end

