-- ==== Sys2Proof/Machine/Link.lean ====
section
/-! DEFINITION. The meanings of the poll turn's events and of the station link's requests (chapter 10). -/

namespace Sys2Proof.Machine

/-! ## The poll turn -/

/-- The address `i` places after the cursor in the poll list, wrapping. -/
def listed (s : State) (i : Nat) : Nat := s.slc.pollList.getD ((s.slc.cursor + i) % s.slc.pollList.length) 0

/-- How far after the cursor the first entry lies that is not UNUSED (R175). -/
def nextPollable (s : State) : Option Nat :=
  firstFrom (fun i => (s.station (listed s i)).state != .unused) s.slc.pollList.length 0

/-- POLL_TURN_START: the part polls the first entry that is not UNUSED, and the cursor goes past it. No turn begins while
one runs, or where no entry is pollable (R175; log 24). -/
def execPollTurnStart (s : State) : Host.Outcome State Fault Refusal :=
  match s.slc.turn, nextPollable s with
  | none, some i =>
    .next { s with slc := { s.slc with
      turn := some ⟨listed s i, none⟩, cursor := (s.slc.cursor + i + 1) % s.slc.pollList.length } }
  | _, _ => .next s

/-- IDLE_ANSWER: a good IDLE in the answer awaited (R175, R176). -/
def execIdleAnswer (s : State) : Host.Outcome State Fault Refusal :=
  match awaited s with
  | none => .next s
  | some a =>
    if (s.station a).binding.isNone then .next (endTurn s) else .next (endTurn (answering s a))

/-- What is handed on when a table loses its station: a BURN station's grant is revoked, a MARK station's issued mark
withdrawn; a crane keeps its moves (R91, R106, R176, R179). -/
def stationLost (s : State) : Option (Role × Nat) → State
  | some (.burn, t) => revoke s t .station
  | some (.mark, t) => withdrawMark s t
  | _ => s

/-- One miss at the polled address: at the third in a row an ONLINE station goes OFFLINE (R176). -/
def countMiss (s : State) (a : Nat) : State :=
  let e := s.station a
  let n := satInc 3 e.misses
  if e.state = .online && n = 3 then
    let s := s.setStation a { e with state := .offline, misses := n }
    stationLost (raise s .link .stationOffline) e.binding
  else s.setStation a { e with misses := n }

/-- A bad answer, or none: one miss, and the turn ends. An entry now UNUSED counts none (R175, R176; log 27). -/
def badAnswer (s : State) : State :=
  match awaited s with
  | none => s
  | some a => if (s.station a).binding.isNone then endTurn s else endTurn (countMiss s a)

/-- BAD_ANSWER (R176) -/
def execBadAnswer (s : State) : Host.Outcome State Fault Refusal := .next (badAnswer s)

/-- REPLY_WINDOW_EXPIRY (R174) -/
def execReplyWindowExpiry (s : State) : Host.Outcome State Fault Refusal := .next (badAnswer s)

/-- POLL_TURN_END: the last byte of the REPLY has been sent (R175). -/
def execPollTurnEnd (s : State) : Host.Outcome State Fault Refusal :=
  match s.slc.turn with
  | some ⟨_, some _⟩ => .next (endTurn s)
  | _ => .next s

/-- What a REQUEST that is no request of its kind is answered (R178): RANGE for a kind allowed for the role, whose payload
is too short or too long; UNKNOWN_REQUEST for any other kind. -/
def unknownAnswer (role : Role) (kind : Nat) : Status :=
  if (ReqKind.ofCode kind).any (roleAllows role) then .range else .unknownRequest

/-- STATION_UNKNOWN_REQUEST (R178) -/
def execStationUnknownRequest (kind : Nat) (s : State) : Host.Outcome State Fault Refusal :=
  match awaited s with
  | none => .next s
  | some a =>
    match (s.station a).binding with
    | none => .next (endTurn s)
    | some (role, _) => .next (sendReply (answering s a) a ⟨unknownAnswer role kind, kind, .none⟩)

/-! ## SET_STATION -/

/-- The role and unit of a binding a request gives; none where out of range (R179 step 1). -/
def bindingOf : Nat × Nat → Option (Role × Nat)
  | (r, u) => (roleOf r).bind fun role => if unitOk role u then some (role, u) else none

/-- The address other than `a` that holds a binding (R179). -/
def holderOf (s : State) (a : Nat) (b : Role × Nat) : Option Nat :=
  firstFrom (fun x => x != a && (s.station x).binding == some b) 31 1

/-- Another address that holds the binding given becomes UNUSED (R179). -/
def displace (s : State) (x : Option Nat) (b : Option (Role × Nat)) : State :=
  match x with
  | some x => stationLost (s.setStation x Station.reset) b
  | none => s

/-- The entry as SET_STATION writes it (R179). -/
def stationEntry : Option (Role × Nat) → Station
  | some b => ⟨.offline, some b, 0⟩
  | none => Station.reset

/-- The change of an entry: its old binding is released, a displaced address becomes UNUSED, and it is written (R179). -/
def rebind (s : State) (a : Nat) (b : Option (Role × Nat)) : Ans :=
  let x := b.bind (holderOf s a)
  let s := stationLost s (s.station a).binding
  let s := displace s x b
  let s := s.setStation a (stationEntry b)
  okWith s (.stations (a, s.station a) (x.map fun x => (x, s.station x)))

/-- R179 -/
def setStationAns (a : Nat) (binding : Option (Nat × Nat)) (s : State) : Ans :=
  if !inRange 1 31 a then refuse s .range
  else match binding with
    | none => rebind s a none
    | some q =>
      match bindingOf q with
      | none => refuse s .range
      | some b =>
        if (s.station a).binding = some b then okWith s (.stations (a, s.station a) none) else rebind s a (some b)

/-- SET_STATION -/
def execSetStation (a : Nat) (binding : Option (Nat × Nat)) (s : State) : Host.Outcome State Fault Refusal :=
  hostAnswer .setStation (setStationAns a binding s)

/-! ## SET_POLL_LIST and READ_LINK -/

/-- The list and the bit rate are in range (R180 step 1). -/
def pollRange (list : List Nat) (rate : Option Nat) : Bool :=
  list.length ≤ Config.pollRoom && list.all (inRange 1 31) && optFits (fun r => [500, 1000, 2000].contains r) rate

/-- The settings a SET_POLL_LIST leaves: a value left out is the waiting one, else the one in force (R180). -/
def pollSettings (s : State) (list : List Nat) (rate window : Option Nat) : LinkSettings :=
  let keptRate := (s.slc.waiting.map (·.rate)).getD s.slc.bitRate
  let keptWindow := (s.slc.waiting.map (·.window)).getD s.slc.window
  ⟨list, rate.getD keptRate, (window.map (clamp 100 2000)).getD keptWindow⟩

/-- R180: they wait for the running turn to end, or take effect at once. -/
def setPollListAns (list : List Nat) (rate window : Option Nat) (s : State) : Ans :=
  if !pollRange list rate then refuse s .range
  else
    let w := pollSettings s list rate window
    let s := { s with slc := { s.slc with waiting := some w } }
    okWith (if s.slc.turn.isNone then applyWaiting s else s) (.pollList w)

/-- SET_POLL_LIST -/
def execSetPollList (list : List Nat) (rate window : Option Nat) (s : State) : Host.Outcome State Fault Refusal :=
  hostAnswer .setPollList (setPollListAns list rate window s)

/-- Everything READ_LINK gives (R181). -/
def linkView (s : State) : LinkView :=
  { stations := (List.range 31).map fun i => s.station (i + 1), list := s.slc.pollList, cursor := s.slc.cursor,
    waiting := s.slc.waiting, rate := s.slc.bitRate, window := s.slc.window, turn := s.slc.turn.map (·.address) }

/-- READ_LINK: the unit read of LINK (R181). -/
def execReadLink (s : State) : Host.Outcome State Fault Refusal :=
  hostAnswer .readLink (okWith (unitRead s .link) (.link (linkView s)))

end Sys2Proof.Machine
end

