-- ==== Sys2Proof/Machine/Port.lean ====
section
/-! DEFINITION. The meanings of the planning port's own requests, of the hall-stop input and of device reset
(chapter 11). -/

namespace Sys2Proof.Machine

/-! ## Frames and notices -/

/-- NO_OP (R182) -/
def execNoOp (s : State) : Host.Outcome State Fault Refusal := hostAnswer .noOp (okWith s .none)

/-- What a frame that is no request is answered, with the kind echoed (R183): UNKNOWN_REQUEST for a bad frame (kind 0) and
for a kind that is not the host's (log 5); RANGE for a payload too short or too long. -/
def badFrameReply : Option Nat → Reply
  | none => ⟨.unknownRequest, 0, .none⟩
  | some k => ⟨if (ReqKind.ofCode k).any fun q => !q.stationOnly then .range else .unknownRequest, k, .none⟩

/-- PORT_BAD_FRAME (R183) -/
def execPortBadFrame (kind : Option Nat) (s : State) : Host.Outcome State Fault Refusal :=
  .next { s with ppn := { s.ppn with reply := badFrameReply kind } }

/-- R186: the reply lists every pending kind, and every kind listed is marked seen. -/
def readNoticesAns (s : State) : Ans :=
  okWith (markSeen s) (.notices (pendingNotices s) s.ppn.mode s.ppn.stopInput (attention s))

/-- READ_NOTICES -/
def execReadNotices (s : State) : Host.Outcome State Fault Refusal := hostAnswer .readNotices (readNoticesAns s)

/-- SET_NOTICE_MASK (R187) -/
def execSetNoticeMask (flags : BitVec 21) (s : State) : Host.Outcome State Fault Refusal :=
  hostAnswer .setNoticeMask (okWith { s with ppn := { s.ppn with mask := flags } } (.mask flags))

/-! ## Hall modes -/

/-- The hall mode is set. -/
def setMode (s : State) (m : Mode) : State := { s with ppn := { s.ppn with mode := m } }

/-- The hall becomes OPEN, and the pending start check runs on every table (R188). -/
def openHall (s : State) : State := pendingStartAll (setMode s .opened)

/-- An answer that shows the mode after the request and the debounced input (R189). -/
def hallAns (s : State) (st : Status) : Ans := ⟨s, st, .hall s.ppn.mode s.ppn.stopInput⟩

/-- OPEN_HALL (R189) -/
def openHallAns (s : State) : Ans :=
  match s.ppn.mode with
  | .cold => hallAns (openHall s) .ok
  | .opened => hallAns s .ok
  | .stopped => hallAns s .wrongMode

/-- OPEN_HALL -/
def execOpenHall (s : State) : Host.Outcome State Fault Refusal := hostAnswer .openHall (openHallAns s)

/-- RESUME_HALL (R189) -/
def resumeHallAns (s : State) : Ans :=
  match s.ppn.mode with
  | .cold => hallAns s .wrongMode
  | .opened => hallAns s .ok
  | .stopped => if s.ppn.stopInput then hallAns s .badState else hallAns (openHall s) .ok

/-- RESUME_HALL -/
def execResumeHall (s : State) : Host.Outcome State Fault Refusal := hostAnswer .resumeHall (resumeHallAns s)

/-- The hall becomes STOPPED: HALL_STOPPED is raised, every grant revoked and every travel permissive off (R105, R153,
R188). -/
def stopHall (s : State) : State :=
  let s := raise (setMode s .stopped) .hall .hallStopped
  stopPermissives ((List.range 6).foldl (fun s t => revoke s t .hallStop) s)

/-- HALL_STOP: the debounced hall-stop input is asserted (R188). -/
def execHallStop (s : State) : Host.Outcome State Fault Refusal :=
  let s := { s with ppn := { s.ppn with stopInput := true } }
  if s.ppn.mode = .stopped then .next s else .next (stopHall s)

/-- HALL_STOP_RELEASE: the debounced hall-stop input is released; no mode changes (R188). -/
def execHallStopRelease (s : State) : Host.Outcome State Fault Refusal :=
  .next { s with ppn := { s.ppn with stopInput := false } }

/-! ## CLEAR_REGISTRY and device reset -/

/-- A record as CLEAR_REGISTRY leaves it: a live one is retired (R4, R25). -/
def PieceRecord.clear (r : PieceRecord) : PieceRecord :=
  match r.live with
  | some _ => ⟨(r.gen + 1) % 256, none⟩
  | none => r

/-- The Stock Registry after CLEAR_REGISTRY (R25). -/
def Srg.clear (g : Srg) : Srg :=
  { Srg.reset with records := bankMap (fun _ => PieceRecord.reset) (fun _ r => r.clear) g.records }

/-- A slot after CLEAR_REGISTRY: its centre and enabled flag are kept (R42). -/
def Slot.clear (v : Slot) : Slot := { Slot.reset with x := v.x, y := v.y, enabled := v.enabled }

/-- The Location Map after CLEAR_REGISTRY (R42). -/
def Lmap.clear (l : Lmap) : Lmap :=
  { l with
    slots := bankMap (fun _ => Slot.reset) (fun _ v => v.clear) l.slots, receiving := [],
    beds := bankMap (fun _ => BedRec.reset) (fun _ b => { b with pieces := [] }) l.beds, hooks := [] }

/-- The Fit Search Engine after CLEAR_REGISTRY: a running walk is ABORTED (R58). -/
def Fse.clear (f : Fse) : Fse :=
  if f.phase = .scanning then
    { f with phase := .ready, outcome := some .aborted, readFlag := false, candidates := [], reserved := none }
  else f

/-- The Burn Supervisor after CLEAR_REGISTRY: every ended grant is absent (R122). -/
def Bsv.clear (b : Bsv) : Bsv :=
  { b with burns := bankMap (fun _ => Burn.reset) (fun _ v => { v with ended := none }) b.burns }

/-- The stock and work records emptied, every configuration kept (R190). -/
def clearRegistry (s : State) : State :=
  let scanning := s.fse.phase == .scanning
  let s := { s with
    srg := s.srg.clear, lmap := s.lmap.clear, fse := s.fse.clear, tbc := Tbc.reset, mkd := Mkd.reset,
    bsv := s.bsv.clear, mvc := { s.mvc with queues := [], ended := [] } }
  if scanning then raise s .registry .searchDone else s

/-- The number of nests the zones hold. -/
def nestCount (s : State) : Nat := (List.range 12).countP fun z => (s.zone z).nest.isSome

/-- The number of moves in the queues. -/
def moveCount (s : State) : Nat := ((List.range 3).map fun c => (s.queue c).length).foldl (· + ·) 0

/-- R190 -/
def clearRegistryAns (s : State) : Ans :=
  if s.ppn.mode ≠ .cold then refuse s .wrongMode
  else okWith (clearRegistry s) (.cleared s.livePieces.length (nestCount s) (moveCount s))

/-- CLEAR_REGISTRY -/
def execClearRegistry (s : State) : Host.Outcome State Fault Refusal := hostAnswer .clearRegistry (clearRegistryAns s)

/-- DEVICE_RESET: every record at its value after device reset; the commands that wait stay in the queue (log 31). -/
def execDeviceReset (s : State) : Host.Outcome State Fault Refusal := .next { State.reset with pending := s.pending }

end Sys2Proof.Machine
end

