-- ==== Sys2Proof/Machine/Dispatch.lean ====
section
/-! DEFINITION. What each command does: one arm per constructor of Instr, each one direct call of its meaning. -/

namespace Sys2Proof.Machine

/-- The effect of a command on everything but the queue. -/
def exec (i : Instr) (s : State) : Host.Outcome State Fault Refusal :=
  match i with
  | .noOp => Sys2Proof.Machine.execNoOp s
  | .portBadFrame kind => Sys2Proof.Machine.execPortBadFrame kind s
  | .enrolPlate key grade thickness len wid => Sys2Proof.Machine.execEnrolPlate key grade thickness len wid s
  | .enrolRemnant zone heat grade thickness decl => Sys2Proof.Machine.execEnrolRemnant zone heat grade thickness decl s
  | .restorePiece a => Sys2Proof.Machine.execRestorePiece a s
  | .retirePiece h => Sys2Proof.Machine.execRetirePiece h s
  | .lookupKey sender key => Sys2Proof.Machine.execLookupKey sender key s
  | .readPiece sender h => Sys2Proof.Machine.execReadPiece sender h s
  | .setHold h => Sys2Proof.Machine.execSetHold h s
  | .releaseHold h => Sys2Proof.Machine.execReleaseHold h s
  | .reservePiece h tag => Sys2Proof.Machine.execReservePiece h tag s
  | .unreservePiece h tag => Sys2Proof.Machine.execUnreservePiece h tag s
  | .setSlot a x y enabled => Sys2Proof.Machine.execSetSlot a x y enabled s
  | .setZone z x y x0 x1 y0 y1 => Sys2Proof.Machine.execSetZone z x y x0 x1 y0 y1 s
  | .setReceiving x y => Sys2Proof.Machine.execSetReceiving x y s
  | .readSlot a => Sys2Proof.Machine.execReadSlot a s
  | .readReceiving => Sys2Proof.Machine.execReadReceiving s
  | .fit a => Sys2Proof.Machine.execFit a s
  | .fitReserve a tag => Sys2Proof.Machine.execFitReserve a tag s
  | .readSearch => Sys2Proof.Machine.execReadSearch s
  | .walkStep => Sys2Proof.Machine.execWalkStep s
  | .searchCompletion => Sys2Proof.Machine.execSearchCompletion s
  | .stageNest z id plate parts decls => Sys2Proof.Machine.execStageNest z id plate parts decls s
  | .withdrawNest z id => Sys2Proof.Machine.execWithdrawNest z id s
  | .declareRemnant z id index decl => Sys2Proof.Machine.execDeclareRemnant z id index decl s
  | .startNest z id => Sys2Proof.Machine.execStartNest z id s
  | .skipPart z id part => Sys2Proof.Machine.execSkipPart z id part s
  | .closeNest z id => Sys2Proof.Machine.execCloseNest z id s
  | .setChain table on => Sys2Proof.Machine.execSetChain table on s
  | .zoneCleared z => Sys2Proof.Machine.execZoneCleared z s
  | .readTable table => Sys2Proof.Machine.execReadTable table s
  | .readZone sender z => Sys2Proof.Machine.execReadZone sender z s
  | .nextMark table => Sys2Proof.Machine.execNextMark table s
  | .markDone z id part => Sys2Proof.Machine.execMarkDone z id part s
  | .markFailed z id part => Sys2Proof.Machine.execMarkFailed z id part s
  | .waiveMark z id part => Sys2Proof.Machine.execWaiveMark z id part s
  | .nextBurn table => Sys2Proof.Machine.execNextBurn table s
  | .burnDone z id part => Sys2Proof.Machine.execBurnDone z id part s
  | .burnAbandon z id part => Sys2Proof.Machine.execBurnAbandon z id part s
  | .arcOnEdge table => Sys2Proof.Machine.execArcOnEdge table s
  | .arcOffEdge table onMs => Sys2Proof.Machine.execArcOffEdge table onMs s
  | .pierceTimeReached table => Sys2Proof.Machine.execPierceTimeReached table s
  | .arcTimeUnit table => Sys2Proof.Machine.execArcTimeUnit table s
  | .burnOvertime table => Sys2Proof.Machine.execBurnOvertime table s
  | .stuckArcTimerExpiry table => Sys2Proof.Machine.execStuckArcTimerExpiry table s
  | .clearTableFault table => Sys2Proof.Machine.execClearTableFault table s
  | .setBurnTimes pierce limit => Sys2Proof.Machine.execSetBurnTimes pierce limit s
  | .mountTorch table id => Sys2Proof.Machine.execMountTorch table id s
  | .unmountTorch table => Sys2Proof.Machine.execUnmountTorch table s
  | .setTorch a => Sys2Proof.Machine.execSetTorch a s
  | .resetTorch id => Sys2Proof.Machine.execResetTorch id s
  | .readTorch id => Sys2Proof.Machine.execReadTorch id s
  | .sampleTick lines => Sys2Proof.Machine.execSampleTick lines s
  | .ssiDataReady channel => Sys2Proof.Machine.execSsiDataReady channel s
  | .readyWaitExpiry channel => Sys2Proof.Machine.execReadyWaitExpiry channel s
  | .masterReadEnd channel bits high => Sys2Proof.Machine.execMasterReadEnd channel bits high s
  | .listenFrameEnd channel bits period => Sys2Proof.Machine.execListenFrameEnd channel bits period s
  | .quadratureTransition crane a b a' b' => Sys2Proof.Machine.execQuadratureTransition crane a b a' b' s
  | .indexPulse crane upper => Sys2Proof.Machine.execIndexPulse crane upper s
  | .homeHoist crane => Sys2Proof.Machine.execHomeHoist crane s
  | .setAxis crane axis a => Sys2Proof.Machine.execSetAxis crane axis a s
  | .calibrateAxis crane axis a => Sys2Proof.Machine.execCalibrateAxis crane axis a s
  | .readSample => Sys2Proof.Machine.execReadSample s
  | .clearOrderFault crane => Sys2Proof.Machine.execClearOrderFault crane s
  | .setCrane crane a => Sys2Proof.Machine.execSetCrane crane a s
  | .setRunway a => Sys2Proof.Machine.execSetRunway a s
  | .queueMove crane h dest => Sys2Proof.Machine.execQueueMove crane h dest s
  | .takeMove crane => Sys2Proof.Machine.execTakeMove crane s
  | .picked crane id => Sys2Proof.Machine.execPicked crane id s
  | .placed crane id => Sys2Proof.Machine.execPlaced crane id s
  | .moveAbandon crane id => Sys2Proof.Machine.execMoveAbandon crane id s
  | .retargetMove id dest => Sys2Proof.Machine.execRetargetMove id dest s
  | .cancelMove id => Sys2Proof.Machine.execCancelMove id s
  | .readCrane crane => Sys2Proof.Machine.execReadCrane crane s
  | .pollTurnStart => Sys2Proof.Machine.execPollTurnStart s
  | .idleAnswer => Sys2Proof.Machine.execIdleAnswer s
  | .badAnswer => Sys2Proof.Machine.execBadAnswer s
  | .replyWindowExpiry => Sys2Proof.Machine.execReplyWindowExpiry s
  | .pollTurnEnd => Sys2Proof.Machine.execPollTurnEnd s
  | .setStation address binding => Sys2Proof.Machine.execSetStation address binding s
  | .setPollList list rate window => Sys2Proof.Machine.execSetPollList list rate window s
  | .readLink => Sys2Proof.Machine.execReadLink s
  | .readNotices => Sys2Proof.Machine.execReadNotices s
  | .setNoticeMask flags => Sys2Proof.Machine.execSetNoticeMask flags s
  | .openHall => Sys2Proof.Machine.execOpenHall s
  | .resumeHall => Sys2Proof.Machine.execResumeHall s
  | .clearRegistry => Sys2Proof.Machine.execClearRegistry s
  | .hallStop => Sys2Proof.Machine.execHallStop s
  | .hallStopRelease => Sys2Proof.Machine.execHallStopRelease s
  | .deviceReset => Sys2Proof.Machine.execDeviceReset s
  | .stationUnknownRequest kind => Sys2Proof.Machine.execStationUnknownRequest kind s

end Sys2Proof.Machine
end

