-- ==== Sys2Proof/Machine/Step.lean ====
section
/-! DEFINITION. One step of the part: the command at the front of the queue is taken whole. -/

namespace Sys2Proof.Machine

/-- Takes the front command and answers what it does to the rest; with no command waiting the part idles (log 1). -/
def step (s : State) : Host.Outcome State Fault Refusal :=
  match s.pending with
  | [] => .next s
  | c :: r => exec c { s with pending := r }

/-- The state with the command a table word spells put at the front of the queue; unchanged where the word spells none
(log 34). -/
def State.withFetchWord (s : State) (nbits w : Nat) : State :=
  match decodeTableWord nbits w with
  | some c => { s with pending := c :: s.pending }
  | none => s

end Sys2Proof.Machine
end

