-- ==== Sys2Proof/Machine/Wire.lean ====
section
/-! DEFINITION. The bytes the part sends: the layout of every reply record, the reply frames of the two ports, and what a
planning port transaction shifts out (R182, R192 to R198; logs 28 and 29, and log 61 for the sizes of numbers whose range no rule gives by itself). -/

namespace Sys2Proof.Machine

/-! ## Fields -/

/-- The code of a status (R196). -/
def Status.code (st : Status) : Nat := st.ctorIdx

/-- A number in `n` bytes, high byte first (R192). -/
def outNat : (n v : Nat) → List Byte
  | 0, _ => []
  | n + 1, v => outNat n (v / 256) ++ [BitVec.ofNat 8 v]

/-- A signed number in four bytes, two's complement (R192). -/
def outInt (v : Int) : List Byte := outNat 4 (BitVec.ofInt 32 v).toNat

/-- A flag: 0 clear, 1 set (R198). -/
def outFlag (b : Bool) : List Byte := [if b then 1 else 0]

/-- A value that may be absent: absent is 0 and the listed values follow from 1 (R198). -/
def outNamed? (v : Option Nat) : List Byte := outNat 1 ((v.map (· + 1)).getD 0)

/-- A number for which 0 is not valid: absent is 0 (R192). -/
def outNat? (n : Nat) (v : Option Nat) : List Byte := outNat n (v.getD 0)

/-- A fixed field of `n` bytes behind a flag byte, sent as zeros where it is absent (R192; log 28). -/
def outOpt (n : Nat) (v : Option (List Byte)) : List Byte :=
  match v with
  | some b => outFlag true ++ b
  | none => outFlag false ++ List.replicate n 0

/-- A record behind a flag byte, nothing following where it is absent (log 28). -/
def outRecord? (v : Option (List Byte)) : List Byte :=
  match v with
  | some b => outFlag true ++ b
  | none => outFlag false

/-- A list: a count byte, then its entries (R198). -/
def outList {α : Type} (f : α → List Byte) (l : List α) : List Byte := outNat 1 l.length ++ l.flatMap f

/-- A mark text, absent with count 0 (R192, R198). -/
def outText (t : Option (List Nat)) : List Byte := outList (outNat 1) (t.getD [])

/-- A key (R198). -/
def outKey (k : Key) : List Byte := k.heat.flatMap (outNat 1) ++ outNat 2 k.seq

/-- A handle (R194). -/
def outHandle (h : Handle) : List Byte := outNat 2 h.index ++ outNat 1 h.gen

/-- A location reference, with the place in the row or in the stack (R194). -/
def outPlace (pl : Place) (pos count : Nat) : List Byte :=
  match pl with
  | .receiving => outNat 1 0 ++ outNat 1 pos ++ outNat 3 0
  | .slot n => outNat 1 1 ++ outNat 1 (n / 16) ++ outNat 1 (n % 16) ++ outNat 1 pos ++ outNat 1 count
  | .zone z => outNat 1 2 ++ outNat 1 (z / 2) ++ outNat 1 (z % 2) ++ outNat 2 0
  | .hook c => outNat 1 3 ++ outNat 1 c ++ outNat 3 0

/-- A rectangle (R195). -/
def outRect (r : Rect) : List Byte := outNat 2 r.dx ++ outNat 2 r.dy ++ outNat 2 r.len ++ outNat 2 r.wid

/-- The holder of a reservation, 0 where there is none (R195). -/
def holderCode : Option Reservation → Nat
  | none => 0
  | some r => r.holder.ctorIdx + 1

/-- A piece record (R195). -/
def outPiece (v : PieceView) : List Byte :=
  let p := v.piece
  outHandle v.handle ++ outKey p.key ++ outNat 1 p.kind.ctorIdx ++ outNat 1 p.grade ++ outNat 2 p.thickness ++
    outNat 2 p.len ++ outNat 2 p.wid ++ outNat 1 p.rects.length ++ outNat 4 p.net ++ outNat 4 p.mass ++
    outNat 1 p.state.ctorIdx ++ outPlace p.place v.pos v.count ++ outNat 1 (holderCode p.reservation) ++
    outNat? 4 (p.reservation.map (·.tag)) ++ outFlag p.hold ++ outNat? 2 p.move ++ outNat 4 p.created ++
    p.rects.flatMap outRect

/-- The piece of a move in a queue, which is live while the move is unfinished: it has no flag byte. -/
def outLive (p : Option PieceView) : List Byte := (p.map outPiece).getD []

/-- The location of that piece, as a location reference (R166, R194). -/
def outLocation (p : Option PieceView) : List Byte := (p.map fun v => outPlace v.piece.place v.pos v.count).getD []

/-! ## Locations and search -/

/-- An entry of a stack or of the row (R40, R41). -/
def outStackEntry (e : StackEntry) : List Byte :=
  outNat 1 e.pos ++ outHandle e.handle ++ outKey e.key ++ outNat 1 e.kind.ctorIdx ++ outNat 2 e.thickness ++
    outNat 4 e.mass ++ outFlag e.hold ++ outFlag e.reserved ++ outNat? 2 e.move

/-- A slot (R40). -/
def outSlot (v : SlotView) : List Byte :=
  outNat 4 v.x ++ outNat 2 v.y ++ outFlag v.enabled ++ outFlag v.pickLock ++ outNat 1 v.count ++ outNat 2 v.height ++
    outNat 1 v.inCount ++ outNat 2 v.inThick ++ outNat 1 v.outCount ++ outNat 1 v.roomCount ++ outNat 2 v.roomHeight ++
    outList outStackEntry v.stack

/-- The receiving row (R41). -/
def outRow (v : RowView) : List Byte :=
  outNat 4 v.x ++ outNat 2 v.y ++ outNat 1 v.count ++ outNat 1 v.room ++ outList outStackEntry v.pieces

/-- A zone's geometry (R38). -/
def outGeometry (v : ZoneGeometry) : List Byte :=
  outNat 4 v.x ++ outNat 2 v.y ++ outNat 4 v.x0 ++ outNat 4 v.x1 ++ outNat 2 v.y0 ++ outNat 2 v.y1

/-- The request copy (R43); the kind of request by its code (R197). -/
def outRequest (q : SearchRequest) : List Byte :=
  outNat 1 (if q.tag.isSome then ReqKind.fitReserve.code else ReqKind.fit.code) ++ outNat 1 q.grade ++
    outNat 2 q.thickness ++ outNat 2 q.len ++ outNat 2 q.wid ++ outFlag q.rotate ++ outNat 1 q.filter.ctorIdx ++
    outNat? 4 q.tag ++ outNat 2 q.depthPenalty ++ outNat 2 q.platePenalty

/-- The overwritten field (R43). -/
def outOverwritten (v : Option (Option Handle)) : List Byte :=
  outOpt 4 (v.map fun h => outOpt 3 (h.map outHandle))

/-- A candidate in READY (R43). -/
def outCandidate (c : Candidate) : List Byte :=
  outHandle c.handle ++ outNat 4 c.score ++ outNat 1 c.rect ++ outFlag c.rotated ++
    (match c.detail with
      | some d => outKey d.key ++ outNat 1 (d.slot / 16) ++ outNat 1 (d.slot % 16) ++ outNat 1 d.depth ++ outNat 4 d.net
      | none => [])

/-- The search result in each state (R56). -/
def outSearch : SearchView → List Byte
  | .idle => outNat 1 0
  | .scanning o q c => outNat 1 1 ++ outOverwritten o ++ (q.map outRequest).getD [] ++ outNat 2 c
  | .ready out rd o q cs r =>
    outNat 1 2 ++ outNamed? (out.map (·.ctorIdx)) ++ outFlag rd ++ outOverwritten o ++ (q.map outRequest).getD [] ++
      outList outCandidate cs ++ outOpt 3 (r.map outHandle)

/-! ## Tables -/

/-- A part with every field of R64. -/
def outPart (i : Nat) (p : Part) : List Byte :=
  outNat 1 i ++ outText p.text ++ outNat 2 p.x ++ outNat 2 p.y ++ outNat 1 p.mark.ctorIdx ++ outNat 1 p.markFailures ++
    outNat 1 p.burn.ctorIdx ++ outNat 2 p.starts ++ outNat 4 p.arcTime ++ outNat 1 p.failedPierces

/-- The outcome of a declaration: 0 absent, 1 created, or the code of the status (R65, R196; log 29), then the handle. -/
def outOutcome : Option DeclOutcome → List Byte
  | none => outNat 1 0 ++ outNat 3 0
  | some (.created h) => outNat 1 1 ++ outHandle h
  | some (.refused st) => outNat 1 st.code ++ outNat 3 0

/-- A declaration (R65). -/
def outDecl (d : Decl) : List Byte :=
  outNat 2 d.arg.len ++ outNat 2 d.arg.wid ++ outList outRect d.arg.rects ++ outNat 4 d.arg.net ++ outOutcome d.outcome

/-- The parts of a nest from index `i` on. -/
def outParts : (i : Nat) → List Part → List Byte
  | _, [] => []
  | i, p :: r => outPart i p ++ outParts (i + 1) r

/-- A nest (R63). -/
def outNest (n : Nest) : List Byte :=
  outNat 4 n.id ++ outHandle n.plate ++ outNat 1 n.state.ctorIdx ++ outNat 1 n.parts.length ++ outParts 0 n.parts ++
    outList outDecl n.decls

/-- A table record (R59). -/
def outTable (v : TableView) : List Byte :=
  outNamed? (v.active.map (·.ctorIdx)) ++ outFlag v.chain ++ outNat 1 v.burn.ctorIdx ++ outNat? 2 v.torch ++
    outNat? 1 v.burnStation ++ outNat? 1 v.markStation

/-- A part named by bed, nest and index (R83, R96). -/
def outRef (r : PartRef) : List Byte := outNat 1 r.bed.ctorIdx ++ outNat 4 r.nest ++ outNat 1 r.part

/-- Issued mark and ended issue (R83). -/
def outMarks (m : Marks) : List Byte :=
  outOpt 6 (m.issued.map outRef) ++ outOpt 7 (m.ended.map fun e => outRef e.1 ++ outNat 1 e.2.ctorIdx)

/-- A grant (R96). The grant arc time takes 4 bytes, no rule giving its range (R198, log 61). -/
def outGrant (g : Grant) : List Byte :=
  outRef g.ref ++ outNat 4 g.arcTime ++ outNat 2 g.pierceMin ++ outNat 2 g.burnLimit

/-- How a grant ended, with the revocation cause, absent but for REVOKED (R96). -/
def outGrantEnd : GrantEnd → List Byte
  | .done => outNat 1 0 ++ outNamed? none
  | .abandoned => outNat 1 1 ++ outNamed? none
  | .revoked c => outNat 1 2 ++ outNamed? (some c.ctorIdx)

/-- The ended grant (R96). -/
def outEndedGrant (e : Option (PartRef × GrantEnd)) : List Byte :=
  outOpt 8 (e.map fun e => outRef e.1 ++ outGrantEnd e.2)

/-- A zone in READ_TABLE (R80). -/
def outZoneNest (v : ZoneNestView) : List Byte :=
  outNat 1 v.phase.ctorIdx ++ outNat? 2 v.inbound ++ outList outHandle v.bed ++ outRecord? (v.nest.map outNest)

/-- Everything READ_TABLE gives (R80). -/
def outFullTable (v : FullTableView) : List Byte :=
  outTable v.table ++ outZoneNest v.zoneA ++ outZoneNest v.zoneB ++ outMarks v.marks ++ outOpt 14 (v.grant.map outGrant) ++
    outEndedGrant v.ended ++ outFlag v.permissive ++ outNat 1 v.monitor.ctorIdx ++ outFlag v.stuck ++
    outNamed? (v.torchState.map (·.ctorIdx)) ++ outOpt 4 (v.wear.map (outNat 4))

/-- A piece of a bed (R81). -/
def outBedEntry (e : BedEntry) : List Byte :=
  outHandle e.handle ++ outKey e.key ++ outNat 1 e.kind.ctorIdx ++ outNat 2 e.thickness ++ outNat 4 e.mass

/-- The summary of a nest (R81). -/
def outSummary (n : NestSummary) : List Byte :=
  outNat 4 n.id ++ outHandle n.plate ++ outNat 1 n.state.ctorIdx ++ outNat 1 n.parts ++ outNat 1 n.burnt ++
    outNat 1 n.skipped ++ outNat 1 n.notFinal

/-- A zone in READ_ZONE (R81). -/
def outZone (v : ZoneView) : List Byte :=
  outNat 1 v.phase.ctorIdx ++ outNat? 2 v.inbound ++ outGeometry v.geometry ++ outList outBedEntry v.bed ++
    outRecord? (v.nest.map outSummary)

/-- An answer OK to NEXT_MARK (R87). -/
def outMark (v : MarkView) : List Byte :=
  outNat 1 v.table ++ outNat 1 v.ref.bed.ctorIdx ++ outNat 4 v.ref.nest ++ outHandle v.plate ++ outNat 1 v.ref.part ++
    outText (some v.text) ++ outNat 2 v.x ++ outNat 2 v.y ++ outNat 1 v.failures

/-- Bed, nest id and counts of an answer NONE to NEXT_MARK, absent where the table has no active zone (R87). -/
def outCounts (c : Option MarkCounts) : List Byte :=
  outNamed? (c.map fun c => c.bed.ctorIdx) ++ outNat? 4 (c.map fun c => c.nest) ++
    outOpt 1 (c.map fun c => outNat 1 c.pending) ++ outOpt 1 (c.map fun c => outNat 1 c.failed) ++
    outOpt 1 (c.map fun c => outNat 1 c.satisfied)

/-- The mark fields of a part (R88). -/
def outMarkFields (m : MarkFields) : List Byte :=
  outNat 1 m.part ++ outText m.text ++ outNat 2 m.x ++ outNat 2 m.y ++ outNat 1 m.mark.ctorIdx ++ outNat 1 m.failures

/-- An answer OK to NEXT_BURN (R99). -/
def outGrantView (v : GrantView) : List Byte :=
  outNat 1 v.table ++ outNat 1 v.ref.bed.ctorIdx ++ outNat 4 v.ref.nest ++ outHandle v.plate ++ outNat 1 v.ref.part ++
    outFlag v.resumed ++ outNat 2 v.starts ++ outNat 4 v.arcTime ++ outNat? 2 v.torch ++ outNat 4 (v.wear.getD 0)

/-- The torch of a refusal, where one is mounted: id, state and wear points, each as its own kind of absent field is sent
(R98, R192, R198). -/
def outTorchRefusal (t : Option (Nat × TorchState × Nat)) : List Byte :=
  outNat? 2 (t.map fun v => v.1) ++ outNamed? (t.map fun v => v.2.1.ctorIdx) ++ outOpt 4 (t.map fun v => outNat 4 v.2.2)

/-- The reply to a burn report (R100). -/
def outBurnReport (v : BurnReport) : List Byte :=
  outNat 1 v.part ++ outNat 1 v.burn.ctorIdx ++ outNat 2 v.starts ++ outNat 4 v.arcTime ++ outNat 1 v.failedPierces ++
    outNat 1 v.nest.ctorIdx ++ outNat 1 v.state.ctorIdx ++ outOpt 14 (v.grant.map outGrant) ++ outEndedGrant v.ended

/-- A torch record: the fields of R115. -/
def outTorch (t : Torch) : List Byte :=
  outNat 2 t.id ++ outNat 1 t.state.ctorIdx ++ outOpt 1 (t.mounted.map (outNat 1)) ++ outNat 2 t.starts ++
    outNat 4 t.arcTime ++ outNat 2 t.limit ++ outNat 1 t.weight ++ outNat 1 t.failed

/-! ## Runway and moves -/

/-- A hoist as HOME_HOIST and SET_AXIS give it (R130). -/
def outHoist (h : Hoist) : List Byte :=
  outInt h.count.toInt ++ outFlag h.homed ++ outFlag h.armed ++ outInt h.home.toInt

/-- A channel with every field of R123. -/
def outChannel (c : Channel) : List Byte :=
  outNat 1 c.mode.ctorIdx ++ outNat 1 c.settings.dataBits ++ outNat 1 c.settings.statusBits ++
    outNat 1 c.settings.parity.ctorIdx ++ outNat 1 c.settings.code.ctorIdx ++ outNat 2 c.settings.clock ++
    outNamed? (c.flight.map fun f => f.phase.ctorIdx) ++ outOpt 4 (c.held.map (outNat 4)) ++
    outNat 1 c.lastResult.ctorIdx ++ outNat 4 c.lastRaw ++ outList outFlag c.lastStatus ++
    outNat 1 c.lastLength.ctorIdx ++ outNamed? (c.lastFrame.map (·.ctorIdx)) ++ outNat 4 c.period ++ outNat 2 c.good ++
    outNat 2 c.failed

/-- A position with its validity and age (R135); the value takes `n` bytes, 4 for X and 2 for Y and H (R133, R198; log 61). -/
def outReading (n : Nat) (r : Reading) : List Byte :=
  outNat n r.value.toNat ++ outNat 1 r.validity.ctorIdx ++ outNat 1 r.age

/-- A crane of a sample (R135), axis by axis; the reply of a position check goes otherwise (log 57). -/
def outCraneSample (c : CraneSample) : List Byte :=
  outReading 4 c.x ++ outReading 2 c.y ++ outReading 2 c.h ++ outOpt 4 (c.dx.map outInt) ++ outOpt 4 (c.dy.map outInt)

/-- A hoist with its count and homed flag latched in the sample (R139). -/
def outLatched (l : Latch) (h : Hoist) : List Byte :=
  outInt h.count.toInt ++ outInt l.count.toInt ++ outFlag l.homed ++ outFlag h.homed ++ outFlag h.armed ++
    outInt h.home.toInt

/-- An axis as READ_SAMPLE gives it (R137, R139). -/
def outAxis (v : AxisView) : List Byte :=
  let conversion := outInt v.scale ++ outInt v.offset
  match v.source with
  | .x d g ch => outReading 4 v.reading ++ outOpt 4 (d.map outInt) ++ outFlag g ++ conversion ++ outChannel ch
  | .y d ch => outReading 2 v.reading ++ outOpt 4 (d.map outInt) ++ conversion ++ outChannel ch
  | .h l h => outReading 2 v.reading ++ conversion ++ outLatched l h

/-- Crane `c` of a sample. -/
def sampleCrane (v : Sample) (c : Nat) : CraneSample := bankGet (fun _ => CraneSample.reset) v.cranes c

/-- Everything READ_SAMPLE gives (R139). -/
def outSample (v : SampleView) : List Byte :=
  outNat 4 v.sample.seq ++ outNat 4 v.sample.missed ++ outNat 2 v.sample.missedCount ++
    (List.range 3).flatMap (fun c =>
      outCraneSample (sampleCrane v.sample c) ++ outFlag (sampleCrane v.sample c).goodX) ++
    v.axes.flatMap (fun a => outInt a.1 ++ outInt a.2) ++ v.channels.flatMap outChannel ++
    (List.range 3).flatMap (fun c => outLatched (sampleCrane v.sample c).latch (v.hoists.getD c Hoist.reset)) ++ outNat 1 v.period ++ outNat 1 v.staleLimit

/-- The runway settings (R155). -/
def outRunway (r : Runway) : List Byte :=
  outNat 4 r.length ++ outNat 2 r.span ++ outNat 2 r.separation ++ outNat 2 r.lookAhead ++ outNat 2 r.hysteresis ++
    outNat 2 r.overfly ++ outNat 2 r.margin ++ outNat 4 r.reach ++ outNat 2 r.tolerance ++ outNat 1 r.period ++
    outNat 1 r.staleLimit

/-- A destination as a location reference; the stack figures are not its own and are sent as 0 (log 29). -/
def outDest (d : Dest) : List Byte := outPlace d.place 0 0

/-- A move (R157) of crane `c`. -/
def outMove (c : Nat) (m : Move) : List Byte :=
  outNat 2 m.id ++ outNat 1 c ++ outHandle m.piece ++ outOpt 5 (m.dest.map outDest) ++ outNat 1 m.state.ctorIdx

/-- An ended move (R157): only an ending CANCELLED has the told flag (R192). -/
def outEnded (e : EndedMove) : List Byte :=
  outNat 2 e.id ++ outHandle e.piece ++
    (match e.ending with
      | .placed => outNat 1 0 ++ outOpt 1 none
      | .cancelled told => outNat 1 1 ++ outOpt 1 (some (outFlag told)))

/-- A centre in the hall. -/
def outPoint (p : Nat × Nat) : List Byte := outNat 4 p.1 ++ outNat 2 p.2

/-- What TAKE_MOVE gives (R162), with the state of the move, and the source and the two centres behind flags (log 46). -/
def outTake (v : TakeView) : List Byte :=
  outNat 2 v.move.id ++ outNat 1 v.crane ++ outNat 1 v.move.state.ctorIdx ++ outHandle v.move.piece ++ outKey v.key ++
    outNat 1 v.kind.ctorIdx ++ outNat 2 v.thickness ++ outNat 4 v.mass ++
    outOpt 11 (v.source.map fun s => outPlace s.place s.pos s.count ++ outPoint (s.x, s.y)) ++
    outOpt 5 (v.move.dest.map outDest) ++ outOpt 6 (v.dest.map outPoint)

/-- A position check (R163). -/
def outCheck (k : PosCheck) : List Byte :=
  outNat 1 k.result.ctorIdx ++ outNat 4 k.seq ++ outNat 4 k.x.toNat ++ outNat 2 k.y.toNat ++
    outNat 1 k.validX.ctorIdx ++ outNat 1 k.validY.ctorIdx ++ outPoint (k.centreX, k.centreY)

/-- A move in READ_CRANE (R171). -/
def outQueueEntry (e : QueueEntry) : List Byte :=
  outNat 2 e.move.id ++ outNat 1 e.move.state.ctorIdx ++ outHandle e.move.piece ++ outKey e.key ++ outNat 4 e.mass ++
    outOpt 5 (e.move.dest.map outDest) ++ outOpt 5 (e.source.map fun p => outPlace p.1 p.2.1 p.2.2)

/-- A zone named by table and bed. -/
def outZoneName (z : Nat) : List Byte := outNat 1 (z / 2) ++ outNat 1 (z % 2)

/-- The zone a condition names: KEEP_OUT alone names one (R141). -/
def Cond.zone? : Cond → Option Nat
  | .keepOut z => some z
  | _ => none

/-- A condition of a permissive, with its zone (R141, R192). -/
def outCond (c : Cond) : List Byte := outNat 1 c.ctorIdx ++ outOpt 2 (c.zone?.map outZoneName)

/-- A permissive with its conditions (R141). -/
def outPermissive (p : Permissive) : List Byte := outFlag p.on ++ outList outCond p.conds

/-- The capacity and the extents of a crane (R154, R171). -/
def outCapacity (capacity west east : Nat) : List Byte := outNat 4 capacity ++ outNat 2 west ++ outNat 2 east

/-- The clearance record of a crane, every field of R141. -/
def outClear (v : CraneClear) (intruded : List Nat) : List Byte :=
  outCapacity v.capacity v.west v.east ++ outNat 2 v.aE ++ outNat 2 v.aW ++ outNat 2 v.aN ++ outNat 2 v.aS ++
    outNat 1 v.hook.ctorIdx ++ outPermissive v.pW ++ outPermissive v.pE ++ outPermissive v.pN ++ outPermissive v.pS ++
    outList outZoneName intruded

/-- Everything READ_CRANE gives (R171). The gaps of the crane's one or two pairs, then their order faults, stand without a
count byte (log 65). -/
def outCraneView (v : CraneView) : List Byte :=
  outCapacity v.clear.capacity v.clear.west v.clear.east ++
    outOpt 19 (v.hook.map fun h => outHandle h.handle ++ outKey h.key ++ outNat 2 h.thickness ++ outNat 4 h.mass) ++
    outList outQueueEntry v.queue ++ outNat 1 v.count ++ outNat 1 v.room ++ outOpt 8 (v.ended.map outEnded) ++
    outNat 4 v.seq ++ outCraneSample v.sample ++ outClear v.clear v.intruded ++
    v.pairs.flatMap (fun p => outOpt 4 (p.gap.map outInt)) ++ v.pairs.flatMap (fun p => outFlag p.orderFault)

/-! ## Link and notices -/

/-- A station table entry (R177). -/
def outStation (e : Station) : List Byte :=
  outNat 1 e.state.ctorIdx ++ outNamed? (e.binding.map fun b => b.1.ctorIdx) ++
    outOpt 1 (e.binding.map fun b => outNat 1 b.2) ++ outNat 1 e.misses

/-- Link settings (R180). -/
def outSettings (v : LinkSettings) : List Byte := outList (outNat 1) v.list ++ outNat 2 v.rate ++ outNat 2 v.window

/-- Everything READ_LINK gives (R181). -/
def outLink (v : LinkView) : List Byte :=
  v.stations.flatMap outStation ++ outList (outNat 1) v.list ++ outNat 1 v.cursor ++
    outRecord? (v.waiting.map outSettings) ++ outNat 2 v.rate ++ outNat 2 v.window ++ outNat? 1 v.turn

/-- The pending kinds of unit `u`, each with its enabled flag (R186). -/
def outUnit (l : List NoticeView) (u : Nat) : List Byte :=
  outList (fun n : NoticeView => outNat 1 n.kind ++ outFlag n.enabled) (l.filter fun n => n.unit == u)

/-! ## Records and frames -/

/-- The bytes of a reply record (R198). The points left of a torch take 2 bytes, the counts of CLEAR_REGISTRY 2, 1 and 1, and
the place of a new move 1, by the ranges their rules imply (log 61). -/
def outRecord : ReplyRecord → List Byte
  | .none => []
  | .piece v => outPiece v
  | .keyed h v => outHandle h ++ outPiece v
  | .slot v => outSlot v
  | .row v => outRow v
  | .geometry v => outGeometry v
  | .request q => outRequest q
  | .search v => outSearch v
  | .nest n => outNest n
  | .table v => outTable v
  | .fullTable v => outFullTable v
  | .zone v => outZone v
  | .mark v => outMark v
  | .noMark t c => outNat 1 t ++ outCounts c
  | .markReport p m => outMarkFields p ++ outMarks m
  | .part i p => outPart i p
  | .grant v => outGrantView v
  | .burnRefused t => outNat 1 t
  | .burnTorch t v => outNat 1 t ++ outTorchRefusal v
  | .burnHeld t q => outNat 1 t ++ outNat 4 q
  | .burnWait t i m => outNat 1 t ++ outNat 1 i ++ outNat 1 m.ctorIdx
  | .burnReport v => outBurnReport v
  | .tableBurn b m => outNat 1 b.ctorIdx ++ outNat 1 m.ctorIdx
  | .burnTimes p l => outNat 2 p ++ outNat 2 l
  | .torch v => outTorch v.torch ++ outNat 4 v.wear
  | .torchOnly _ t => outTorch t
  | .fullTorch v left b =>
    outNat 1 v.number ++ outTorch v.torch ++ outNat 4 v.wear ++ outNat 2 left ++
      outNamed? (b.map fun b => b.1.ctorIdx) ++ outNamed? (b.map fun b => b.2.ctorIdx)
  | .hoist h => outHoist h
  | .axis v => outAxis v
  | .calibration s o a b => outInt s ++ outInt o ++ outInt a ++ outInt b
  | .sample v => outSample v
  | .pair g w e f => outOpt 4 (g.map outInt) ++ outNat 1 w.ctorIdx ++ outNat 1 e.ctorIdx ++ outFlag f
  | .crane c w e => outCapacity c w e
  | .runway r => outRunway r
  | .queued c m p => outMove c m ++ outNat 1 p
  | .take v => outTake v
  | .cancelledMove e => outEnded e
  | .blocked i h k => outNat 2 i ++ outHandle h ++ outNat 1 k.ctorIdx
  | .check k => outCheck k
  | .picked c m p k => outMove c m ++ outLive p ++ outCheck k
  | .placed p k n =>
    outLive p ++ outLocation p ++ outCheck k ++ outNat? 4 (n.map fun n => n.1) ++ outNamed? (n.map fun n => n.2.ctorIdx)
  | .move c m => outMove c m
  | .standing c m p => outMove c m ++ outLive p
  | .endedReport e p => outEnded e ++ outRecord? (p.map outPiece)
  | .retarget c m x y => outMove c m ++ outPoint (x, y)
  | .fullCrane v => outCraneView v
  | .stations e d => outStation e.2 ++ outOpt 5 (d.map fun e => outStation e.2)
  | .pollList v => outSettings v
  | .link v => outLink v
  | .notices l m s a => (List.range 12).flatMap (outUnit l) ++ outNat 1 m.ctorIdx ++ outFlag s ++ outFlag a
  | .mask f => (List.range 21).flatMap fun k => outFlag (f.getLsbD k)
  | .hall m s => outNat 1 m.ctorIdx ++ outFlag s
  | .cleared p n m => outNat 2 p ++ outNat 1 n ++ outNat 1 m

/-- A reply frame of the planning port (R193): length, status, kind echoed, record, and the CRC over them (R183). A record
longer than 4096 bytes is sent whole (log 40). -/
def portFrame (r : Reply) : List Byte :=
  let payload := outRecord r.record
  let body := outNat 2 payload.length ++ outNat 1 r.status.code ++ outNat 1 r.kind ++ payload
  body ++ Wire.crcBytes body

/-- What a transaction of `n` bytes shifts out: the reply buffer from its first byte, then 0x00 (R182). -/
def portShiftOut (s : State) (n : Nat) : List Byte :=
  let f := portFrame s.ppn.reply
  f.take n ++ List.replicate (n - f.length) 0

/-- The level of the part's data line at each level of the clock, the clock having stood at `was`: the first bit stands from
chip select on, each falling edge brings the next (SPI mode 0), and after the last bit the line is low (R182). -/
def shiftedOut : (was : Bool) → (bits clock : List Bool) → List Bool
  | _, _, [] => []
  | was, bits, c :: r =>
    let bits := if was && !c then bits.tail else bits
    bits.headD false :: shiftedOut c bits r

/-- The part's data line in a transaction whose clock takes these levels, idle low before them (R182). -/
def portDataOut (s : State) (clock : List Bool) : List Bool := shiftedOut false (portBits (portFrame s.ppn.reply)) clock

/-- The POLL frame the part sends as a turn begins (R173, R175). -/
def pollFrame (address : Nat) : Option (List Byte) := linkFrame address 0 []

/-- The payload of a link REPLY (R193). -/
def replyPayload (r : Reply) : List Byte := outNat 1 r.status.code ++ outNat 1 r.kind ++ outRecord r.record

/-- The REPLY frame of a turn that is being answered (R173, R175, R193). -/
def replyFrame (t : Turn) : Option (List Byte) := t.reply.bind fun r => linkFrame t.address 3 (replyPayload r)

/-- The eighteen permissive outputs: the torch permissives of T0 to T5, then W, E, N, S of C0 to C2 (00_scope.md). -/
def permissiveOutputs (s : State) : List Bool :=
  (List.range 6).map (fun t => (s.burn t).permissive) ++
    (List.range 3).flatMap fun c =>
      [(s.crane c).pW.on, (s.crane c).pE.on, (s.crane c).pN.on, (s.crane c).pS.on]

end Sys2Proof.Machine
end

