-- ==== Sys2Proof/Safety.lean ====
section
/-! DEFINITION. The words the statements are written in, and the properties that every command keeps: banks in canonical
form, a directory that agrees with the piece records, torches that burn only under a grant, and cranes that travel only
where nothing of R151 holds them. -/

namespace Sys2Proof.Machine

/-! ## Words for states -/

/-- The state with its reply buffer holding this answer to a request of kind `k` (R182, R193). -/
def State.replied (s : State) (k : ReqKind) (st : Status) (r : ReplyRecord) : State :=
  { s with ppn := { s.ppn with reply := ⟨st, k.code, r⟩ } }

/-- `h` passes the checks of R2 and names the live piece `p`. -/
def State.names (s : State) (h : Handle) (p : Piece) : Prop :=
  h.index < Config.pieceRecords ∧ s.record h.index = ⟨h.gen, some p⟩

/-- A request of the station at address `a` can be taken: the turn of `a` waits for its answer, and `a` is bound to this
role and unit (R175, R177). -/
def State.serves (s : State) (a : Nat) (r : Role) (u : Nat) : Prop :=
  s.slc.turn = some ⟨a, none⟩ ∧ (s.station a).binding = some (r, u)

/-- The zone a request names holds this nest under this id (R63). -/
def State.holdsNest (s : State) (z : ZoneArg) (k : Nat) (n : Nest) : Prop :=
  zoneArg? z = some k ∧ (s.zone k).nest = some n

/-- The host's request `c` of kind `k` is answered with this status and record, and leaves `t` but for the reply. -/
def Answers (c : Instr) (s : State) (k : ReqKind) (st : Status) (r : ReplyRecord) (t : State) : Prop :=
  exec c s = .next (t.replied k st r)

/-- The host's request `c` is refused with a status and no record, and changes nothing but the reply (log 4). -/
def Refuses (c : Instr) (s : State) (k : ReqKind) (st : Status) : Prop := Answers c s k st .none s

/-- The request `c` of the station at `a`, which is answering (R176), is given this reply in its turn, and leaves `t` but
for the reply. -/
def StationAnswers (c : Instr) (s : State) (a : Nat) (k : ReqKind) (st : Status) (r : ReplyRecord) (t : State) : Prop :=
  exec c s = .next (sendReply t a ⟨st, k.code, r⟩)

/-- The request `c` of the station at `a` is refused with a status and no record, and changes nothing beside the turn. -/
def StationRefuses (c : Instr) (s : State) (a : Nat) (k : ReqKind) (st : Status) : Prop :=
  StationAnswers c s a k st .none (answering s a)

/-! ## Declarations and remnants (R1, R7, R8, R14) -/

/-- Grade and thickness within the ranges of R1. -/
def SteelFields (grade thickness : Nat) : Prop := grade ≤ 63 ∧ 30 ≤ thickness ∧ thickness ≤ 1000

/-- A plate's outline, or a remnant's bounding size, within the ranges of R1. -/
def OutlineFields (len wid : Nat) : Prop := (1000 ≤ len ∧ len ≤ 18000) ∧ 500 ≤ wid ∧ wid ≤ 4800

/-- Bounding size, one to four rectangles and net area within the bounds of R1 and R8. -/
def RemnantFields (d : DeclArg) : Prop :=
  OutlineFields d.len d.wid ∧ (1 ≤ d.rects.length ∧ d.rects.length ≤ 4) ∧
    (∀ r ∈ d.rects, (1 ≤ r.len ∧ r.len ≤ 18000) ∧ (1 ≤ r.wid ∧ r.wid ≤ 4800) ∧ r.len ≤ d.len ∧ r.wid ≤ d.wid ∧
      r.dx + r.len ≤ 18000 ∧ r.dy + r.wid ≤ 4800) ∧
    (∀ r ∈ d.rects, r.len * r.wid / 100 ≤ d.net) ∧ d.net ≤ (d.rects.map fun r => r.len * r.wid / 100).sum

/-- Record `i` is the lowest-numbered free one (R2). -/
def State.lowestFree (s : State) (i : Nat) : Prop :=
  i < 2048 ∧ (s.record i).live = none ∧ ∀ j, j < i → (s.record j).live ≠ none

/-- No record is free (R2). -/
def State.full (s : State) : Prop := ∀ i, i < 2048 → (s.record i).live ≠ none

/-- The key tried for a remnant of this heat code, `j` places on from the remnant counter, which goes from 32767 to 1
(R7). -/
def State.remnantKey (s : State) (heat : List Nat) (j : Nat) : Key :=
  ⟨heat, 32768 + (fun n => if n < 32767 then n + 1 else 1)^[j] s.srg.remnant⟩

/-- `key` is the first of the 32767 keys tried that no live piece carries (R7). -/
def State.drawsKey (s : State) (heat : List Nat) (key : Key) : Prop :=
  ∃ j, j < 32767 ∧ key = s.remnantKey heat j ∧ dirLookup s.srg key = none ∧
    ∀ m, m < j → dirLookup s.srg (s.remnantKey heat m) ≠ none

/-- Every one of the 32767 keys tried is in use (R7). -/
def State.drawsNone (s : State) (heat : List Nat) : Prop :=
  ∀ j, j < 32767 → dirLookup s.srg (s.remnantKey heat j) ≠ none

/-- The remnant of the description `d` on the bed of zone `z`, under a key and with the creation sequence that the
creation counter gives (R6, R8, R16, R75). -/
def remnantAt (s : State) (z : Nat) (key : Key) (grade thickness : Nat) (d : DeclArg) : Piece :=
  { key := key, kind := .remnant, grade := grade, thickness := thickness, len := d.len, wid := d.wid, rects := d.rects,
    net := d.net, mass := (d.net * thickness * 785 + 9999999) / 10000000, state := .onTable, place := .zone z,
    reservation := none, hold := false, move := none, created := drawCreated s }

/-- The handle that a piece created in record `i` gets (R2). -/
def State.handleAt (s : State) (i : Nat) : Handle := ⟨i, (s.record i).gen⟩

/-- The state once the remnant `p` lies on the bed of zone `z`: record `i` and the directory `g` hold it, and the two
counters have moved past what was drawn (R6, R7, R14). -/
def withRemnant (s : State) (z i : Nat) (g : Srg) (p : Piece) : State :=
  let t := ({ s with srg := g } : State).setRecord i ⟨(s.handleAt i).gen, some p⟩
  let t := t.setBed z { s.bed z with pieces := (s.bed z).pieces ++ [s.handleAt i] }
  { t with srg := { t.srg with
    remnant := if p.key.seq < 65535 then p.key.seq - 32767 else 1, creation := next32 p.created } }

/-- The state once a key was drawn that the directory cannot take: the remnant counter keeps its number (R7). -/
def withoutRemnant (s : State) (key : Key) : State := { s with srg := { s.srg with remnant := key.seq - 32768 } }

/-! ## Starting and closing a nest -/

/-- The start conditions of the nest `n`, with the plate `p`, in zone `z` (R70). -/
def ReadyToStart (s : State) (z : Nat) (n : Nest) (p : Piece) : Prop :=
  (s.zone z).nest = some n ∧ n.state = .staged ∧ (s.table (zoneTable z)).active = none ∧ s.ppn.mode = .opened ∧
    (s.zone z).phase = .loaded ∧ n.plate ∈ (s.bed z).pieces ∧ (s.zone z).inbound = none ∧ s.names n.plate p ∧
    p.move = none

/-- The state once the nest `n` of zone `z`, with the plate `p`, is activated (R71). -/
def started (s : State) (z : Nat) (n : Nest) (p : Piece) : State :=
  let t := s.setZone z { s.zone z with phase := .cutting, nest := some { n with state := .active } }
  let t := t.setRecord n.plate.index ⟨n.plate.gen, some { p with state := .inCut }⟩
  t.setTable (zoneTable z) { s.table (zoneTable z) with active := some (zoneBed z) }

/-- The same by the chain: the flag is cleared and ZONE_SWITCHED raised (R76, R78). -/
def switched (s : State) (z : Nat) (n : Nest) (p : Piece) : State :=
  raise ((started s z n p).setTable (zoneTable z) ⟨some (zoneBed z), false⟩) (.table (zoneTable z)) .zoneSwitched

/-- What the close of the nest `n` of zone `k`, with the plate `p`, leaves before the chain step, and the nest as it
closes (R74): the plate is retired, the declarations become remnants or are dropped (R75), the zone is CUT, the nest
CLOSED, the table without an active zone, and NEST_CLOSED raised. -/
def closedNest (s : State) (k : Nat) (n : Nest) (p : Piece) : State × Nest :=
  let r := createRemnants (retire s n.plate) p k n.decls
  let m : Nest := { n with state := .closed, decls := r.2 }
  let t := r.1.setZone k ⟨.cut, some m, (s.zone k).inbound⟩
  let t := t.setTable (zoneTable k) { s.table (zoneTable k) with active := none }
  (raise t (.table (zoneTable k)) .nestClosed, m)

/-- The close of the nest `n` of zone `k`, with the plate `p`, ends in a state and a closed nest of which `tells` tells:
after the chain step, which starts the other zone's nest where the chain flag is set and that nest is ready (R74,
R76). -/
def ClosesTo (s : State) (k : Nat) (n : Nest) (p : Piece) (tells : Nest → State → Prop) : Prop :=
  let t := (closedNest s k n p).1
  let m := (closedNest s k n p).2
  ((s.table (zoneTable k)).chain = false ∨ startOk t (otherZone k) = false → tells m t) ∧
  ∀ x q, (s.table (zoneTable k)).chain = true → ReadyToStart t (otherZone k) x q → tells m (switched t (otherZone k) x q)

/-- The pending start check of table `T` ends in a state of which `tells` tells (R78): nothing is started where the chain
flag is clear, the table has an active zone or neither zone's nest is ready; else the first of zones A and B whose nest
is ready. -/
def PendingStartTo (s : State) (T : Nat) (tells : State → Prop) : Prop :=
  ((s.table T).chain = false ∨ (s.table T).active ≠ none ∨
    (startOk s (2 * T) = false ∧ startOk s (2 * T + 1) = false) → tells s) ∧
  (∀ n p, (s.table T).chain = true → ReadyToStart s (2 * T) n p → tells (switched s (2 * T) n p)) ∧
  ∀ n p, (s.table T).chain = true → startOk s (2 * T) = false → ReadyToStart s (2 * T + 1) n p →
    tells (switched s (2 * T + 1) n p)

/-! ## Canonical banks -/

/-- Every bank of the state is in canonical form (log 35). -/
def Canonical (s : State) : Prop :=
  (bankWf (fun _ => PieceRecord.reset) s.srg.records ∧ bankWf (fun _ => DirEntry.empty) s.srg.primary ∧
    bankWf (fun _ => SpillGroup.reset) s.srg.groups) ∧
  (bankWf (fun _ => Slot.reset) s.lmap.slots ∧ bankWf (fun _ => BedRec.reset) s.lmap.beds ∧
    bankWf (fun _ => none) s.lmap.hooks) ∧
  (bankWf (fun _ => Table.reset) s.tbc.tables ∧ bankWf (fun _ => Zone.reset) s.tbc.zones ∧
    bankWf (fun _ => Marks.reset) s.mkd.marks) ∧
  (bankWf (fun _ => Burn.reset) s.bsv.burns ∧ bankWf (fun _ => false) s.bsv.grantHeld ∧
    bankWf (fun _ => Monitor.reset) s.bsv.monitors ∧ bankWf Torch.reset s.bsv.torches) ∧
  (bankWf (fun _ => Channel.reset) s.rsu.channels ∧ bankWf Axis.reset s.rsu.axes ∧
    bankWf (fun _ => Hoist.reset) s.rsu.hoists ∧ bankWf (fun _ => CraneSample.reset) s.rsu.latest.cranes ∧
    ∀ cl, s.rsu.collecting = some cl →
      bankWf (fun _ => ReadOutcome.failed .disabled) cl.reads ∧ bankWf (fun _ => Latch.reset) cl.latches) ∧
  (bankWf (fun _ => CraneClear.reset) s.clu.cranes ∧ bankWf (fun _ => Pair.reset) s.clu.pairs ∧
    bankWf (fun _ => []) s.clu.intruders) ∧
  (bankWf (fun _ => []) s.mvc.queues ∧ bankWf (fun _ => none) s.mvc.ended) ∧
  bankWf (fun _ => Station.reset) s.slc.stations ∧ bankWf (fun _ => none) s.ppn.notices

/-! ## The key directory (R9) -/

/-- The items of a group, slot by slot. -/
def SpillGroup.items (v : SpillGroup) : List DirItem := v.slots.filterMap id

/-- The shape R9 gives the directory: a key stands under its own hash; a group named by an entry is one of the 512, in
use, of four slots, and holds two to four keys, none twice; and a group in use belongs to exactly one entry. -/
def DirectoryShape (g : Srg) : Prop :=
  (∀ i it, dirEntry g i = .direct it → keyHash it.key = i) ∧
  (∀ i n, dirEntry g i = .spill n →
    n < Config.spillGroups ∧ (spillGroup g n).inUse = true ∧ (spillGroup g n).slots.length = 4 ∧
      2 ≤ (spillGroup g n).items.length ∧ ((spillGroup g n).items.map (·.key)).Nodup ∧
      ∀ it ∈ (spillGroup g n).items, keyHash it.key = i) ∧
  (∀ i j n, dirEntry g i = .spill n → dirEntry g j = .spill n → i = j) ∧
  ∀ n, (spillGroup g n).inUse = true → ∃ i, dirEntry g i = .spill n

/-- The directory holds exactly one entry for each live piece (R9): the handle it gives for a key is that of the live
piece that carries the key, and it gives one for every live piece. -/
def DirectoryAgrees (g : Srg) : Prop :=
  ∀ k h, dirLookup g k = some h ↔
    ∃ p, bankGet (fun _ => PieceRecord.reset) g.records h.index = ⟨h.gen, some p⟩ ∧ p.key = k

/-- The registry is sound: the directory has its shape and agrees with the records (R9). -/
def RegistrySound (s : State) : Prop := DirectoryShape s.srg ∧ DirectoryAgrees s.srg

/-! ## Torch permissives (R96, R97) -/

/-- Every binding of the station table names a unit of its role (R177). -/
def BindingsOk (s : State) : Prop := ∀ a r u, (s.station a).binding = some (r, u) → unitOk r u = true

/-- A table's torch permissive is on exactly while the table is GRANTED and holds a grant, which is so only in the OPEN
hall; and a zone's grant-held flag is set exactly while its table holds a grant on its bed (R96, R97). -/
def TorchSafe (s : State) : Prop :=
  (∀ t, ((s.burn t).permissive = true ↔ (s.burn t).state = .granted) ∧
    ((s.burn t).state = .granted ↔ (s.burn t).grant.isSome = true) ∧
    ((s.burn t).permissive = true → t < 6 ∧ s.ppn.mode = .opened)) ∧
  ∀ z, s.grantHeld z = true ↔ ∃ g, (s.burn (zoneTable z)).grant = some g ∧ g.ref.zone (zoneTable z) = z

/-! ## Travel permissives (R141, R151) -/

/-- The permissive of a crane in a direction (R141). -/
def CraneClear.permissive (v : CraneClear) : Dir → Permissive
  | .w => v.pW
  | .e => v.pE
  | .n => v.pN
  | .s => v.pS

/-- A travel permissive that is on is one of a crane the part has, and no condition of R151, as `condsOf` reads them (logs 22,
23 and 44), holds it off. -/
def TravelSafe (s : State) : Prop :=
  ∀ c d, ((s.crane c).permissive d).on = true → c < 3 ∧ condsOf s true c d = []

end Sys2Proof.Machine
end

