-- ==== Sys2Proof/Certificates/Slice0/Obligations.lean ====
section
/-! DEFINITION. The statements for the provers, block by block. Each says in its docstring which rule of spec/ it follows;
where it rests on a choice of the model, it names the log entry. That a refusal carries no record (`Refuses`,
`StationRefuses`) is the model's reading throughout (log 4). -/

open Sys2Proof Sys2Proof.Machine

/-! ## The machine as a whole -/

/-- A step takes the command at the front of the queue and does what it does to the rest. -/
def Obligations.StepTakesTheFrontCommand : Prop :=
  ∀ (c : Instr) (s : State), step { s with pending := c :: s.pending } = exec c s

/-- Every command gives a next state, in every state (log 37), and none touches the queue, DEVICE_RESET included (log 31).
With no command waiting the part stays as it is (log 1). All three are the model's own choices. -/
def Obligations.EveryCommandGivesANextState : Prop :=
  (∀ (c : Instr) (s : State), ∃ t, exec c s = .next t ∧ t.pending = s.pending) ∧
  (∀ s : State, s.pending = [] → step s = .next s)

/-- Every command keeps every bank in canonical form (log 35, the model's choice of form). -/
def Obligations.StepKeepsBanksCanonical : Prop := ∀ s t : State, Canonical s → step s = .next t → Canonical t

/-- Every command keeps the key directory in its shape and in agreement with the piece records. -/
def Obligations.StepKeepsRegistrySound : Prop :=
  ∀ s t : State, Canonical s → RegistrySound s → step s = .next t → RegistrySound t

/-- Every command keeps the torch permissives and the grant-held flags with the grants.
Every command keeps the bindings of the station table to units of their roles. -/
def Obligations.StepKeepsTorchSafe : Prop :=
  (∀ s t : State, Canonical s → BindingsOk s → TorchSafe s → step s = .next t → TorchSafe t) ∧
  (∀ s t : State, BindingsOk s → step s = .next t → BindingsOk t)

/-- Every command keeps every travel permissive that is on free of the conditions of R151, as the model reads them: ORDER_FAULT
is a fault of a pair of the crane's own and not the neighbour's from its other pair, by the table of R151 and against a
paragraph of it (log 44); what a stale neighbour leaves unjudged (log 22); the keep-out terms with Y STALE (log 23). -/
def Obligations.StepKeepsTravelSafe : Prop := ∀ s t : State, TravelSafe s → step s = .next t → TravelSafe t

/-- After device reset every bank is in canonical form.
After device reset the directory is sound.
After device reset the bindings, the torch permissives and the travel permissives are as they are kept (the conditions of a
travel permissive by logs 22, 23 and 44). -/
def Obligations.ResetMeetsTheInvariants : Prop :=
  (Canonical State.reset) ∧
  (RegistrySound State.reset) ∧
  (BindingsOk State.reset ∧ TorchSafe State.reset ∧ TravelSafe State.reset)

/-! ## The piece registry -/

/-- The hash of a key, and the four worked sequences of R10. -/
def Obligations.KeyHashIsStated : Prop :=
  (∀ k : Key, keyHash k =
    (k.heat ++ [k.seq / 256, k.seq % 256]).foldl (fun v b => (v * 31 + b) % 4096) 0) ∧
  ∀ n ∈ [93, 318, 543, 768], keyHash ⟨[75, 55, 45, 52, 48, 50, 49, 53], n⟩ = 3126

/-- An insert by the table of R12, entry by entry; a refused insert gives no directory. -/
def Obligations.InsertFollowsTheTable : Prop :=
  ∀ (g : Srg) (k : Key) (h : Handle),
    (dirEntry g (keyHash k) = .empty → dirInsert g k h = .ok (setDirEntry g (keyHash k) (.direct ⟨k, h⟩))) ∧
    (∀ it, dirEntry g (keyHash k) = .direct it →
      (it.key = k → dirInsert g k h = .error .duplicateKey) ∧
      (it.key ≠ k → (∀ n, n < 512 → (spillGroup g n).inUse = true) → dirInsert g k h = .error .directoryFull) ∧
      ∀ n, it.key ≠ k → n < 512 → (spillGroup g n).inUse = false → (∀ m, m < n → (spillGroup g m).inUse = true) →
        dirInsert g k h = .ok (setDirEntry (setSpillGroup g n ⟨true, [some it, some ⟨k, h⟩, none, none]⟩) (keyHash k)
          (.spill n))) ∧
    ∀ n, dirEntry g (keyHash k) = .spill n →
      ((∃ it, some it ∈ (spillGroup g n).slots ∧ it.key = k) → dirInsert g k h = .error .duplicateKey) ∧
      ((∀ o ∈ (spillGroup g n).slots, ∃ it, o = some it ∧ it.key ≠ k) → dirInsert g k h = .error .directoryFull) ∧
      ∀ before after, (spillGroup g n).slots = before ++ none :: after → (∀ o ∈ before, o ≠ none) →
        (∀ it, some it ∈ (spillGroup g n).slots → it.key ≠ k) →
        dirInsert g k h = .ok (setSpillGroup g n ⟨true, before ++ some ⟨k, h⟩ :: after⟩)

/-- In a directory of the shape of R9, an insert makes its key found, a delete makes it lost, and neither changes what any
other key finds; a key is refused as a duplicate exactly when it is found.
A delete by R13: a group left with one key gives its entry back as DIRECT and becomes free with every slot empty; a group
left with two or three keeps them in their slots. -/
def Obligations.DirectoryFindsWhatItHolds : Prop :=
  ∀ (g : Srg) (k : Key) (h : Handle), DirectoryShape g →
    (∀ g', dirInsert g k h = .ok g' →
      DirectoryShape g' ∧ dirLookup g' k = some h ∧ ∀ j, j ≠ k → dirLookup g' j = dirLookup g j) ∧
    (dirInsert g k h = .error .duplicateKey ↔ (dirLookup g k).isSome = true) ∧
    DirectoryShape (dirDelete g k) ∧ dirLookup (dirDelete g k) k = none ∧
    (∀ j, j ≠ k → dirLookup (dirDelete g k) j = dirLookup g j) ∧
    ∀ n, dirEntry g (keyHash k) = .spill n →
      let rest := (spillGroup g n).items.filter fun it => it.key ≠ k
      (∀ it, rest = [it] → spillGroup (dirDelete g k) n = ⟨false, [none, none, none, none]⟩ ∧
        dirEntry (dirDelete g k) (keyHash k) = .direct it) ∧
      (2 ≤ rest.length → dirEntry (dirDelete g k) (keyHash k) = .spill n ∧ spillGroup (dirDelete g k) n =
        ⟨true, (spillGroup g n).slots.map fun o => if o.any fun it => it.key = k then none else o⟩)

/-- The checks of a handle in their order, by READ_PIECE from the host: RANGE, STALE, NOT_FOUND, or the record.
READ_PIECE and LOOKUP_KEY from a station of any role, and LOOKUP_KEY from the host: the record, with the handle the
directory gives for the key; in every hall mode, and nothing changes but the turn or the reply.
LOOKUP_KEY of a key out of range, and of a key no live piece carries, from either sender (R20).
The same checks of a handle (R2) by RETIRE_PIECE, SET_HOLD, RELEASE_HOLD, RESERVE_PIECE, UNRESERVE_PIECE and QUEUE_MOVE,
and from a station by READ_PIECE.
The place and the count of a piece in its row or stack, and the number of pieces above it (R1, R26). -/
def Obligations.HandlesNameLivePieces : Prop :=
  (∀ (s : State) (h : Handle),
    (2047 < h.index → Refuses (.readPiece .host h) s .readPiece .range) ∧
    (h.index ≤ 2047 → (s.record h.index).gen ≠ h.gen → Refuses (.readPiece .host h) s .readPiece .stale) ∧
    (h.index ≤ 2047 → s.record h.index = ⟨h.gen, none⟩ → Refuses (.readPiece .host h) s .readPiece .notFound) ∧
    ∀ p, s.names h p → Answers (.readPiece .host h) s .readPiece .ok (.piece (pieceView s h p)) s) ∧
  (∀ (s : State) (h : Handle) (p : Piece) (a : Nat) (r : Role) (u : Nat), s.names h p →
    (s.serves a r u →
      StationAnswers (.readPiece .station h) s a .readPiece .ok (.piece (pieceView s h p)) (answering s a)) ∧
    ∀ k, heatOk k.heat = true → 1 ≤ k.seq → k.seq ≤ 65535 → k.seq ≠ 32768 → dirLookup s.srg k = some h →
      Answers (.lookupKey .host k) s .lookupKey .ok (.keyed h (pieceView s h p)) s ∧
      (s.serves a r u → StationAnswers (.lookupKey .station k) s a .lookupKey .ok (.keyed h (pieceView s h p))
        (answering s a))) ∧
  (∀ (s : State) (k : Key) (a : Nat) (r : Role) (u : Nat),
    let fields := heatOk k.heat = true ∧ (1 ≤ k.seq ∧ k.seq ≤ 65535) ∧ k.seq ≠ 32768
    let both (st : Status) : Prop := Refuses (.lookupKey .host k) s .lookupKey st ∧
      (s.serves a r u → StationRefuses (.lookupKey .station k) s a .lookupKey st)
    (¬ fields → both .range) ∧ (fields → dirLookup s.srg k = none → both .notFound)) ∧
  (∀ (s : State) (h : Handle) (tag c : Nat) (l : LocArg) (d : Dest) (a : Nat) (r : Role) (u : Nat),
    let all (st : Status) : Prop :=
      (∀ x ∈ [(Instr.retirePiece h, ReqKind.retirePiece), (.setHold h, .setHold), (.releaseHold h, .releaseHold),
        (.reservePiece h tag, .reservePiece), (.unreservePiece h tag, .unreservePiece)], Refuses x.1 s x.2 st) ∧
      (destArg? l = some d → c ≤ 2 → (s.queue c).length < 16 → Refuses (.queueMove c h l) s .queueMove st) ∧
      (s.serves a r u → StationRefuses (.readPiece .station h) s a .readPiece st)
    (2047 < h.index → all .range) ∧ (h.index ≤ 2047 → (s.record h.index).gen ≠ h.gen → all .stale) ∧
    (h.index ≤ 2047 → s.record h.index = ⟨h.gen, none⟩ → all .notFound)) ∧
  (∀ (s : State) (h : Handle) (p : Piece) (below above : List Handle), h ∉ below →
    let lies : PieceView := ⟨h, p, below.length, below.length + 1 + above.length⟩
    (∀ n, p.place = .slot n → (s.slot n).stack = below ++ h :: above →
      pieceView s h p = lies ∧ pieceDepth s h p = above.length) ∧
    (p.place = .receiving → s.lmap.receiving = below ++ h :: above → pieceView s h p = lies) ∧
    (pieceView s h p).handle = h ∧ (pieceView s h p).piece = p ∧
    (s.names h p → viewOf s h = some (pieceView s h p)))

/-- ENROL_PLATE by R15: the refusals in their order, and the plate created in the lowest free record at the end of the row,
with the area and mass of R8 and the creation sequence of R6.
A heat code by the letter of R5.
The creation sequence drawn is the first, from the counter on, that no live piece carries (R6). -/
def Obligations.EnrolPlateCreates : Prop :=
  (∀ (s : State) (key : Key) (grade thickness len wid : Nat),
    let c := Instr.enrolPlate key grade thickness len wid
    let fields := heatOk key.heat = true ∧ (1 ≤ key.seq ∧ key.seq ≤ 32767) ∧ grade ≤ 63 ∧
      (30 ≤ thickness ∧ thickness ≤ 1000) ∧ (1000 ≤ len ∧ len ≤ 18000) ∧ 500 ≤ wid ∧ wid ≤ 4800
    (s.ppn.mode = .stopped → Refuses c s .enrolPlate .wrongMode) ∧
    (s.ppn.mode ≠ .stopped → ¬ fields → Refuses c s .enrolPlate .range) ∧
    (s.ppn.mode ≠ .stopped → fields → 32 ≤ s.lmap.receiving.length → Refuses c s .enrolPlate .noRoom) ∧
    (s.ppn.mode ≠ .stopped → fields → s.lmap.receiving.length < 32 →
      ((dirLookup s.srg key).isSome = true → Refuses c s .enrolPlate .duplicateKey) ∧
      (dirLookup s.srg key = none →
        ((∀ i, i < 2048 → (s.record i).live ≠ none) → Refuses c s .enrolPlate .registryFull) ∧
        ∀ i, i < 2048 → (s.record i).live = none → (∀ j, j < i → (s.record j).live ≠ none) →
          let h : Handle := ⟨i, (s.record i).gen⟩
          (dirInsert s.srg key h = .error .directoryFull → Refuses c s .enrolPlate .directoryFull) ∧
          ∀ g, dirInsert s.srg key h = .ok g →
            let p : Piece :=
              { key := key, kind := .plate, grade := grade, thickness := thickness, len := len, wid := wid, rects := [],
                net := len * wid / 100, mass := (len * wid * thickness * 785 + 999999999) / 1000000000,
                state := .arriving, place := .receiving, reservation := none, hold := false, move := none,
                created := drawCreated s }
            let t : State := ({ s with srg := g } : State).setRecord i ⟨h.gen, some p⟩
            let t : State := { t with
              srg := { t.srg with creation := next32 (drawCreated s) },
              lmap := { s.lmap with receiving := s.lmap.receiving ++ [h] } }
            Answers c s .enrolPlate .ok (.piece (pieceView t h p)) t))) ∧
  (∀ l : List Nat, heatOk l = true ↔
    l.length = 8 ∧ ∀ c ∈ l, (65 ≤ c ∧ c ≤ 90) ∨ (48 ≤ c ∧ c ≤ 57) ∨ c = 45) ∧
  (∀ s : State, Canonical s → (∀ i, 2048 ≤ i → (s.record i).live = none) → 1 ≤ s.srg.creation →
    s.srg.creation ≤ 4294967295 →
    (∀ h p, s.names h p → p.created ≠ drawCreated s) ∧
    ∃ n, drawCreated s = next32^[n] s.srg.creation ∧
      ∀ m, m < n → ∃ h p, s.names h p ∧ p.created = next32^[m] s.srg.creation)

/-- ENROL_REMNANT by R16, in OPEN and in STOPPED: the refusals in their order, and the remnant created on the bed of the
CUT zone under the first key, from the remnant counter on, that no live piece carries (R7), and the age drawn from the
creation counter; both counters move past what was drawn. At DIRECTORY_FULL the remnant counter keeps the number of the
key that was drawn, and nothing else changes (R7, R14). -/
def Obligations.EnrolRemnantCreates : Prop :=
  ∀ (s : State) (za : ZoneArg) (z i : Nat) (heat : List Nat) (grade thickness : Nat) (d : DeclArg) (key : Key),
    let c := Instr.enrolRemnant za heat grade thickness d
    let fields := heatOk heat = true ∧ SteelFields grade thickness ∧ RemnantFields d
    (s.ppn.mode = .cold → Refuses c s .enrolRemnant .wrongMode) ∧
    (s.ppn.mode ≠ .cold → zoneArg? za = none ∨ ¬ fields → Refuses c s .enrolRemnant .range) ∧
    (s.ppn.mode ≠ .cold → zoneArg? za = some z → fields →
      ((s.zone z).phase ≠ .cut → Refuses c s .enrolRemnant .badState) ∧
      ((s.zone z).phase = .cut → 2 ≤ (s.bed z).pieces.length → Refuses c s .enrolRemnant .noRoom) ∧
      ((s.zone z).phase = .cut → (s.bed z).pieces.length < 2 →
        (s.full → Refuses c s .enrolRemnant .registryFull) ∧
        (s.lowestFree i → s.drawsNone heat → Refuses c s .enrolRemnant .duplicateKey) ∧
        (s.lowestFree i → s.drawsKey heat key →
          (dirInsert s.srg key (s.handleAt i) = .error .directoryFull →
            Answers c s .enrolRemnant .directoryFull .none (withoutRemnant s key)) ∧
          ∀ g, dirInsert s.srg key (s.handleAt i) = .ok g →
            let p := remnantAt s z key grade thickness d
            let t := withRemnant s z i g p
            Answers c s .enrolRemnant .ok (.piece (pieceView t (s.handleAt i) p)) t)))

/-- RESTORE_PIECE by R17 and R18: taken in COLD only; the refusals in their order, by the fields, by the creation sequence,
by the location and by the registry.
RESTORE_PIECE at each kind of location: the piece stands there in the state that belongs with it; a zone becomes LOADED,
and a hook's crane receives the SUSPENDED move that the piece names.
The piece that the fields describe, with the area and mass of R8; none where a field is out of range.
The place that a location names; none where it is out of range, or of no form of R194 (log 33). -/
def Obligations.RestorePieceRestores : Prop :=
  (∀ (s : State) (a : RestoreArg),
    let c := Instr.restorePiece a
    (s.ppn.mode ≠ .cold → Refuses c s .restorePiece .wrongMode) ∧
    (s.ppn.mode = .cold → (placeArg? a.loc = none ∨ ∃ pl, placeArg? a.loc = some pl ∧ restored a pl = none) →
      Refuses c s .restorePiece .range)) ∧
  (∀ (s : State) (a : RestoreArg) (p : Piece) (pl : Place) (i : Nat),
    let c := Instr.restorePiece a
    let no (st : Status) : Prop := Refuses c s .restorePiece st
    s.ppn.mode = .cold → placeArg? a.loc = some pl → restored a pl = some p →
      (createdInUse s p.created = true → no .badState) ∧
      (createdInUse s p.created = false →
        (pl = .receiving → 32 ≤ s.lmap.receiving.length → no .noRoom) ∧
        (∀ n, pl = .slot n →
          ((s.slot n).enabled = false → no .badState) ∧
          ((s.slot n).enabled = true → (12 < (s.slot n).stack.length + (s.slot n).inCount + 1 ∨
            6000 < (s.slot n).height + (s.slot n).inThick + p.thickness) → no .noRoom)) ∧
        (∀ z, pl = .zone z →
          let busy := (s.bed z).pieces ≠ [] ∨ (s.zone z).inbound ≠ none ∨
            ∃ n, (s.zone z).nest = some n ∧ n.state = .staged
          ((s.bed z).configured = false → no .badState) ∧
          ((s.bed z).configured = true → busy → no .occupied) ∧
          ((s.bed z).configured = true → ¬ busy → (s.zone z).phase ≠ .clear → no .badState)) ∧
        (∀ x, pl = .hook x →
          let busy := s.hook x ≠ none ∨ ∃ m q, s.queue x = m :: q ∧ m.state ≠ .queued
          (busy → no .occupied) ∧ (¬ busy → (s.crane x).capacity < p.mass → no .overweight) ∧
          (¬ busy → p.mass ≤ (s.crane x).capacity → 16 ≤ (s.queue x).length → no .queueFull)) ∧
        let fits :=
          (pl = .receiving ∧ s.lmap.receiving.length < 32) ∨
          (∃ n, pl = .slot n ∧ (s.slot n).enabled = true ∧ (s.slot n).stack.length + (s.slot n).inCount + 1 ≤ 12 ∧
            (s.slot n).height + (s.slot n).inThick + p.thickness ≤ 6000) ∨
          (∃ z, pl = .zone z ∧ (s.bed z).configured = true ∧ (s.bed z).pieces = [] ∧ (s.zone z).inbound = none ∧
            (∀ n, (s.zone z).nest = some n → n.state ≠ .staged) ∧ (s.zone z).phase = .clear) ∨
          ∃ x, pl = .hook x ∧ s.hook x = none ∧ (∀ m q, s.queue x = m :: q → m.state = .queued) ∧
            p.mass ≤ (s.crane x).capacity ∧ (s.queue x).length < 16
        (fits → dirLookup s.srg p.key ≠ none → no .duplicateKey) ∧
        (fits → dirLookup s.srg p.key = none → s.full → no .registryFull) ∧
        (fits → dirLookup s.srg p.key = none → s.lowestFree i →
          dirInsert s.srg p.key (s.handleAt i) = .error .directoryFull → no .directoryFull))) ∧
  (∀ (s : State) (a : RestoreArg) (p : Piece) (pl : Place) (i : Nat) (g : Srg),
    let c := Instr.restorePiece a
    let h := s.handleAt i
    let after (p : Piece) : State :=
      let t : State := ({ s with srg := g } : State).setRecord i ⟨h.gen, some p⟩
      { t with srg := { t.srg with
        creation := if s.srg.creation ≤ p.created then next32 p.created else g.creation } }
    s.ppn.mode = .cold → placeArg? a.loc = some pl → restored a pl = some p → createdInUse s p.created = false →
    dirLookup s.srg p.key = none → s.lowestFree i → dirInsert s.srg p.key h = .ok g →
      (pl = .receiving → s.lmap.receiving.length < 32 →
        let t : State := { after p with lmap := { s.lmap with receiving := s.lmap.receiving ++ [h] } }
        p.state = .arriving ∧ Answers c s .restorePiece .ok (.piece (pieceView t h p)) t) ∧
      (∀ n, pl = .slot n → (s.slot n).enabled = true → (s.slot n).stack.length + (s.slot n).inCount + 1 ≤ 12 →
        (s.slot n).height + (s.slot n).inThick + p.thickness ≤ 6000 →
        let t := (after p).setSlot n { s.slot n with
          stack := (s.slot n).stack ++ [h], height := (s.slot n).height + p.thickness }
        p.state = .stored ∧ Answers c s .restorePiece .ok (.piece (pieceView t h p)) t) ∧
      (∀ z, pl = .zone z → (s.bed z).configured = true → (s.bed z).pieces = [] → (s.zone z).inbound = none →
        (∀ n, (s.zone z).nest = some n → n.state ≠ .staged) → (s.zone z).phase = .clear →
        let t := ((after p).setBed z { s.bed z with pieces := [h] }).setZone z { s.zone z with phase := .loaded }
        p.state = .onTable ∧ Answers c s .restorePiece .ok (.piece (pieceView t h p)) t) ∧
      ∀ x, pl = .hook x → s.hook x = none → (∀ m q, s.queue x = m :: q → m.state = .queued) →
        p.mass ≤ (s.crane x).capacity → (s.queue x).length < 16 →
        let id := drawMoveId s
        let q := { p with move := some id }
        let t := ((after q).setHook x (some h)).setQueue x (⟨id, h, none, .suspended⟩ :: s.queue x)
        let t : State := { t with mvc := { t.mvc with nextId := if id < 65535 then id + 1 else 1 } }
        p.state = .inTransit ∧ Answers c s .restorePiece .ok (.piece (pieceView t h q)) t) ∧
  (∀ (a : RestoreArg) (pl : Place),
    let common := SteelFields a.grade a.thickness ∧ 1 ≤ a.created ∧ a.created ≤ 4294967295 ∧
      heatOk a.key.heat = true
    let plate := a.kind = 0 ∧ (1 ≤ a.key.seq ∧ a.key.seq ≤ 32767) ∧ OutlineFields a.len a.wid
    let remnant := a.kind = 1 ∧ (32769 ≤ a.key.seq ∧ a.key.seq ≤ 65535) ∧ RemnantFields ⟨a.len, a.wid, a.rects, a.net⟩
    let piece (kind : Kind) (rects : List Rect) (net mass : Nat) : Piece :=
      { key := a.key, kind := kind, grade := a.grade, thickness := a.thickness, len := a.len, wid := a.wid,
        rects := rects, net := net, mass := mass,
        state := match pl with
          | .receiving => .arriving
          | .slot _ => .stored
          | .zone _ => .onTable
          | .hook _ => .inTransit,
        place := pl, reservation := none, hold := a.hold, move := none, created := a.created }
    (¬ (common ∧ (plate ∨ remnant)) → restored a pl = none) ∧
    (common → plate → restored a pl = some
      (piece .plate [] (a.len * a.wid / 100) ((a.len * a.wid * a.thickness * 785 + 999999999) / 1000000000))) ∧
    (common → remnant → restored a pl = some
      (piece .remnant a.rects a.net ((a.net * a.thickness * 785 + 9999999) / 10000000)))) ∧
  (∀ (l : LocArg) (pl : Place), placeArg? l = some pl ↔
    (l = .receiving ∧ pl = .receiving) ∨
    (∃ x, l = .slot x ∧ x.bay ≤ 9 ∧ x.slot ≤ 15 ∧ pl = .slot (16 * x.bay + x.slot)) ∨
    (∃ x, l = .zone x ∧ x.table ≤ 5 ∧ x.bed ≤ 1 ∧ pl = .zone (2 * x.table + x.bed)) ∨
    ∃ x, l = .hook x ∧ x ≤ 2 ∧ pl = .hook x)

/-- RETIRE_PIECE by R19 and R4: the refusals in their order; the record is free at the next generation, the key gone, and
the pieces above or after it close up; and the old handle is STALE in the state it leaves, as in every state in which the
record stands at another generation. -/
def Obligations.RetirePieceFreesTheRecord : Prop :=
  ∀ (s : State) (h : Handle) (p : Piece), s.names h p →
    let c := Instr.retirePiece h
    (p.state ≠ .stored → p.state ≠ .arriving → Refuses c s .retirePiece .badState) ∧
    (p.state = .stored ∨ p.state = .arriving →
      (p.move ≠ none → Refuses c s .retirePiece .badState) ∧
      (p.move = none → (∃ tag, p.reservation = some ⟨.nest, tag⟩) → Refuses c s .retirePiece .badState) ∧
      (p.move = none → (∀ tag, p.reservation ≠ some ⟨.nest, tag⟩) →
        let freed (t : State) : State :=
          ({ t with srg := dirDelete s.srg p.key } : State).setRecord h.index ⟨(h.gen + 1) % 256, none⟩
        (∀ n, p.place = .slot n →
          (0 < (s.slot n).inCount ∨ 0 < (s.slot n).outCount → Refuses c s .retirePiece .occupied) ∧
          ((s.slot n).inCount = 0 → (s.slot n).outCount = 0 →
            let t := freed (s.setSlot n { s.slot n with
              stack := (s.slot n).stack.filter (· ≠ h), height := (s.slot n).height - p.thickness })
            Answers c s .retirePiece .ok (.piece (pieceView s h p)) t ∧
              (h.gen < 256 → Refuses (.readPiece .host h) t .readPiece .stale))) ∧
        (p.place = .receiving →
          let t := freed { s with lmap := { s.lmap with receiving := s.lmap.receiving.filter (· ≠ h) } }
          Answers c s .retirePiece .ok (.piece (pieceView s h p)) t ∧
            (h.gen < 256 → Refuses (.readPiece .host h) t .readPiece .stale)) ∧
        ∀ t : State, (t.record h.index).gen ≠ h.gen → Refuses (.readPiece .host h) t .readPiece .stale))

/-- SET_HOLD and RELEASE_HOLD: the flag is as asked, in every hall mode and every state of the piece, and nothing else
changes.
RESERVE_PIECE by R23: its checks in order, and the reservation it leaves.
UNRESERVE_PIECE by R24: it removes the HOST reservation of its tag, and refuses every other. -/
def Obligations.HoldsAndReservations : Prop :=
  (∀ (s : State) (h : Handle) (p : Piece), s.names h p →
    (let t := s.setRecord h.index ⟨h.gen, some { p with hold := true }⟩
     Answers (.setHold h) s .setHold .ok (.piece (pieceView t h { p with hold := true })) t) ∧
    let t := s.setRecord h.index ⟨h.gen, some { p with hold := false }⟩
    Answers (.releaseHold h) s .releaseHold .ok (.piece (pieceView t h { p with hold := false })) t) ∧
  (∀ (s : State) (h : Handle) (p : Piece) (tag : Nat), s.names h p →
    let c := Instr.reservePiece h tag
    (tag = 0 → Refuses c s .reservePiece .range) ∧
    (tag ≠ 0 →
      (p.reservation = some ⟨.host, tag⟩ → Answers c s .reservePiece .ok (.piece (pieceView s h p)) s) ∧
      (∀ r, p.reservation = some r → r ≠ ⟨.host, tag⟩ → Refuses c s .reservePiece .badState) ∧
      (p.reservation = none → p.hold = true → Refuses c s .reservePiece .badState) ∧
      (p.reservation = none → p.hold = false → p.state ≠ .stored → p.state ≠ .arriving →
        Refuses c s .reservePiece .badState) ∧
      (p.reservation = none → p.hold = false → p.state = .stored ∨ p.state = .arriving →
        let q := { p with reservation := some ⟨.host, tag⟩ }
        let t := s.setRecord h.index ⟨h.gen, some q⟩
        Answers c s .reservePiece .ok (.piece (pieceView t h q)) t))) ∧
  (∀ (s : State) (h : Handle) (p : Piece) (tag : Nat), s.names h p →
    let c := Instr.unreservePiece h tag
    (p.reservation ≠ some ⟨.host, tag⟩ → Refuses c s .unreservePiece .badState) ∧
    (p.reservation = some ⟨.host, tag⟩ →
      let q := { p with reservation := none }
      let t := s.setRecord h.index ⟨h.gen, some q⟩
      Answers c s .unreservePiece .ok (.piece (pieceView t h q)) t))

/-! ## Locations -/

/-- SET_SLOT, SET_ZONE and SET_RECEIVING by R37 to R39: their refusals in order, and the figures they leave. That
SET_RECEIVING checks the mode before the range is the model's choice (log 64).
READ_SLOT and READ_RECEIVING: the record as it stands, with the pick-lock and the room left, and nothing changes; a stack
or row is listed in its order, each live piece with its place (R40, R41).
The room test of R30, case by case. -/
def Obligations.LocationsAreConfiguredAndRead : Prop :=
  (∀ s : State,
    (∀ (a : SlotArg) (x y : Nat) (e : Bool),
      let c := Instr.setSlot a x y e
      let n := 16 * a.bay + a.slot
      (9 < a.bay ∨ 15 < a.slot ∨ 400000 < x ∨ 60000 < y → Refuses c s .setSlot .range) ∧
      (a.bay ≤ 9 → a.slot ≤ 15 → x ≤ 400000 → y ≤ 60000 →
        (s.ppn.mode ≠ .cold → (s.slot n).x ≠ x ∨ (s.slot n).y ≠ y → Refuses c s .setSlot .wrongMode) ∧
        (s.ppn.mode = .cold ∨ ((s.slot n).x = x ∧ (s.slot n).y = y) →
          let t := s.setSlot n { s.slot n with x := x, y := y, enabled := e }
          Answers c s .setSlot .ok (.slot (slotView t n)) t))) ∧
    (∀ (z : ZoneArg) (x y x0 x1 y0 y1 : Nat),
      let c := Instr.setZone z x y x0 x1 y0 y1
      let k := 2 * z.table + z.bed
      let good := z.table ≤ 5 ∧ z.bed ≤ 1 ∧ x ≤ 400000 ∧ x0 ≤ 400000 ∧ x1 ≤ 400000 ∧ y ≤ 60000 ∧ y0 ≤ 60000 ∧
        y1 ≤ 60000 ∧ x0 < x1 ∧ y0 < y1 ∧ x0 ≤ x ∧ x ≤ x1 ∧ y0 ≤ y ∧ y ≤ y1
      (s.ppn.mode ≠ .cold → Refuses c s .setZone .wrongMode) ∧
      (s.ppn.mode = .cold → ¬ good → Refuses c s .setZone .range) ∧
      (s.ppn.mode = .cold → good →
        Answers c s .setZone .ok (.geometry ⟨x, y, x0, x1, y0, y1⟩)
          (s.setBed k ⟨(s.bed k).pieces, x, y, x0, x1, y0, y1, true⟩))) ∧
    ∀ x y : Nat,
      (s.ppn.mode ≠ .cold → Refuses (.setReceiving x y) s .setReceiving .wrongMode) ∧
      (s.ppn.mode = .cold → 400000 < x ∨ 60000 < y → Refuses (.setReceiving x y) s .setReceiving .range) ∧
      (s.ppn.mode = .cold → x ≤ 400000 → y ≤ 60000 →
        let t : State := { s with lmap := { s.lmap with recvX := x, recvY := y } }
        Answers (.setReceiving x y) s .setReceiving .ok (.row (rowView t)) t)) ∧
  (∀ s : State,
    (∀ a : SlotArg,
      (9 < a.bay ∨ 15 < a.slot → Refuses (.readSlot a) s .readSlot .range) ∧
      (a.bay ≤ 9 → a.slot ≤ 15 →
        let n := 16 * a.bay + a.slot
        Answers (.readSlot a) s .readSlot .ok (.slot (slotView s n)) s)) ∧
    (∀ n,
      let v := s.slot n
      slotView s n =
        { x := v.x, y := v.y, enabled := v.enabled, pickLock := 0 < v.outCount, count := v.stack.length,
          height := v.height, inCount := v.inCount, inThick := v.inThick, outCount := v.outCount,
          roomCount := 12 - v.stack.length - v.inCount, roomHeight := 6000 - v.height - v.inThick,
          stack := stackEntries s 0 v.stack }) ∧
    Answers .readReceiving s .readReceiving .ok (.row (rowView s)) s ∧
    rowView s =
      { x := s.lmap.recvX, y := s.lmap.recvY, count := s.lmap.receiving.length,
        room := 32 - s.lmap.receiving.length, pieces := stackEntries s 0 s.lmap.receiving } ∧
    ∀ (i : Nat) (h : Handle) (l : List Handle), stackEntries s i [] = [] ∧
      (s.piece? h = none → stackEntries s i (h :: l) = stackEntries s (i + 1) l) ∧
      ∀ p, s.piece? h = some p → stackEntries s i (h :: l) =
        ⟨i, h, p.key, p.kind, p.thickness, p.mass, p.hold, p.reservation.isSome, p.move⟩ :: stackEntries s (i + 1) l) ∧
  (∀ (s : State) (n t : Nat),
    (0 < (s.slot n).outCount → roomTest s n t = some .occupied) ∧
    ((s.slot n).outCount = 0 →
      ((s.slot n).enabled = false → roomTest s n t = some .occupied) ∧
      ((s.slot n).enabled = true →
        (12 < (s.slot n).stack.length + (s.slot n).inCount + 1 → roomTest s n t = some .noRoom) ∧
        ((s.slot n).stack.length + (s.slot n).inCount + 1 ≤ 12 →
          (6000 < (s.slot n).height + (s.slot n).inThick + t → roomTest s n t = some .noRoom) ∧
          ((s.slot n).height + (s.slot n).inThick + t ≤ 6000 → roomTest s n t = none)))))

/-! ## Notices and the planning port -/

/-- Raising a kind at a unit makes it pending and not seen, whatever it was, and changes no other notice (R185).
READ_NOTICES lists every pending kind of every unit once, with its enabled flag, marks it seen and clears none; a unit read
clears the kinds of its unit that are seen and
no other; a pending kind raised again is not seen, and survives the next unit read (R185, R186).
SET_NOTICE_MASK writes the whole mask, and the attention line is asserted exactly while some pending kind at some unit
is enabled, seen or not (R187). -/
def Obligations.NoticesSeenAndCleared : Prop :=
  (∀ (s : State) (u : NoticeUnit) (k : NoticeKind) (n : Nat),
    (raise s u k).notice n = if n = noticeCode u k then some false else s.notice n) ∧
  (∀ s : State, Canonical s →
    Answers .readNotices s .readNotices .ok (.notices (pendingNotices s) s.ppn.mode s.ppn.stopInput (attention s))
      (markSeen s) ∧
    (∀ v, v ∈ pendingNotices s ↔
      ∃ n, s.notice n ≠ none ∧ v = ⟨n / 32, n % 32, s.ppn.mask.getLsbD (n % 32)⟩) ∧
    (pendingNotices s).Nodup ∧
    (∀ n, (markSeen s).notice n = (s.notice n).map fun _ => true) ∧
    (∀ (u : NoticeUnit) (n : Nat),
      (unitRead s u).notice n = if n / 32 = u.code ∧ s.notice n = some true then none else s.notice n) ∧
    ∀ (u : NoticeUnit) (k : NoticeKind), u.code < 12 →
      (unitRead (raise s u k) u).notice (noticeCode u k) = some false) ∧
  (∀ (s : State) (m : BitVec 21), Canonical s →
    Answers (.setNoticeMask m) s .setNoticeMask .ok (.mask m) { s with ppn := { s.ppn with mask := m } } ∧
    (attention s = true ↔ ∃ n, s.notice n ≠ none ∧ s.ppn.mask.getLsbD (n % 32) = true))

/-- The unit reads READ_TABLE, READ_CRANE, READ_LINK and READ_SAMPLE answer OK with what R80, R171, R181 and R139 list, and
clear the seen kinds of their unit; a table or crane out of range is RANGE. The stuck-arc timer is shown as running or
not (log 41), the extents as written (log 11), and the axes of READ_SAMPLE crane by crane (log 57).
The table record of R59: its mounted torch and its stations are the record mounted on it and the addresses bound to it; where
more than one is, in states no run reaches, the first counts (log 36). -/
def Obligations.UnitReadsAnswer : Prop :=
  (∀ s : State,
    (∀ t, t ≤ 5 →
      let zone (z : Nat) : ZoneNestView := ⟨(s.zone z).phase, (s.zone z).inbound, (s.bed z).pieces, (s.zone z).nest⟩
      let torch := (mountedTorch s t).map s.torch
      Answers (.readTable t) s .readTable .ok (.fullTable
        { table := tableView s t, zoneA := zone (2 * t), zoneB := zone (2 * t + 1), marks := s.marks t,
          grant := (s.burn t).grant, ended := (s.burn t).ended, permissive := (s.burn t).permissive,
          monitor := (s.monitor t).state, stuck := (s.monitor t).stuck, torchState := torch.map (·.state),
          wear := torch.map fun v => v.starts * v.weight + v.arcTime / 100 }) (unitRead s (.table t))) ∧
    (∀ t, 5 < t → Refuses (.readTable t) s .readTable .range) ∧
    (∀ c, c ≤ 2 → ∃ v, Answers (.readCrane c) s .readCrane .ok (.fullCrane v) (unitRead s (.crane c)) ∧
      (s.hook c = none → v.hook = none) ∧
      (∀ h p, s.hook c = some h → s.piece? h = some p → v.hook = some ⟨h, p.key, p.thickness, p.mass⟩) ∧
      ((∀ m ∈ s.queue c, s.piece? m.piece ≠ none) → v.queue.map (·.move) = s.queue c) ∧
      (∀ e ∈ v.queue, ∃ p, s.piece? e.move.piece = some p ∧ e.key = p.key ∧ e.mass = p.mass ∧ e.source =
        if e.move.state = .queued ∨ e.move.state = .taken then
          some (p.place, (pieceView s e.move.piece p).pos, (pieceView s e.move.piece p).count)
        else none) ∧
      v.count = (s.queue c).length ∧ v.room = 16 - (s.queue c).length ∧ v.ended = s.endedMove c ∧
      v.seq = s.rsu.latest.seq ∧ v.sample = s.sampled c ∧ v.clear = s.crane c ∧
      (∀ z, z ∈ v.intruded ↔ z < 12 ∧ c ∈ s.intruders z) ∧
      v.pairs = if c = 0 then [s.pair 0] else if c = 1 then [s.pair 0, s.pair 1] else [s.pair 1]) ∧
    (∀ c, 2 < c → Refuses (.readCrane c) s .readCrane .range) ∧
    Answers .readLink s .readLink .ok (.link
      { stations := (List.range 31).map fun i => s.station (i + 1), list := s.slc.pollList, cursor := s.slc.cursor,
        waiting := s.slc.waiting, rate := s.slc.bitRate, window := s.slc.window,
        turn := s.slc.turn.map (·.address) }) (unitRead s .link) ∧
    Answers .readSample s .readSample .ok (.sample
      { sample := s.rsu.latest, axes := (List.range 9).map fun k => ((s.axis k).scale, (s.axis k).offset),
        channels := (List.range 6).map s.channel, hoists := (List.range 3).map s.hoist,
        period := s.clu.runway.period, staleLimit := s.clu.runway.staleLimit }) (unitRead s .hall)) ∧
  (∀ (s : State) (t : Nat),
    tableView s t =
      { active := (s.table t).active, chain := (s.table t).chain, burn := (s.burn t).state,
        torch := (mountedTorch s t).map fun n => (s.torch n).id, burnStation := boundStation s .burn t,
        markStation := boundStation s .mark t } ∧
    (∀ n, mountedTorch s t = some n ↔
      n < 12 ∧ (s.torch n).mounted = some t ∧ ∀ m, m < n → (s.torch m).mounted ≠ some t) ∧
    ∀ r a, boundStation s r t = some a ↔ 1 ≤ a ∧ a ≤ 31 ∧ (s.station a).binding = some (r, t) ∧
      ∀ b, 1 ≤ b → b < a → (s.station b).binding ≠ some (r, t))

/-- NO_OP answers OK and changes nothing; a frame that is no request puts its status in the reply buffer and changes
nothing else: UNKNOWN_REQUEST with kind 0 for a bad frame, UNKNOWN_REQUEST for a kind that is none of the host's, RANGE
for a payload too short or too long (R182, R183; logs 5 and 6 for the kinds echoed and the frames meant).
The CRC of the nine characters 123456789 (R173), and the kind a code of R197 names.
The bits of the port by R182: the most significant bit of a byte goes first; the part takes the host's bit at each rising
edge of the clock, and makes bytes of them; and what the host takes at the rising edges of a clock of whole bytes is the
buffered reply from its first byte, and 0x00 after its last. -/
def Obligations.PortAnswersEveryFrame : Prop :=
  (∀ s : State,
    Answers .noOp s .noOp .ok .none s ∧
    (let t : State := { s with ppn := { s.ppn with reply := ⟨.unknownRequest, 0, .none⟩ } }
     exec (.portBadFrame none) s = .next t) ∧
    ∀ k, (let st := if 1 ≤ k ∧ k ≤ 66 ∧ k ∉ [27, 30, 31, 32, 34, 35, 36, 52, 53, 54, 55] then Status.range
            else .unknownRequest
          let t : State := { s with ppn := { s.ppn with reply := ⟨st, k, .none⟩ } }
          exec (.portBadFrame (some k)) s = .next t)) ∧
  (Wire.crc (([49, 50, 51, 52, 53, 54, 55, 56, 57] : List Nat).map (BitVec.ofNat 8)) = 0x29B1#16 ∧
    (∀ k : ReqKind, ReqKind.ofCode k.code = some k) ∧ ∀ n, 66 < n → ReqKind.ofCode n = none) ∧
  ((∀ b : Byte, portByteBits b = [b.getLsbD 7, b.getLsbD 6, b.getLsbD 5, b.getLsbD 4, b.getLsbD 3, b.getLsbD 2, b.getLsbD 1,
      b.getLsbD 0]) ∧
    (∀ l : List Byte, portBytes (portBits l) = l ∧
      portTransaction ((portBits l).flatMap fun x => [(false, x), (true, x)]) = portCommand l) ∧
    ∀ (s : State) (n : Nat),
      let clock := (List.replicate (8 * n) [false, true]).flatten
      sampledBits false (clock.zip (portDataOut s clock)) = portBits (portShiftOut s n))

/-! ## The search engine -/

/-- A required size fits the first rectangle, in index order, that holds it unrotated or, where allowed, rotated (R48).
The candidates kept are the four best in the order of R50: a piece joins at its place behind every kept entry that it
does not sort before, and only the last of five is dropped. -/
def Obligations.FitsAndCandidates : Prop :=
  (∀ (q : SearchRequest) (p : Piece) (i : Nat) (b : Bool),
    let holds (x y : Nat) (r : Rect) : Prop := x ≤ r.len ∧ y ≤ r.wid
    let fits (r : Rect) : Prop := holds q.len q.wid r ∨ (q.rotate = true ∧ holds q.wid q.len r)
    (p.kind = .plate → tried p = [⟨0, 0, p.len, p.wid⟩]) ∧ (p.kind = .remnant → tried p = p.rects) ∧
    (fitOf q p = some (i, b) ↔ ∃ r, (tried p)[i]? = some r ∧ fits r ∧ (b = false ↔ holds q.len q.wid r) ∧
      ∀ j r', j < i → (tried p)[j]? = some r' → ¬ fits r') ∧
    (fitOf q p = none ↔ ∀ r ∈ tried p, ¬ fits r)) ∧
  ((∀ a b : Candidate, a.before b = true ↔ a.score < b.score ∨ (a.score = b.score ∧ a.created < b.created)) ∧
  ∀ (c : Candidate) (l : List Candidate), l.length ≤ 4 → l.Pairwise (fun a b => b.before a = false) →
    (keepCandidate c l).Pairwise (fun a b => b.before a = false) ∧
    ∃ front back, l = front ++ back ∧ (∀ x ∈ front, c.before x = false) ∧ (∀ x ∈ back, c.before x = true) ∧
      keepCandidate c l = (front ++ c :: back).take 4)

/-- FIT and FIT_RESERVE by R44 to R46: the checks in their order, and the search they start.
READ_SEARCH by R56 and R57: the result as it stands in each state, the read flag set in READY, and the seen kinds of
REGISTRY cleared. -/
def Obligations.SearchStarts : Prop :=
  (∀ (s : State) (a : FitArg),
    let fields := a.grade ≤ 63 ∧ (30 ≤ a.thickness ∧ a.thickness ≤ 1000) ∧ (1 ≤ a.len ∧ a.len ≤ 18000) ∧
      (1 ≤ a.wid ∧ a.wid ≤ 18000) ∧ a.filter ≤ 2
    let dp := (a.depthPenalty.map (min 65535)).getD s.fse.depthPenalty
    let pp := (a.platePenalty.map (min 65535)).getD s.fse.platePenalty
    let kind : KindFilter := if a.filter = 0 then .remnant else if a.filter = 1 then .plate else .any
    let copy (tag : Option Nat) : SearchRequest :=
      ⟨a.grade, a.thickness, a.len, a.wid, a.rotate, kind, tag, dp, pp⟩
    let started (tag : Option Nat) : State := { s with fse :=
      { phase := .scanning, outcome := none, readFlag := false,
        overwritten := if s.fse.phase = .ready ∧ s.fse.readFlag = false then some s.fse.reserved else none,
        request := some (copy tag), cursor := 0, candidates := [], reserved := none, depthPenalty := dp,
        platePenalty := pp } }
    (¬ fields → Refuses (.fit a) s .fit .range) ∧
    (fields → s.fse.phase = .scanning → Refuses (.fit a) s .fit .busy) ∧
    (fields → s.fse.phase ≠ .scanning → Answers (.fit a) s .fit .accepted (.request (copy none)) (started none)) ∧
    Refuses (.fitReserve a 0) s .fitReserve .range ∧
    ∀ tag, tag ≠ 0 →
      (¬ fields → Refuses (.fitReserve a tag) s .fitReserve .range) ∧
      (fields → s.fse.phase = .scanning → Refuses (.fitReserve a tag) s .fitReserve .busy) ∧
      (fields → s.fse.phase ≠ .scanning →
        Answers (.fitReserve a tag) s .fitReserve .accepted (.request (copy (some tag))) (started (some tag)))) ∧
  (∀ s : State,
    let f := s.fse
    (f.phase = .idle →
      Answers .readSearch s .readSearch .ok (.search .idle) (unitRead s .registry)) ∧
    (f.phase = .scanning →
      Answers .readSearch s .readSearch .ok (.search (.scanning f.overwritten f.request f.cursor))
        (unitRead s .registry)) ∧
    (f.phase = .ready →
      Answers .readSearch s .readSearch .ok
        (.search (.ready f.outcome f.readFlag f.overwritten f.request f.candidates f.reserved))
        (unitRead { s with fse := { f with readFlag := true } } .registry)))

/-- WALK_STEP by R47 to R51: the record at the cursor is kept with its score where it is eligible and fits, else passed, and
the cursor advances; nothing else changes.
SEARCH_COMPLETION by R53 to R55: the survivors are reported, the first one of a FIT_RESERVE is reserved, and SEARCH_DONE
is raised; a survivor is a kept candidate that still names an eligible piece, scored at its depth as it stands, with the
piece's creation sequence, key, slot, depth and net area recorded; its rectangle stays as found (log 51). -/
def Obligations.SearchWalksAndCompletes : Prop :=
  (∀ (s : State) (q : SearchRequest), s.fse.phase = .scanning → s.fse.request = some q → s.fse.cursor < 2048 →
    let i := s.fse.cursor
    let walked (l : List Candidate) : State := { s with fse := { s.fse with candidates := l, cursor := i + 1 } }
    ((s.record i).live = none → exec .walkStep s = .next (walked s.fse.candidates)) ∧
    ∀ p, (s.record i).live = some p →
      let h : Handle := ⟨i, (s.record i).gen⟩
      let qualifies := p.state = .stored ∧ p.reservation = none ∧ p.hold = false ∧ p.move = none ∧
        p.grade = q.grade ∧ p.thickness = q.thickness ∧
        (q.filter = .any ∨ (q.filter = .remnant ∧ p.kind = .remnant) ∨ (q.filter = .plate ∧ p.kind = .plate))
      (¬ qualifies → exec .walkStep s = .next (walked s.fse.candidates)) ∧
      (fitOf q p = none → exec .walkStep s = .next (walked s.fse.candidates)) ∧
      ∀ r b, qualifies → fitOf q p = some (r, b) →
        let score := (p.net - q.len * q.wid / 100) + pieceDepth s h p * q.depthPenalty +
          if p.kind = .plate then q.platePenalty else 0
        exec .walkStep s = .next (walked (keepCandidate ⟨h, score, r, b, p.created, none⟩ s.fse.candidates))) ∧
  (∀ (s : State) (q : SearchRequest), s.fse.phase = .scanning → s.fse.request = some q → s.fse.cursor = 2048 →
    let l := survivors s q s.fse.candidates
    let done (s : State) (out : SearchOutcome) (res : Option Handle) : State :=
      raise { s with fse := { s.fse with
        phase := .ready, outcome := some out, readFlag := false, candidates := l, reserved := res } } .registry .searchDone
    (∀ c ∈ l, ∃ k ∈ s.fse.candidates, ∃ p, c.handle = k.handle ∧ c.rect = k.rect ∧ c.rotated = k.rotated ∧
      s.piece? c.handle = some p ∧ eligible q p = true ∧ c.score = scoreOf q p (pieceDepth s c.handle p) ∧
      c.created = p.created ∧
      ∀ n, p.place = .slot n → c.detail = some ⟨p.key, n, pieceDepth s c.handle p, p.net⟩) ∧
    (∀ k ∈ s.fse.candidates, ∀ p, s.piece? k.handle = some p → eligible q p = true → ∃ c ∈ l, c.handle = k.handle) ∧
    l.Pairwise (fun a b => b.before a = false) ∧
    (l = [] → exec .searchCompletion s = .next (done s .none none)) ∧
    (l ≠ [] → q.tag = none → exec .searchCompletion s = .next (done s .ok none)) ∧
    ∀ c r tag p, l = c :: r → q.tag = some tag → s.piece? c.handle = some p →
      exec .searchCompletion s = .next
        (done (s.setRecord c.handle.index ⟨c.handle.gen, some { p with reservation := some ⟨.host, tag⟩ }⟩) .ok
          (some c.handle)))

/-! ## Nests and tables -/

/-- The judging of declarations against their plate, by R65 with the bounds of R1 and R8.
DECLARE_REMNANT by R69: the checks in their order, and a declaration appended, replaced or removed. -/
def Obligations.DeclarationsAreJudged : Prop :=
  (∀ (parent : Piece) (ds : List DeclArg),
    let inside (r : Rect) : Prop :=
      (parent.kind = .plate ∧ r.dx + r.len ≤ parent.len ∧ r.dy + r.wid ≤ parent.wid) ∨
      (parent.kind = .remnant ∧ ∃ o ∈ parent.rects, o.dx ≤ r.dx ∧ r.dx + r.len ≤ o.dx + o.len ∧ o.dy ≤ r.dy ∧
        r.dy + r.wid ≤ o.dy + o.wid)
    (declsOk parent ds = true ↔
      (∀ d ∈ ds, RemnantFields d ∧ ∀ r ∈ d.rects, inside r) ∧ (ds.map (·.net)).sum ≤ parent.net)) ∧
  (∀ (s : State) (z : ZoneArg) (k i : Nat) (n : Nest) (d : DeclArg), s.holdsNest z k n →
    let both (st : Status) : Prop := Refuses (.declareRemnant z n.id i (some d)) s .declareRemnant st ∧
      Refuses (.declareRemnant z n.id i none) s .declareRemnant st
    (1 < i → both .range) ∧ (i ≤ 1 → n.state = .closed → both .badState)) ∧
  (∀ (s : State) (z : ZoneArg) (k i : Nat) (n : Nest) (p : Piece) (d : DeclArg),
    s.holdsNest z k n → s.names n.plate p → n.decls.length ≤ 2 →
    let add := Instr.declareRemnant z n.id i (some d)
    let del := Instr.declareRemnant z n.id i none
    let becomes (c : Instr) (ds : List Decl) : Prop :=
      Answers c s .declareRemnant .ok (.nest { n with decls := ds })
        (s.setZone k { s.zone k with nest := some { n with decls := ds } })
    let passes (ds : List Decl) : Prop := declsOk p (ds.map (·.arg)) = true
    (i ≤ 1 → n.state ≠ .closed →
      (n.decls.length < i → Refuses add s .declareRemnant .range) ∧
      (n.decls.length ≤ i → Refuses del s .declareRemnant .range) ∧
      (i = n.decls.length → passes (n.decls ++ [⟨d, none⟩]) → becomes add (n.decls ++ [⟨d, none⟩])) ∧
      (i = n.decls.length → ¬ passes (n.decls ++ [⟨d, none⟩]) → Refuses add s .declareRemnant .range) ∧
      (i < n.decls.length → passes (n.decls.set i ⟨d, none⟩) → becomes add (n.decls.set i ⟨d, none⟩)) ∧
      (i < n.decls.length → ¬ passes (n.decls.set i ⟨d, none⟩) → Refuses add s .declareRemnant .range) ∧
      (i < n.decls.length → becomes del (n.decls.eraseIdx i))))

/-- STAGE_NEST by R66 and R67: its checks in their order, the nest it writes and the reservation it takes; a nest that meets
the start conditions on a chained idle table is started at once, zone A before zone B; there a nest of the other zone
that is ready may be the one that starts, and where neither is ready none does. A part without a text is stored at 0, 0,
which is the model's reading (log 26). -/
def Obligations.StageNestStages : Prop :=
  ∀ (s : State) (z : ZoneArg) (k id : Nat) (h : Handle) (ps : List PartArg) (ds : List DeclArg),
    let c := Instr.stageNest z id h ps ds
    let fields := (1 ≤ id ∧ id ≤ 4294967295) ∧ (1 ≤ ps.length ∧ ps.length ≤ 64) ∧
      (∀ a ∈ ps, (∀ t, a.text = some t → (1 ≤ t.length ∧ t.length ≤ 20) ∧ ∀ x ∈ t, 32 ≤ x ∧ x ≤ 126) ∧
        a.x ≤ 18000 ∧ a.y ≤ 4800) ∧ ds.length ≤ 2
    let part (a : PartArg) : Part :=
      if a.text = none then ⟨none, 0, 0, .notRequired, 0, .pending, 0, 0, 0⟩
      else ⟨a.text, a.x, a.y, .pending, 0, .pending, 0, 0, 0⟩
    let n : Nest := ⟨id, h, .staged, ps.map part, ds.map fun d => ⟨d, none⟩⟩
    let st (r : Status) : Prop := Refuses c s .stageNest r
    let free := (s.bed k).configured = true ∧ (s.zone k).phase ≠ .cutting ∧ (s.zone k).phase ≠ .cut ∧
      (s.zone k).nest = none
    (zoneArg? z = none ∨ ¬ fields → st .range) ∧
    (zoneArg? z = some k → fields →
      ((s.bed k).configured = false ∨ (s.zone k).phase = .cutting ∨ (s.zone k).phase = .cut → st .badState) ∧
      ((s.bed k).configured = true → (s.zone k).phase ≠ .cutting → (s.zone k).phase ≠ .cut →
        (s.zone k).nest ≠ none → st .occupied) ∧
      (free → 2047 < h.index → st .range) ∧
      (free → h.index ≤ 2047 → (s.record h.index).gen ≠ h.gen → st .stale) ∧
      (free → h.index ≤ 2047 → s.record h.index = ⟨h.gen, none⟩ → st .notFound) ∧
      ∀ p, free → s.names h p →
        let claimable := p.hold = false ∧ p.state ≠ .inCut ∧
          (p.reservation = none ∨ p.reservation = some ⟨.host, id⟩)
        let other := (∃ x ∈ (s.bed k).pieces, x ≠ h) ∨
          ∃ x m, x < 3 ∧ m ∈ s.queue x ∧ m.dest = some (.zone k) ∧ m.piece ≠ h
        let t := (s.setZone k { s.zone k with nest := some n }).setRecord h.index
          ⟨h.gen, some { p with reservation := some ⟨.nest, id⟩ }⟩
        (¬ claimable → st .badState) ∧ (claimable → other → st .occupied) ∧
        (claimable → ¬ other → declsOk p ds = false → st .range) ∧
        (claimable → ¬ other → declsOk p ds = true →
          ((s.table (zoneTable k)).active ≠ none ∨ (s.table (zoneTable k)).chain = false →
            Answers c s .stageNest .ok (.nest n) t) ∧
          ((s.table (zoneTable k)).chain = true → ReadyToStart t k n { p with reservation := some ⟨.nest, id⟩ } →
            ((∃ b, k = 2 * b) ∨ startOk t (k - 1) = false) →
            Answers c s .stageNest .ok (.nest { n with state := .active })
              (switched t k n { p with reservation := some ⟨.nest, id⟩ })) ∧
          ((s.table (zoneTable k)).chain = true → startOk t k = false → startOk t (otherZone k) = false →
            Answers c s .stageNest .ok (.nest n) t) ∧
          ∀ m q, (s.table (zoneTable k)).chain = true → ReadyToStart t (otherZone k) m q →
            ((∃ b, otherZone k = 2 * b) ∨ startOk t k = false) →
            Answers c s .stageNest .ok (.nest n) (switched t (otherZone k) m q)))

/-- A request that names a nest by R63: RANGE for a table or bed out of range, NOT_FOUND for an empty slot or another id, by
each of the six requests that name one and check nothing before it; and the zone that a table and a bed name.
WITHDRAW_NEST by R68: a STAGED nest leaves its slot, its plate is unreserved and the chain flag is cleared; an ACTIVE or
CLOSED one is refused. -/
def Obligations.NestIsNamedAndWithdrawn : Prop :=
  (∀ (s : State) (z : ZoneArg) (id i : Nat) (d : Option DeclArg),
    let all (st : Status) : Prop :=
      Refuses (.withdrawNest z id) s .withdrawNest st ∧ Refuses (.declareRemnant z id i d) s .declareRemnant st ∧
      Refuses (.skipPart z id i) s .skipPart st ∧ Refuses (.closeNest z id) s .closeNest st ∧
      Refuses (.waiveMark z id i) s .waiveMark st
    (5 < z.table ∨ 1 < z.bed → all .range ∧ Refuses (.startNest z id) s .startNest .range) ∧
    (∀ k, zoneArg? z = some k ↔ z.table ≤ 5 ∧ z.bed ≤ 1 ∧ k = 2 * z.table + z.bed) ∧
    ∀ k, zoneArg? z = some k → ((s.zone k).nest = none ∨ ∃ n, (s.zone k).nest = some n ∧ n.id ≠ id) →
      all .notFound ∧ (s.ppn.mode ≠ .cold → Refuses (.startNest z id) s .startNest .notFound)) ∧
  (∀ (s : State) (z : ZoneArg) (k : Nat) (n : Nest), s.holdsNest z k n →
    let c := Instr.withdrawNest z n.id
    (n.state ≠ .staged → Refuses c s .withdrawNest .badState) ∧
    ∀ p, n.state = .staged → s.names n.plate p →
      let t := s.setZone k { s.zone k with nest := none }
      let t := t.setRecord n.plate.index ⟨n.plate.gen, some { p with reservation := none }⟩
      let t := t.setTable (zoneTable k) { s.table (zoneTable k) with chain := false }
      Answers c s .withdrawNest .ok (.table (tableView t (zoneTable k))) t)

/-- START_NEST by R70 and R71: refused in COLD, for a nest not STAGED and where a start condition fails; else the nest is
activated, with the chain flag unchanged.
The start conditions of a zone hold exactly where its nest is ready to start (R70).
SET_CHAIN by R77 and R78: the flag as asked; set on an idle table, it starts the first of zones A and B whose nest is
ready, and is cleared again. -/
def Obligations.NestIsStarted : Prop :=
  (∀ (s : State) (z : ZoneArg) (k : Nat) (n : Nest), s.holdsNest z k n →
    let c := Instr.startNest z n.id
    (s.ppn.mode = .cold → Refuses c s .startNest .wrongMode) ∧
    (s.ppn.mode ≠ .cold → n.state ≠ .staged → Refuses c s .startNest .badState) ∧
    ∀ p, s.names n.plate p →
      (s.ppn.mode ≠ .cold → ¬ ReadyToStart s k n p → Refuses c s .startNest .badState) ∧
      (ReadyToStart s k n p → Answers c s .startNest .ok (.nest { n with state := .active }) (started s k n p))) ∧
  (∀ (s : State) (z : Nat), (∀ n, (s.zone z).nest = some n → n.plate.index ≤ 2047) →
    (startOk s z = true ↔ ∃ n p, ReadyToStart s z n p)) ∧
  (∀ (s : State) (t : Nat),
    let flag (b : Bool) : State := s.setTable t { s.table t with chain := b }
    (5 < t → ∀ b, Refuses (.setChain t b) s .setChain .range) ∧
    (t ≤ 5 →
      Answers (.setChain t false) s .setChain .ok (.table (tableView (flag false) t)) (flag false) ∧
      ((s.table t).active ≠ none ∨ (startOk (flag true) (2 * t) = false ∧ startOk (flag true) (2 * t + 1) = false) →
        Answers (.setChain t true) s .setChain .ok (.table (tableView (flag true) t)) (flag true)) ∧
      (∀ n p, ReadyToStart s (2 * t) n p →
        let u := switched (flag true) (2 * t) n p
        Answers (.setChain t true) s .setChain .ok (.table (tableView u t)) u) ∧
      ∀ n p, ReadyToStart s (2 * t + 1) n p → startOk (flag true) (2 * t) = false →
        let u := switched (flag true) (2 * t + 1) n p
        Answers (.setChain t true) s .setChain .ok (.table (tableView u t)) u))

/-- SKIP_PART by R72: while another part is not final, a PENDING or INTERRUPTED part becomes SKIPPED, and an issued mark of
its is withdrawn; a SKIPPED one answers OK again; a BURNING or BURNT one is refused; and the last open part of a nest
closes it in the same step, on a table without a grant (R74).
WAIVE_MARK by R92: a PENDING or FAILED mark of a nest that is not CLOSED becomes WAIVED; a WAIVED one answers OK again;
every other is refused. -/
def Obligations.PartsAreSkippedAndWaived : Prop :=
  (∀ (s : State) (z : ZoneArg) (k i j : Nat) (n : Nest) (p q : Part), s.holdsNest z k n →
    let c := Instr.skipPart z n.id i
    let T := zoneTable k
    (n.parts.length ≤ i → Refuses c s .skipPart .range) ∧
    (n.parts[i]? = some p → n.state ≠ .active → Refuses c s .skipPart .badState) ∧
    (n.parts[i]? = some p → n.state = .active →
      (p.burn = .burning ∨ p.burn = .burnt → Refuses c s .skipPart .badState) ∧
      (p.burn = .skipped → Answers c s .skipPart .ok (.nest n) s) ∧
      (p.burn = .pending ∨ p.burn = .interrupted → n.parts[j]? = some q → j ≠ i → q.final = false →
        (p.mark ≠ .issued →
          let m := { n with parts := n.parts.set i { p with burn := .skipped } }
          Answers c s .skipPart .ok (.nest m) (s.setZone k { s.zone k with nest := some m })) ∧
        (p.mark = .issued → (s.marks T).issued = some ⟨zoneBed k, n.id, i⟩ →
          let m := { n with parts := n.parts.set i { p with burn := .skipped, mark := .pending } }
          Answers c s .skipPart .ok (.nest m) ((s.setZone k { s.zone k with nest := some m }).setMarks T
            ⟨none, some (⟨zoneBed k, n.id, i⟩, .withdrawn)⟩))) ∧
      ∀ v, p.burn = .pending ∨ p.burn = .interrupted → s.names n.plate v → (s.burn T).grant = none →
        (∀ l x, n.parts[l]? = some x → l ≠ i → x.final = true) →
        let closes (t : State) (m : Nest) : Prop :=
          ClosesTo (t.setZone k { s.zone k with nest := some m }) k m v fun m t => Answers c s .skipPart .ok (.nest m) t
        (p.mark ≠ .issued → closes s { n with parts := n.parts.set i { p with burn := .skipped } }) ∧
        (p.mark = .issued → (s.marks T).issued = some ⟨zoneBed k, n.id, i⟩ →
          closes (s.setMarks T ⟨none, some (⟨zoneBed k, n.id, i⟩, .withdrawn)⟩)
            { n with parts := n.parts.set i { p with burn := .skipped, mark := .pending } }))) ∧
  (∀ (s : State) (z : ZoneArg) (k i : Nat) (n : Nest) (p : Part), s.holdsNest z k n →
    let c := Instr.waiveMark z n.id i
    (n.parts.length ≤ i → Refuses c s .waiveMark .range) ∧
    (n.parts[i]? = some p →
      (n.state = .closed → Refuses c s .waiveMark .badState) ∧
      (n.state ≠ .closed →
        (p.mark = .waived → Answers c s .waiveMark .ok (.part i p) s) ∧
        (p.mark = .pending ∨ p.mark = .failed →
          let q := { p with mark := .waived }
          Answers c s .waiveMark .ok (.part i q)
            (s.setZone k { s.zone k with nest := some { n with parts := n.parts.set i q } })) ∧
        (p.mark = .issued ∨ p.mark = .marked ∨ p.mark = .notRequired → Refuses c s .waiveMark .badState))))

/-- CLOSE_NEST by R73 to R76: refused but for an ACTIVE nest of a table that is not GRANTED; else every open part is
SKIPPED, an issued mark of one is withdrawn (R91), and the nest closes: the plate is retired, the declarations become
remnants or are dropped, the zone is CUT, the nest CLOSED, the table without an active zone, NEST_CLOSED is raised, and
where the chain flag is set the other zone's ready nest is started in the same step.
The declarations at a close by R75, in their order: each becomes a remnant of the parent's steel on the bed wherever a
record is free, a key of the parent's heat code is unused and the directory takes it; else it is dropped with the status
that refused it, and REMNANT_LOST is raised. -/
def Obligations.CloseNestCloses : Prop :=
  (∀ (s : State) (z : ZoneArg) (k : Nat) (n : Nest) (p : Piece), s.holdsNest z k n →
    let c := Instr.closeNest z n.id
    let T := zoneTable k
    (n.state ≠ .active ∨ (s.burn T).state = .granted → Refuses c s .closeNest .badState) ∧
    (n.state = .active → (s.burn T).state ≠ .granted → s.names n.plate p → Canonical s →
      let skip (x : Part) : Part :=
        if x.burn = .pending ∨ x.burn = .interrupted then
          { x with burn := .skipped, mark := if x.mark = .issued then .pending else x.mark }
        else x
      let m := { n with parts := n.parts.map skip }
      let u := s.setZone k { s.zone k with nest := some m }
      let closes (u : State) : Prop := ClosesTo u k m p fun m t => Answers c s .closeNest .ok (.nest m) t
      ((∀ x ∈ n.parts, x.mark ≠ .issued) → closes u) ∧
      ∀ i x, n.parts[i]? = some x → x.mark = .issued → x.burn = .pending →
        (s.marks T).issued = some ⟨zoneBed k, n.id, i⟩ →
        (∀ j y, n.parts[j]? = some y → j ≠ i → y.mark ≠ .issued) →
        closes (u.setMarks T ⟨none, some (⟨zoneBed k, n.id, i⟩, .withdrawn)⟩))) ∧
  (∀ (s : State) (p : Piece) (k i : Nat) (key : Key) (d : Decl) (ds : List Decl),
    let then' (t : State) (o : DeclOutcome) : State × List Decl :=
      ((createRemnants t p k ds).1, { d with outcome := some o } :: (createRemnants t p k ds).2)
    let lost (t : State) (st : Status) : State × List Decl :=
      then' (raise t (.table (zoneTable k)) .remnantLost) (.refused st)
    let r := createRemnants s p k (d :: ds)
    createRemnants s p k [] = (s, []) ∧
    (s.full → r = lost s .registryFull) ∧
    (s.lowestFree i → s.drawsNone p.key.heat → r = lost s .duplicateKey) ∧
    (s.lowestFree i → s.drawsKey p.key.heat key →
      (dirInsert s.srg key (s.handleAt i) = .error .directoryFull → r = lost (withoutRemnant s key) .directoryFull) ∧
      ∀ g, dirInsert s.srg key (s.handleAt i) = .ok g →
        r = then' (withRemnant s k i g (remnantAt s k key p.grade p.thickness d.arg)) (.created (s.handleAt i))))

/-- ZONE_CLEARED by R79 from the burn station of the table: the closed nest leaves an empty CUT zone, which becomes CLEAR;
the other cases change nothing; every answer but WRONG_MODE carries the zone.
READ_ZONE by R81, from the host and from any station: the zone as it stands, and nothing changes.
What the zone carries (R81): phase and inbound move, geometry, the live pieces of the bed in their order, and of a nest its
id, plate, state and counts of parts. -/
def Obligations.ZoneIsClearedAndRead : Prop :=
  (∀ (s : State) (a : Nat) (z : ZoneArg) (k : Nat), s.serves a .burn z.table → zoneArg? z = some k →
    let c := Instr.zoneCleared z
    let u := answering s a
    (s.ppn.mode = .cold → StationRefuses c s a .zoneCleared .wrongMode) ∧
    (s.ppn.mode ≠ .cold →
      ((s.zone k).phase = .cut → (s.bed k).pieces = [] →
        let t := u.setZone k { s.zone k with phase := .clear, nest := none }
        StationAnswers c s a .zoneCleared .ok (.zone (zoneView t k)) t) ∧
      ((s.zone k).phase = .cut → (s.bed k).pieces ≠ [] →
        StationAnswers c s a .zoneCleared .occupied (.zone (zoneView u k)) u) ∧
      ((s.zone k).phase = .clear → StationAnswers c s a .zoneCleared .ok (.zone (zoneView u k)) u) ∧
      ((s.zone k).phase = .loading ∨ (s.zone k).phase = .loaded ∨ (s.zone k).phase = .cutting →
        StationAnswers c s a .zoneCleared .badState (.zone (zoneView u k)) u))) ∧
  (∀ (s : State) (z : ZoneArg) (a : Nat) (r : Role) (u : Nat),
    (5 < z.table ∨ 1 < z.bed → Refuses (.readZone .host z) s .readZone .range) ∧
    (∀ k, zoneArg? z = some k → Answers (.readZone .host z) s .readZone .ok (.zone (zoneView s k)) s) ∧
    ∀ k, zoneArg? z = some k → s.serves a r u →
      StationAnswers (.readZone .station z) s a .readZone .ok (.zone (zoneView s k)) (answering s a)) ∧
  (∀ (s : State) (k : Nat),
    let b := s.bed k
    let count (n : Nest) (f : Part → Bool) : Nat := (n.parts.filter f).length
    zoneView s k =
      { phase := (s.zone k).phase, inbound := (s.zone k).inbound, geometry := ⟨b.x, b.y, b.x0, b.x1, b.y0, b.y1⟩,
        bed := bedEntries s b.pieces,
        nest := (s.zone k).nest.map fun n =>
          { id := n.id, plate := n.plate, state := n.state, parts := n.parts.length,
            burnt := count n fun p => p.burn = .burnt, skipped := count n fun p => p.burn = .skipped,
            notFinal := count n fun p => p.burn ≠ .burnt ∧ p.burn ≠ .skipped } } ∧
    ∀ (h : Handle) (l : List Handle), bedEntries s [] = [] ∧
      (s.piece? h = none → bedEntries s (h :: l) = bedEntries s l) ∧
      ∀ p, s.piece? h = some p → bedEntries s (h :: l) = ⟨h, p.key, p.kind, p.thickness, p.mass⟩ :: bedEntries s l)

/-! ## Marking -/

/-- NEXT_MARK by R85 to R87 from the mark station of the table: it repeats the issued mark, or issues the first part whose
mark and burn are PENDING, or answers NONE with the counts; it is refused in COLD and in STOPPED. -/
def Obligations.NextMarkIssues : Prop :=
  ∀ (s : State) (a t : Nat) (bd : Bed) (n : Nest), s.serves a .mark t →
    let c := Instr.nextMark t
    let u := answering s a
    let k := zoneOf t bd
    (s.ppn.mode = .cold → StationRefuses c s a .nextMark .wrongMode) ∧
    (s.ppn.mode = .stopped → StationRefuses c s a .nextMark .stopped) ∧
    (s.ppn.mode = .opened → (s.table t).active = none → StationAnswers c s a .nextMark .none (.noMark t none) u) ∧
    (s.ppn.mode = .opened → (s.table t).active = some bd → (s.zone k).nest = some n →
      (∀ i p, (s.marks t).issued = some ⟨bd, n.id, i⟩ → n.parts[i]? = some p →
        StationAnswers c s a .nextMark .ok
          (.mark ⟨t, ⟨bd, n.id, i⟩, n.plate, p.text.getD [], p.x, p.y, p.markFailures⟩) u) ∧
      (∀ i p, (s.marks t).issued = none → n.parts[i]? = some p → p.mark = .pending → p.burn = .pending →
        (∀ j q, j < i → n.parts[j]? = some q → ¬ (q.mark = .pending ∧ q.burn = .pending)) →
        let m := { n with parts := n.parts.set i { p with mark := .issued } }
        StationAnswers c s a .nextMark .ok
          (.mark ⟨t, ⟨bd, n.id, i⟩, n.plate, p.text.getD [], p.x, p.y, p.markFailures⟩)
          ((u.setZone k { s.zone k with nest := some m }).setMarks t ⟨some ⟨bd, n.id, i⟩, none⟩)) ∧
      ((s.marks t).issued = none → (∀ q ∈ n.parts, ¬ (q.mark = .pending ∧ q.burn = .pending)) →
        let count (f : Part → Bool) : Nat := (n.parts.filter f).length
        StationAnswers c s a .nextMark .none (.noMark t (some
          { bed := bd, nest := n.id, pending := count fun p => p.mark = .pending,
            failed := count fun p => p.mark = .failed,
            satisfied := count fun p => p.mark = .marked ∨ p.mark = .waived ∨ p.mark = .notRequired })) u))

/-- MARK_DONE and MARK_FAILED by R89 and R90, for the issued mark, in OPEN and in STOPPED: the mark is MARKED; or its first
failure makes it PENDING again and its second FAILED with the notice raised; the issue ends.
Cases 1 to 3 of R88: WRONG_MODE in COLD, the nest checks of R63, and a part index past the nest's parts.
A mark report of an issue that has ended, by cases 5 to 7 of R88: OK where the ending is its own, CANCELLED once where it
was withdrawn, BAD_STATE where it is the other report's; with no ended issue of the part, OK for the MARK_DONE of a MARKED
part and else BAD_STATE. -/
def Obligations.MarkReportsAreTaken : Prop :=
  (∀ (s : State) (a : Nat) (z : ZoneArg) (id i : Nat), s.serves a .mark z.table →
    let both (st : Status) : Prop :=
      StationRefuses (.markDone z id i) s a .markDone st ∧ StationRefuses (.markFailed z id i) s a .markFailed st
    (s.ppn.mode = .cold → both .wrongMode) ∧
    (s.ppn.mode ≠ .cold → zoneArg? z = none → both .range) ∧
    (s.ppn.mode ≠ .cold → ∀ k, zoneArg? z = some k →
      ((s.zone k).nest = none ∨ (∃ n, (s.zone k).nest = some n ∧ n.id ≠ id) → both .notFound) ∧
      ∀ n, (s.zone k).nest = some n → n.id = id → n.parts.length ≤ i → both .range)) ∧
  (∀ (s : State) (a : Nat) (z : ZoneArg) (k i : Nat) (n : Nest) (p : Part), s.serves a .mark z.table →
    s.holdsNest z k n → n.parts[i]? = some p → s.ppn.mode ≠ .cold →
    let T := zoneTable k
    let r : PartRef := ⟨zoneBed k, n.id, i⟩
    (s.marks T).issued = some r →
    let u := answering s a
    let ends (q : Part) (e : IssueEnd) : State :=
      (u.setZone k { s.zone k with nest := some { n with parts := n.parts.set i q } }).setMarks T ⟨none, some (r, e)⟩
    let shows (q : Part) (e : IssueEnd) : ReplyRecord :=
      .markReport ⟨i, q.text, q.x, q.y, q.mark, q.markFailures⟩ ⟨none, some (r, e)⟩
    let done := { p with mark := .marked }
    let once := { p with markFailures := 1, mark := .pending }
    let twice := { p with markFailures := 2, mark := .failed }
    StationAnswers (.markDone z n.id i) s a .markDone .ok (shows done .done) (ends done .done) ∧
    (p.markFailures = 0 →
      StationAnswers (.markFailed z n.id i) s a .markFailed .ok (shows once .failed) (ends once .failed)) ∧
    (p.markFailures = 1 →
      StationAnswers (.markFailed z n.id i) s a .markFailed .ok (shows twice .failed)
        (raise (ends twice .failed) (.table T) .markFailed))) ∧
  (∀ (s : State) (a : Nat) (z : ZoneArg) (k i : Nat) (n : Nest) (p : Part), s.serves a .mark z.table →
    s.holdsNest z k n → n.parts[i]? = some p → s.ppn.mode ≠ .cold →
    let T := zoneTable k
    let r : PartRef := ⟨zoneBed k, n.id, i⟩
    let u := answering s a
    let shows (m : Marks) : ReplyRecord := .markReport ⟨i, p.text, p.x, p.y, p.mark, p.markFailures⟩ m
    let done (st : Status) : Prop :=
      StationAnswers (.markDone z n.id i) s a .markDone st (shows (s.marks T)) u
    let failed (st : Status) : Prop :=
      StationAnswers (.markFailed z n.id i) s a .markFailed st (shows (s.marks T)) u
    let dropped : Marks := ⟨(s.marks T).issued, none⟩
    (s.marks T).issued ≠ some r →
      (∀ e, (s.marks T).ended = some (r, e) →
        (e = .done → done .ok ∧ failed .badState) ∧ (e = .failed → done .badState ∧ failed .ok) ∧
        (e = .withdrawn →
          StationAnswers (.markDone z n.id i) s a .markDone .cancelled (shows dropped) (u.setMarks T dropped) ∧
          StationAnswers (.markFailed z n.id i) s a .markFailed .cancelled (shows dropped) (u.setMarks T dropped))) ∧
      ((∀ e, (s.marks T).ended ≠ some (r, e)) →
        (p.mark = .marked → done .ok) ∧ (p.mark ≠ .marked → done .badState) ∧ failed .badState))

/-! ## Burning -/

/-- NEXT_BURN by R98: the refusals in their order, each with the table.
NEXT_BURN by R97 and R99, once nothing refuses it: the INTERRUPTED part first, else the first PENDING part if its mark is
satisfied, else WAIT_MARK, or NONE; the grant made turns the torch permissive on, sets the grant-held flag and may only
turn travel permissives off; a GRANTED table repeats its grant (log 20). -/
def Obligations.NextBurnGrants : Prop :=
  (∀ (s : State) (a t : Nat), s.serves a .burn t →
    let no (st : Status) (r : ReplyRecord) : Prop := StationAnswers (.nextBurn t) s a .nextBurn st r (answering s a)
    (s.ppn.mode = .cold → no .wrongMode (.burnRefused t)) ∧ (s.ppn.mode = .stopped → no .stopped (.burnRefused t)) ∧
    (s.ppn.mode = .opened → (s.burn t).state = .fault → no .tableFault (.burnRefused t)) ∧
    (s.ppn.mode = .opened → (s.burn t).state = .idle →
      ((s.monitor t).state ≠ .off → no .busy (.burnRefused t)) ∧
      ((s.monitor t).state = .off → (s.table t).active = none → no .none (.burnRefused t)) ∧
      ∀ bd, (s.monitor t).state = .off → (s.table t).active = some bd →
        (mountedTorch s t = none → no .torchFault (.burnTorch t none)) ∧
        ∀ m, mountedTorch s t = some m →
          let shows : ReplyRecord := .burnTorch t (some ((s.torch m).id, (s.torch m).state, (s.torch m).wear))
          ((s.torch m).state = .fault → no .torchFault shows) ∧ ((s.torch m).state = .worn → no .torchWorn shows) ∧
          ((s.torch m).state = .spare ∨ (s.torch m).state = .inService → s.intruders (zoneOf t bd) ≠ [] →
            no .zoneHeld (.burnHeld t s.rsu.latest.seq)))) ∧
  (∀ (s : State) (a t m : Nat) (bd : Bed) (n : Nest), s.serves a .burn t → s.ppn.mode = .opened →
    let c := Instr.nextBurn t
    let u := answering s a
    let k := zoneOf t bd
    let shows (i : Nat) (p : Part) (resumed : Bool) : ReplyRecord :=
      .grant ⟨t, ⟨bd, n.id, i⟩, n.plate, resumed, p.starts, p.arcTime, some (s.torch m).id, some (s.torch m).wear⟩
    let grants (i : Nat) (p : Part) (resumed : Bool) : Prop :=
      let q := { p with burn := .burning, failedPierces := 0 }
      let g : Burn := ⟨.granted, some ⟨⟨bd, n.id, i⟩, 0, s.bsv.pierceMin, s.bsv.burnLimit, resumed⟩, none, true⟩
      let t' := ((u.setZone k { s.zone k with nest := some { n with parts := n.parts.set i q } }).setBurn t g).setGrantHeld
        k true
      StationAnswers c s a .nextBurn .ok (shows i p resumed) (evaluateGrant t')
    (s.zone k).nest = some n → mountedTorch s t = some m →
    ((s.burn t).state = .granted → ∀ i p g, (s.burn t).grant = some g → g.ref = ⟨bd, n.id, i⟩ → n.parts[i]? = some p →
      StationAnswers c s a .nextBurn .ok (shows i p g.resumed) u) ∧
    ((s.burn t).state = .idle → (s.monitor t).state = .off → (s.table t).active = some bd →
      (s.torch m).state = .spare ∨ (s.torch m).state = .inService → s.intruders k = [] →
      (∀ i p, n.parts[i]? = some p → p.burn = .interrupted →
        (∀ j q, j < i → n.parts[j]? = some q → q.burn ≠ .interrupted) → grants i p true) ∧
      ((∀ q ∈ n.parts, q.burn ≠ .interrupted) →
        (∀ i p, n.parts[i]? = some p → p.burn = .pending →
          (∀ j q, j < i → n.parts[j]? = some q → q.burn ≠ .pending) →
          (p.mark = .marked ∨ p.mark = .waived ∨ p.mark = .notRequired → grants i p false) ∧
          (p.mark = .pending ∨ p.mark = .issued ∨ p.mark = .failed →
            StationAnswers c s a .nextBurn .waitMark (.burnWait t i p.mark) u)) ∧
        ((∀ q ∈ n.parts, q.burn ≠ .pending) → StationAnswers c s a .nextBurn .none (.burnRefused t) u))))

/-- BURN_DONE and BURN_ABANDON by R101 and R102, for the part the grant names: the part is BURNT, or INTERRUPTED; the grant
ends, the permissive goes off, the grant-held flag is cleared and the monitor of an arc still on starts the stuck-arc
timer (R111). A BURN_DONE of the last open part of an ACTIVE nest closes it in the same step (R74).
Cases 1 to 3 of R100: WRONG_MODE in COLD, the nest checks of R63, and a part index past the nest's parts.
A burn report without the grant, by cases 5 to 8 of R100: answered from the ended grant of the part, ABORTED to a
BURN_DONE after a revocation, else from the part as it stands; nothing changes. -/
def Obligations.BurnReportsAreTaken : Prop :=
  (∀ (s : State) (a : Nat) (z : ZoneArg) (id i : Nat), s.serves a .burn z.table →
    let both (st : Status) : Prop :=
      StationRefuses (.burnDone z id i) s a .burnDone st ∧ StationRefuses (.burnAbandon z id i) s a .burnAbandon st
    (s.ppn.mode = .cold → both .wrongMode) ∧
    (s.ppn.mode ≠ .cold → zoneArg? z = none → both .range) ∧
    (s.ppn.mode ≠ .cold → ∀ k, zoneArg? z = some k →
      ((s.zone k).nest = none ∨ (∃ n, (s.zone k).nest = some n ∧ n.id ≠ id) → both .notFound) ∧
      ∀ n, (s.zone k).nest = some n → n.id = id → n.parts.length ≤ i → both .range)) ∧
  (∀ (s : State) (a : Nat) (z : ZoneArg) (k i j : Nat) (n : Nest) (p q : Part) (g : Grant),
    s.serves a .burn z.table → s.holdsNest z k n → n.parts[i]? = some p → s.ppn.mode ≠ .cold →
    let T := zoneTable k
    let r : PartRef := ⟨zoneBed k, n.id, i⟩
    (s.burn T).grant = some g → g.ref = r →
    let u := answering s a
    let ends (x : Part) (e : GrantEnd) : State :=
      let t := u.setZone k { s.zone k with nest := some { n with parts := n.parts.set i x } }
      let t := (t.setBurn T ⟨.idle, none, some (r, e), false⟩).setGrantHeld k false
      if (s.monitor T).state = .off then t
      else t.setMonitor T { s.monitor T with state := .cutting, stuck := true }
    let shows (x : Part) (e : GrantEnd) : ReplyRecord :=
      .burnReport ⟨i, x.burn, x.starts, x.arcTime, x.failedPierces, n.state, .idle, none, some (r, e)⟩
    let burnt := { p with burn := .burnt }
    let cut := { p with burn := .interrupted }
    (n.state ≠ .active ∨ (n.parts[j]? = some q ∧ j ≠ i ∧ q.final = false) →
      StationAnswers (.burnDone z n.id i) s a .burnDone .ok (shows burnt .done) (ends burnt .done)) ∧
    (∀ v, n.state = .active → s.names n.plate v → (∀ l x, n.parts[l]? = some x → l ≠ i → x.final = true) →
      ClosesTo (ends burnt .done) k { n with parts := n.parts.set i burnt } v fun _ t =>
        StationAnswers (.burnDone z n.id i) s a .burnDone .ok (.burnReport
          ⟨i, .burnt, p.starts, p.arcTime, p.failedPierces, .closed, .idle, none, some (r, .done)⟩) t) ∧
    StationAnswers (.burnAbandon z n.id i) s a .burnAbandon .ok (shows cut .abandoned) (ends cut .abandoned)) ∧
  (∀ (s : State) (a : Nat) (z : ZoneArg) (k i : Nat) (n : Nest) (p : Part), s.serves a .burn z.table →
    s.holdsNest z k n → n.parts[i]? = some p → s.ppn.mode ≠ .cold →
    let B := s.burn (zoneTable k)
    let r : PartRef := ⟨zoneBed k, n.id, i⟩
    let shows : ReplyRecord :=
      .burnReport ⟨i, p.burn, p.starts, p.arcTime, p.failedPierces, n.state, B.state, B.grant, B.ended⟩
    let done (st : Status) : Prop := StationAnswers (.burnDone z n.id i) s a .burnDone st shows (answering s a)
    let abandon (st : Status) : Prop :=
      StationAnswers (.burnAbandon z n.id i) s a .burnAbandon st shows (answering s a)
    (∀ g, B.grant = some g → g.ref ≠ r) →
      (∀ e, B.ended = some (r, e) →
        (e = .done → done .ok ∧ abandon .badState) ∧ (e = .abandoned → done .badState ∧ abandon .ok) ∧
        ∀ x, e = .revoked x → done .aborted ∧ abandon .ok) ∧
      ((∀ e, B.ended ≠ some (r, e)) →
        (p.burn = .burnt → done .ok) ∧ (p.burn ≠ .burnt → done .badState) ∧
        (p.burn = .interrupted → abandon .ok) ∧ (p.burn ≠ .interrupted → abandon .badState)))

/-- A revocation by R103: the part is INTERRUPTED, the grant ends REVOKED with its cause, the permissive is off, the flag
clear, GRANT_REVOKED is pending; and OVERTIME comes when the grant arc time reaches ten times its burn limit (R110);
that a BURN_OVERTIME before that changes nothing is the model's choice (log 2).
At a sample completion every table whose granted zone is intruded has its grant revoked with cause INTRUSION, and every
other grant stands (R104).
A failed pierce by R109: an arc-off edge in PIERCING under a grant counts on part and torch; at the torch's third in a
row the torch is FAULT with its notice raised, and the grant is revoked with cause TORCH_FAULT. -/
def Obligations.RevocationEndsTheGrant : Prop :=
  (∀ (s : State) (t i : Nat) (g : Grant) (n : Nest) (p : Part), t ≤ 5 → (s.burn t).grant = some g → g.ref.part = i →
    (s.zone (zoneOf t g.ref.bed)).nest = some n → n.parts[i]? = some p →
    let k := zoneOf t g.ref.bed
    let ended (x : Cause) : State :=
      let u := s.setZone k { s.zone k with nest := some { n with parts := n.parts.set i { p with burn := .interrupted } } }
      let u := (u.setBurn t ⟨.idle, none, some (g.ref, .revoked x), false⟩).setGrantHeld k false
      let u := if (s.monitor t).state = .off then u
        else u.setMonitor t { s.monitor t with state := .cutting, stuck := true }
      raise u (.table t) .grantRevoked
    (∀ x, x = .hallStop ∨ x = .station ∨ x = .intrusion → revoke s t x = ended x) ∧
    (10 * g.burnLimit ≤ g.arcTime →
      exec (.burnOvertime t) s = .next (raise (ended .overtime) (.table t) .burnOvertime)) ∧
    (g.arcTime < 10 * g.burnLimit → exec (.burnOvertime t) s = .next s)) ∧
  (∀ (s : State) (t : Nat), t ≤ 5 →
    let u := revokeIntruded s
    ((s.burn t).grant = none → u.burn t = s.burn t) ∧
    ∀ g, (s.burn t).grant = some g →
      let z := zoneOf t g.ref.bed
      (s.intruders z = [] → u.burn t = s.burn t ∧ u.grantHeld z = s.grantHeld z) ∧
      (s.intruders z ≠ [] → u.burn t = ⟨.idle, none, some (g.ref, .revoked .intrusion), false⟩ ∧
        u.grantHeld z = false ∧ u.notice (noticeCode (.table t) .grantRevoked) = some false ∧
        ∀ p, part? s z g.ref.part = some p → part? u z g.ref.part = some { p with burn := .interrupted })) ∧
  (∀ (s : State) (t m on : Nat) (g : Grant) (n : Nest) (p : Part), t ≤ 5 → (s.monitor t).state = .piercing →
    (s.burn t).grant = some g → mountedTorch s t = some m → (s.zone (zoneOf t g.ref.bed)).nest = some n →
    n.parts[g.ref.part]? = some p →
    ∃ u, exec (.arcOffEdge t on) s = .next u ∧ (u.monitor t).state = .off ∧ (u.monitor t).stuck = false ∧
      (u.torch m).failed = min 3 ((s.torch m).failed + 1) ∧
      ((s.torch m).failed < 2 → (u.burn t).state = (s.burn t).state ∧ (u.burn t).grant ≠ none ∧
        ∃ q, part? u (zoneOf t g.ref.bed) g.ref.part = some q ∧ q.failedPierces = min 3 (p.failedPierces + 1) ∧
          q.burn = p.burn) ∧
      (2 ≤ (s.torch m).failed → (u.torch m).state = .fault ∧
        u.burn t = ⟨.idle, none, some (g.ref, .revoked .torchFault), false⟩ ∧
        u.notice (noticeCode (.table t) .torchFault) = some false ∧
        u.notice (noticeCode (.table t) .grantRevoked) = some false ∧
        ∃ q, part? u (zoneOf t g.ref.bed) g.ref.part = some q ∧ q.burn = .interrupted))

/-- The arc monitor by R108 and R109: an arc-on edge under a grant counts a start on torch and part and is PIERCING; without
a grant the table is FAULT with the notice raised; a pierce time reached under a grant makes it CUTTING and clears the
torch's consecutive failures.
Arc time by R110 and the end of an arc by R108, R109, R111 and R116: each unit is added to the torch, the part and the
grant; at the arc-off edge, with a grant in CUTTING or without one, the rest of the units is added, the remainder carried, the
monitor OFF with its timer stopped (the units by log 19), and the torch is WORN, with the notice, where its wear points
have reached its limit; with no torch mounted the monitor alone counts. -/
def Obligations.ArcIsMonitored : Prop :=
  (∀ (s : State) (t : Nat), t ≤ 5 →
    ((s.monitor t).state = .off → (s.burn t).grant = none →
      exec (.arcOnEdge t) s = .next (raise ((s.setBurn t { s.burn t with state := .fault }).setMonitor t
        { s.monitor t with state := .cutting, units := 0 }) (.table t) .ungrantedArc)) ∧
    ∀ (g : Grant) (n : Nest) (p : Part) (m : Nat), (s.burn t).grant = some g → mountedTorch s t = some m →
      (s.zone (zoneOf t g.ref.bed)).nest = some n → n.parts[g.ref.part]? = some p →
      ((s.monitor t).state = .off →
        let k := zoneOf t g.ref.bed
        let u := s.setTorch m { s.torch m with starts := min 65535 ((s.torch m).starts + 1) }
        let n' := { n with parts := n.parts.set g.ref.part { p with starts := min 65535 (p.starts + 1) } }
        let u := u.setZone k { s.zone k with nest := some n' }
        exec (.arcOnEdge t) s = .next (u.setMonitor t { s.monitor t with state := .piercing, units := 0 })) ∧
      ((s.monitor t).state = .piercing →
        exec (.pierceTimeReached t) s = .next ((s.setMonitor t { s.monitor t with state := .cutting }).setTorch m
          { s.torch m with failed := 0 }))) ∧
  (∀ (s : State) (t m : Nat), t ≤ 5 → mountedTorch s t = some m →
    let M := s.monitor t
    let V := s.torch m
    (∀ (g : Grant) (n : Nest) (p : Part), M.state ≠ .off → (s.burn t).grant = some g →
      (s.zone (zoneOf t g.ref.bed)).nest = some n → n.parts[g.ref.part]? = some p →
      let k := zoneOf t g.ref.bed
      let u := s.setTorch m { V with arcTime := min 4294967295 (V.arcTime + 1) }
      let n' := { n with parts := n.parts.set g.ref.part { p with arcTime := min 4294967295 (p.arcTime + 1) } }
      let u := u.setZone k { s.zone k with nest := some n' }
      let u := u.setBurn t { s.burn t with grant := some { g with arcTime := g.arcTime + 1 } }
      exec (.arcTimeUnit t) s = .next (u.setMonitor t { M with units := M.units + 1 })) ∧
    (M.state ≠ .off → (s.burn t).grant = none →
      exec (.arcTimeUnit t) s = .next ((s.setTorch m { V with arcTime := min 4294967295 (V.arcTime + 1) }).setMonitor t
        { M with units := M.units + 1 })) ∧
    (M.state ≠ .off → (s.burn t).grant = none → ∀ on,
      let W := { V with arcTime := min 4294967295 (V.arcTime + ((M.carry + on) / 100 - M.units)) }
      let u := (s.setTorch m W).setMonitor t ⟨.off, false, (M.carry + on) % 100, 0⟩
      (V.state = .inService → V.limit ≤ W.starts * W.weight + W.arcTime / 100 →
        exec (.arcOffEdge t on) s = .next (raise (u.setTorch m { W with state := .worn }) (.table t) .torchWorn)) ∧
      (V.state ≠ .inService ∨ W.starts * W.weight + W.arcTime / 100 < V.limit →
        exec (.arcOffEdge t on) s = .next u)) ∧
    ∀ (g : Grant) (n : Nest) (p : Part) (on : Nat), M.state = .cutting → (s.burn t).grant = some g →
      (s.zone (zoneOf t g.ref.bed)).nest = some n → n.parts[g.ref.part]? = some p →
      let k := zoneOf t g.ref.bed
      let due := (M.carry + on) / 100 - M.units
      let W := { V with arcTime := min 4294967295 (V.arcTime + due) }
      let n' := { n with parts := n.parts.set g.ref.part { p with arcTime := min 4294967295 (p.arcTime + due) } }
      let u := (s.setTorch m W).setZone k { s.zone k with nest := some n' }
      let u := u.setBurn t { s.burn t with grant := some { g with arcTime := g.arcTime + due } }
      let u := u.setMonitor t ⟨.off, false, (M.carry + on) % 100, 0⟩
      (V.state = .inService → V.limit ≤ W.starts * W.weight + W.arcTime / 100 →
        exec (.arcOffEdge t on) s = .next (raise (u.setTorch m { W with state := .worn }) (.table t) .torchWorn)) ∧
      (V.state ≠ .inService ∨ W.starts * W.weight + W.arcTime / 100 < V.limit →
        exec (.arcOffEdge t on) s = .next u)) ∧
  (∀ (s : State) (t on : Nat), t ≤ 5 → mountedTorch s t = none → (s.burn t).grant = none →
    let M := s.monitor t
    M.state ≠ .off →
      exec (.arcTimeUnit t) s = .next (s.setMonitor t { M with units := M.units + 1 }) ∧
      exec (.arcOffEdge t on) s = .next (s.setMonitor t ⟨.off, false, (M.carry + on) % 100, 0⟩))

/-- The stuck-arc timer by R111, CLEAR_TABLE_FAULT by R113 and SET_BURN_TIMES by R114; that a SET_BURN_TIMES with neither
value is answered OK is the model's choice (log 53). -/
def Obligations.TableFaultsAndBurnTimes : Prop :=
  ∀ (s : State) (t : Nat),
    (t ≤ 5 → (s.monitor t).stuck = true → (s.monitor t).state ≠ .off → (s.burn t).grant = none →
      exec (.stuckArcTimerExpiry t) s = .next (raise ((s.setBurn t { s.burn t with state := .fault }).setMonitor t
        { s.monitor t with stuck := false }) (.table t) .arcStuck)) ∧
    (let c := Instr.clearTableFault t
     (5 < t → Refuses c s .clearTableFault .range) ∧
     (t ≤ 5 → (s.monitor t).state ≠ .off →
       Answers c s .clearTableFault .badState (.tableBurn (s.burn t).state (s.monitor t).state) s) ∧
     (t ≤ 5 → (s.monitor t).state = .off → (s.burn t).state = .fault →
       Answers c s .clearTableFault .ok (.tableBurn .idle .off) (s.setBurn t { s.burn t with state := .idle })) ∧
     (t ≤ 5 → (s.monitor t).state = .off → (s.burn t).state ≠ .fault →
       Answers c s .clearTableFault .ok (.tableBurn (s.burn t).state .off) s)) ∧
    ∀ pierce limit : Option Nat,
      let p := match pierce with
        | some v => if v < 50 then 50 else if 2000 < v then 2000 else v
        | none => s.bsv.pierceMin
      let l := match limit with
        | some v => if v < 10 then 10 else if 3600 < v then 3600 else v
        | none => s.bsv.burnLimit
      Answers (.setBurnTimes pierce limit) s .setBurnTimes .ok (.burnTimes p l)
        { s with bsv := { s.bsv with pierceMin := p, burnLimit := l } }

/-- MOUNT_TORCH and UNMOUNT_TORCH by R117 and R118: the answers in their order and what they leave.
Without a torch the OK of UNMOUNT_TORCH carries no record (log 43).
SET_TORCH, RESET_TORCH and READ_TORCH by R119 to R121; SET_TORCH of a mounted torch leaves the wear check to the arc-off
edge while the arc is on, and raises TORCH_WORN at its table. The torch of an id is the record that holds it (R115). -/
def Obligations.TorchesAreKept : Prop :=
  (∀ (s : State) (t id : Nat),
    let c := Instr.mountTorch t id
    let d := Instr.unmountTorch t
    let quiet := (s.burn t).state ≠ .granted ∧ (s.monitor t).state = .off
    (5 < t → Refuses c s .mountTorch .range ∧ Refuses d s .unmountTorch .range) ∧
    (t ≤ 5 → torchOfId s id = none → Refuses c s .mountTorch .notFound) ∧
    (∀ n, t ≤ 5 → torchOfId s id = some n →
      ((s.torch n).mounted = some t →
        Answers c s .mountTorch .ok (.torch ⟨n, s.torch n, (s.torch n).wear⟩) s) ∧
      ((s.torch n).mounted ≠ some t →
        (¬ quiet → Refuses c s .mountTorch .badState) ∧
        (quiet → mountedTorch s t ≠ none → Refuses c s .mountTorch .occupied) ∧
        (quiet → mountedTorch s t = none → (s.torch n).mounted ≠ none → Refuses c s .mountTorch .badState) ∧
        (quiet → mountedTorch s t = none → (s.torch n).mounted = none →
          let v := { s.torch n with
            mounted := some t, state := if (s.torch n).state = .spare then .inService else (s.torch n).state }
          Answers c s .mountTorch .ok (.torch ⟨n, v, v.starts * v.weight + v.arcTime / 100⟩)
            ((s.setTorch n v).setMonitor t { s.monitor t with carry := 0 })))) ∧
    (t ≤ 5 →
      (mountedTorch s t = none → Answers d s .unmountTorch .ok .none s) ∧
      ∀ m, mountedTorch s t = some m →
        (¬ quiet → Refuses d s .unmountTorch .badState) ∧
        (quiet →
          let v := { s.torch m with
            mounted := none, state := if (s.torch m).state = .inService then .spare else (s.torch m).state }
          Answers d s .unmountTorch .ok (.torchOnly m v) (s.setTorch m v)))) ∧
  (∀ s : State,
    (∀ a : TorchArg,
      let c := Instr.setTorch a
      let v := s.torch a.number
      let fields := a.number ≤ 11 ∧ (∀ x, a.id = some x → 1 ≤ x ∧ x ≤ 65535) ∧
        (∀ x, a.limit = some x → 1 ≤ x ∧ x ≤ 65535) ∧ ∀ x, a.weight = some x → 1 ≤ x ∧ x ≤ 255
      let taken := ∃ x n, a.id = some x ∧ n ≤ 11 ∧ n ≠ a.number ∧ (s.torch n).id = x
      let frozen := (∃ x, a.weight = some x ∧ x ≠ v.weight) ∧ 0 < v.starts
      let w := { v with id := a.id.getD v.id, limit := a.limit.getD v.limit, weight := a.weight.getD v.weight }
      let points := w.starts * w.weight + w.arcTime / 100
      let kept (x : Torch) : Prop :=
        Answers c s .setTorch .ok (.torch ⟨a.number, x, points⟩) (s.setTorch a.number x)
      (¬ fields → Refuses c s .setTorch .range) ∧ (fields → taken → Refuses c s .setTorch .occupied) ∧
      (fields → ¬ taken → frozen → Refuses c s .setTorch .badState) ∧
      (fields → ¬ taken → ¬ frozen → v.mounted = none → Canonical s →
        (w.limit ≤ points → v.state = .spare ∨ v.state = .inService → kept { w with state := .worn }) ∧
        (points < w.limit ∨ v.state = .worn ∨ v.state = .fault → kept w)) ∧
      ∀ x, fields → ¬ taken → ¬ frozen → v.mounted = some x →
        let t := s.setTorch a.number w
        let ripe := w.limit ≤ points ∧ (v.state = .spare ∨ v.state = .inService) ∧ (s.monitor x).state = .off
        (¬ ripe → Answers c s .setTorch .ok (.torch ⟨a.number, w, points⟩) t) ∧
        (ripe → Answers c s .setTorch .ok (.torch ⟨a.number, { w with state := .worn }, points⟩)
          (raise (t.setTorch a.number { w with state := .worn }) (.table x) .torchWorn))) ∧
    (∀ id n, torchOfId s id = some n ↔ n < 12 ∧ (s.torch n).id = id ∧ ∀ m, m < n → (s.torch m).id ≠ id) ∧
    ∀ id : Nat,
      (torchOfId s id = none →
        Refuses (.resetTorch id) s .resetTorch .notFound ∧ Refuses (.readTorch id) s .readTorch .notFound) ∧
      ∀ n, torchOfId s id = some n →
        let v := s.torch n
        Answers (.readTorch id) s .readTorch .ok (.fullTorch ⟨n, v, v.starts * v.weight + v.arcTime / 100⟩
          (v.limit - (v.starts * v.weight + v.arcTime / 100))
          (v.mounted.map fun t => ((s.burn t).state, (s.monitor t).state))) s ∧
        (∀ t, v.mounted = some t → (s.burn t).state = .granted ∨ (s.monitor t).state ≠ .off →
          Refuses (.resetTorch id) s .resetTorch .badState) ∧
        ((∀ t, v.mounted = some t → (s.burn t).state ≠ .granted ∧ (s.monitor t).state = .off) →
          let w := { v with
            starts := 0, arcTime := 0, failed := 0, state := if v.mounted = none then .spare else .inService }
          Answers (.resetTorch id) s .resetTorch .ok (.torchOnly n w) (s.setTorch n w)))

/-! ## Sensing -/

/-- A frame whose bits have all been received, by R125: parity over all bits, then the alarm bits, then the position, whose
gray form is converted bit by bit.
The position conversion and the bands of R133, and what a read that passed comes to: UNCONFIGURED with scale 0, RANGE
outside the band, else the position. -/
def Obligations.FramesAreJudged : Prop :=
  (∀ (f : FrameSettings) (bits : List Bool),
    let ones := (bits.filter (· = true)).length
    let bad := (f.parity = .even ∧ ones % 2 = 1) ∨ (f.parity = .odd ∧ ones % 2 = 0)
    let alarm := ∃ x ∈ (bits.drop f.dataBits).take f.statusBits, x = true
    let data := bits.take f.dataBits
    (bad → judgeFrame f bits = .error .parity) ∧ (¬ bad → alarm → judgeFrame f bits = .error .encoderAlarm) ∧
    (¬ bad → ¬ alarm → f.code = .binary → judgeFrame f bits = .ok (ofBits data)) ∧
    (¬ bad → ¬ alarm → f.code = .gray → ∃ out, judgeFrame f bits = .ok (ofBits out) ∧ out.length = data.length ∧
      ∀ i g, data[i]? = some g →
        out[i]? = some (if i = 0 then g else (out.getD (i - 1) false).xor g)) ∧
    ∀ (l : List Bool) (x : Bool), ofBits (l ++ [x]) = 2 * ofBits l + if x then 1 else 0) ∧
  (∀ (raw offset scale q v : Int) (r : Runway),
    (convert raw offset scale = q ↔ q * 65536 ≤ (raw - offset) * scale ∧ (raw - offset) * scale < (q + 1) * 65536) ∧
    (v < -500 ∨ r.length + 500 < v → bandValue r 0 v = none) ∧
    (-500 ≤ v → v ≤ r.length + 500 → bandValue r 0 v = some (if v < 0 then 0 else if v ≤ r.length then v else r.length)) ∧
    (v < -500 ∨ r.span + 500 < v → bandValue r 1 v = none) ∧
    (-500 ≤ v → v ≤ r.span + 500 → bandValue r 1 v = some (if v < 0 then 0 else if v ≤ r.span then v else r.span)) ∧
    (v < 0 ∨ 40000 < v → bandValue r 2 v = none) ∧ (0 ≤ v → v ≤ 40000 → bandValue r 2 v = some v) ∧
    ∀ (a : Axis) (n : Nat) (k : Latch),
      let judged (l : Nat) (x : Int) (o : Except ReadResult Int) : Prop :=
        (a.scale = 0 → o = .error .unconfigured) ∧
        (a.scale ≠ 0 → bandValue r l (convert x a.offset a.scale) = none → o = .error .range) ∧
        ∀ y, a.scale ≠ 0 → bandValue r l (convert x a.offset a.scale) = some y → o = .ok y
      judged 0 n (readOf r 0 a (.raw n)) ∧ judged 1 n (readOf r 1 a (.raw n)) ∧ judged 2 k.count.toInt (hoistRead r a k))

/-- SAMPLE_TICK by R131: missed while a sample collects; else a new sample starts, each channel by its mode and each hoist
latched, and stays collecting while a MASTER read is in flight; with none it completes in the same step, and all that
follows a completion is done. -/
def Obligations.TicksStartSamples : Prop :=
  ∀ (s : State) (lines : BitVec 6),
    (∀ cl, s.rsu.collecting = some cl →
      exec (.sampleTick lines) s = .next { s with rsu := { s.rsu with
        missedTicks := min 65535 (s.rsu.missedTicks + 1), collecting := some { cl with missed := cl.missed + 1 } } }) ∧
    (s.rsu.collecting = none → (∃ c, c < 6 ∧ (s.channel c).mode = .master) →
      ∃ t cl, exec (.sampleTick lines) s = .next t ∧ t.rsu.collecting = some cl ∧ cl.missed = 0 ∧
        t = { s with rsu := { s.rsu with channels := t.rsu.channels, collecting := some cl } } ∧
        (∀ h, h < 3 → bankGet (fun _ => Latch.reset) cl.latches h = ⟨(s.hoist h).count, (s.hoist h).homed⟩) ∧
        ∀ c, c < 6 →
          let ch := s.channel c
          let read := bankGet (fun _ => ReadOutcome.failed .disabled) cl.reads c
          (ch.mode = .disabled → read = .failed .disabled ∧ t.channel c = ch) ∧
          (ch.mode = .listen → ch.held = none → read = .failed .noFrame ∧ t.channel c = ch) ∧
          (∀ n, ch.mode = .listen → ch.held = some n → read = .raw n ∧ t.channel c = { ch with held := none }) ∧
          (ch.mode = .master → read = .inFlight ∧
            let fl : Flight := ⟨if lines.getLsbD c then .clocking else .waiting, ch.settings, s.clu.runway.period⟩
            t.channel c = { ch with flight := some fl })) ∧
    (s.rsu.collecting = none → (∀ c, c < 6 → (s.channel c).mode ≠ .master) →
      ∃ t u cl, exec (.sampleTick lines) s = .next t ∧ t.rsu.collecting = none ∧
        t.rsu.latest.seq = next32 s.rsu.latest.seq ∧ t.rsu.latest.missed = 0 ∧ t = completeSample u cl ∧ cl.missed = 0 ∧
        u = { s with rsu := { s.rsu with channels := u.rsu.channels, collecting := some cl } } ∧
        (∀ h, h < 3 → bankGet (fun _ => Latch.reset) cl.latches h = ⟨(s.hoist h).count, (s.hoist h).homed⟩) ∧
        ∀ c, c < 6 →
          let ch := s.channel c
          let read := bankGet (fun _ => ReadOutcome.failed .disabled) cl.reads c
          (ch.mode = .disabled → read = .failed .disabled ∧ u.channel c = ch) ∧
          (ch.mode = .listen → ch.held = none → read = .failed .noFrame ∧ u.channel c = ch) ∧
          ∀ n, ch.mode = .listen → ch.held = some n → read = .raw n ∧ u.channel c = { ch with held := none })

/-- A MASTER read by R126, while another read of its sample is in flight: it goes to CLOCKING when the line rises, ends
NO_DATA when the wait runs out or the line stands high at the end check, and else ends as its frame is judged by the
settings it was launched with.
The last read of a sample completes it in the same step (R131): the sample takes the next number, none collects, and all
that follows a completion is done. -/
def Obligations.MasterReadsEnd : Prop :=
  (∀ (s : State) (c o : Nat) (f : FrameSettings) (w bits : Nat) (cl : Collecting), c < 6 →
    let ch := s.channel c
    let B := bitsOf bits f.bits
    let ends (v : Channel) (r : ReadOutcome) : State :=
      let t := s.setChannel c { v with flight := none }
      { t with rsu := { t.rsu with
        collecting := some { cl with reads := bankSet (fun _ => .failed .disabled) cl.reads c r } } }
    let kept := { ch with lastStatus := statusOf f B }
    (ch.flight = some ⟨.waiting, f, w⟩ →
      exec (.ssiDataReady c) s = .next (s.setChannel c { ch with flight := some ⟨.clocking, f, w⟩ })) ∧
    (s.rsu.collecting = some cl → o ≠ c → (o, ReadOutcome.inFlight) ∈ cl.reads → Canonical s →
      (ch.flight = some ⟨.waiting, f, w⟩ →
        exec (.readyWaitExpiry c) s = .next (ends ch (.failed .noData))) ∧
      (ch.flight = some ⟨.clocking, f, w⟩ →
        exec (.masterReadEnd c bits true) s = .next (ends ch (.failed .noData)) ∧
        (judgeFrame f B = .error .parity →
          exec (.masterReadEnd c bits false) s = .next (ends kept (.failed .parity))) ∧
        (judgeFrame f B = .error .encoderAlarm →
          exec (.masterReadEnd c bits false) s = .next (ends kept (.failed .encoderAlarm))) ∧
        ∀ n, judgeFrame f B = .ok n →
          exec (.masterReadEnd c bits false) s = .next (ends { kept with lastRaw := n } (.raw n))))) ∧
  (∀ (s : State) (c w bits : Nat) (f : FrameSettings) (cl : Collecting), c < 6 → s.rsu.collecting = some cl →
    (∀ e ∈ cl.reads, e.1 ≠ c → e.2 ≠ .inFlight) → Canonical s →
    let ch := s.channel c
    let B := bitsOf bits f.bits
    let kept := { ch with lastStatus := statusOf f B }
    let completes (i : Instr) (v : Channel) (r : ReadOutcome) : Prop :=
      let last := { cl with reads := bankSet (fun _ => .failed .disabled) cl.reads c r }
      let u := s.setChannel c { v with flight := none }
      let t := completeSample { u with rsu := { u.rsu with collecting := some last } } last
      exec i s = .next t ∧ t.rsu.collecting = none ∧ t.rsu.latest.seq = next32 s.rsu.latest.seq ∧
        t.rsu.latest.missed = cl.missed ∧ (t.channel c).flight = none
    (ch.flight = some ⟨.waiting, f, w⟩ → completes (.readyWaitExpiry c) ch (.failed .noData)) ∧
    (ch.flight = some ⟨.clocking, f, w⟩ →
      completes (.masterReadEnd c bits true) ch (.failed .noData) ∧
      (judgeFrame f B = .error .parity → completes (.masterReadEnd c bits false) kept (.failed .parity)) ∧
      (judgeFrame f B = .error .encoderAlarm → completes (.masterReadEnd c bits false) kept (.failed .encoderAlarm)) ∧
      ∀ n, judgeFrame f B = .ok n → completes (.masterReadEnd c bits false) { kept with lastRaw := n } (.raw n)))

/-- The judging of the X and Y axes at a completion, by R132 to R136: a good read gives value and age, a failed one raises
the age, every missed tick raises it once more; the channel keeps the result and counts it; validity by age, and an axis
that was STALE returns only by a good read; the change of R134; and the completed sample holds what was judged. That a read that
failed on the line keeps its failure as the result, with scale 0 too, is the model's choice (log 14).
The judging of the H axis, by its latched count and homed flag (R132; the mark of a homing, log 13; an axis UNHOMED is
not STALE, log 50).
A completion does all that follows it in one step (R132, R135, R142, R104): settings in force, the axes judged and the
sample latest, then the evaluation, then the revocations. -/
def Obligations.SamplesJudgeAxes : Prop :=
  (∀ (s : State) (cl : Collecting) (c l : Nat), c < 3 → l < 2 →
    let t := completeSample s cl
    let k := 3 * c + l
    let a := s.axis k
    let r := s.clu.runwayNext.getD s.clu.runway
    let o := bankGet (fun _ => ReadOutcome.failed .disabled) cl.reads (2 * c + l)
    let good := ∃ n v, o = .raw n ∧ a.scale ≠ 0 ∧ bandValue r l (convert n a.offset a.scale) = some v
    let x := t.axis k
    let m := t.sampled c
    let old := if l = 0 then (s.sampled c).x else (s.sampled c).y
    let before := s.channel (2 * c + l)
    let fails (e : ReadResult) : Prop :=
      t.channel (2 * c + l) = { before with lastResult := e, failed := min 65535 (before.failed + 1) }
    (∀ n v, o = .raw n → a.scale ≠ 0 → bandValue r l (convert n a.offset a.scale) = some v →
      x.value = v ∧ x.age = min 255 cl.missed ∧ x.good = true ∧
      t.channel (2 * c + l) = { before with lastResult := .good, good := min 65535 (before.good + 1) }) ∧
    ((∀ n, o = .raw n → a.scale = 0 ∨ bandValue r l (convert n a.offset a.scale) = none) →
      x.value = a.value ∧ x.age = min 255 (a.age + 1 + cl.missed) ∧ x.good = a.good) ∧
    (∀ e, o = .failed e → fails e) ∧ (∀ n, o = .raw n → a.scale = 0 → fails .unconfigured) ∧
    (∀ n, o = .raw n → a.scale ≠ 0 → bandValue r l (convert n a.offset a.scale) = none → fails .range) ∧
    (x.validity = .valid ↔ x.age = 0 ∧ x.good = true) ∧
    (x.validity = .held ↔ 0 < x.age ∧ x.good = true ∧ x.age < r.staleLimit ∧ (good ∨ a.validity ≠ .stale)) ∧
    (x.validity = .stale ∨ x.validity = .valid ∨ x.validity = .held) ∧
    (old.validity.placed = false ∨ x.validity = .stale → x.delta = none) ∧
    (old.validity.placed = true → x.validity = .valid → x.delta = some (x.value - old.value)) ∧
    (old.validity.placed = true → x.validity = .held →
      x.delta = if l = 0 then (s.sampled c).dx else (s.sampled c).dy) ∧
    (l = 0 → m.x = ⟨x.value, x.validity, x.age⟩ ∧ m.dx = x.delta ∧ m.goodX = x.good) ∧
    (l = 1 → m.y = ⟨x.value, x.validity, x.age⟩ ∧ m.dy = x.delta) ∧
    (a.validity.placed = true → x.validity = .stale →
      t.notice (noticeCode (.crane c) .positionStale) = some false)) ∧
  (∀ (s : State) (cl : Collecting) (c : Nat), c < 3 →
    let t := completeSample s cl
    let k := 3 * c + 2
    let a := s.axis k
    let r := s.clu.runwayNext.getD s.clu.runway
    let latch := bankGet (fun _ => Latch.reset) cl.latches c
    let read := bandValue r 2 (convert latch.count.toInt a.offset a.scale)
    let good := a.scale ≠ 0 ∧ read ≠ none
    let x := t.axis k
    let m := t.sampled c
    (∀ v, a.scale ≠ 0 → read = some v → x.value = v ∧ x.age = min 255 cl.missed ∧ x.good = true) ∧
    (¬ good → x.value = a.value ∧ x.age = min 255 (a.age + 1 + cl.missed) ∧ x.good = a.good) ∧
    (latch.homed = false → x.validity = .unhomed) ∧
    (latch.homed = true →
      (x.validity = .valid ↔ x.age = 0 ∧ x.good = true) ∧
      (x.validity = .held ↔ 0 < x.age ∧ x.good = true ∧ x.age < r.staleLimit ∧ (good ∨ a.validity ≠ .stale)) ∧
      (x.validity = .stale ∨ x.validity = .valid ∨ x.validity = .held)) ∧
    t.hoist c = { s.hoist c with fresh := false } ∧ m.h = ⟨x.value, x.validity, x.age⟩ ∧ m.latch = latch ∧
    (a.validity.placed = true → x.validity = .stale → (s.hoist c).fresh = false →
      t.notice (noticeCode (.crane c) .positionStale) = some false)) ∧
  ∀ (s : State) (cl : Collecting), ∃ v, completeSample s cl = revokeIntruded (evaluate v) ∧
    v = { s with rsu := v.rsu, clu := v.clu, ppn := v.ppn } ∧ v.rsu = (completeSample s cl).rsu ∧
    v.rsu.collecting = none ∧ v.rsu.latest.seq = next32 s.rsu.latest.seq ∧ v.rsu.latest.missed = cl.missed ∧
    v.rsu.latest.missedCount = s.rsu.missedTicks ∧ v.ppn.mode = s.ppn.mode ∧
    v.clu.runway = s.clu.runwayNext.getD s.clu.runway ∧ v.clu.runwayNext = none ∧ v.clu.pairs = s.clu.pairs ∧
    v.clu.intruders = s.clu.intruders ∧
    ∀ c, c < 3 → v.crane c = { s.crane c with westIn := (s.crane c).west, eastIn := (s.crane c).east }

/-- LISTEN_FRAME_END by R127 (log 15): a frame of the wrong length is kept as BIT_COUNT, an exact one is judged, and one that passes
becomes the held frame; a rejected frame leaves the held frame as it was.
The hoist counters by R129 and R130: one change counts up in the order in which A leads B and down in the other, with
the wrap of 32 bits; both inputs together count nothing and unhome a homed axis; an index pulse at the upper limit of an
armed pass loads the home count, and an H axis that was UNHOMED changes its validity then (R124); HOME_HOIST arms. Which
validity it changes to is the model's reading (log 12). -/
def Obligations.ListenFramesAndHoists : Prop :=
  (∀ (s : State) (c : Nat) (bits : List Bool) (period : Option Nat), c < 6 → (s.channel c).mode = .listen →
    let ch := { s.channel c with period := period.getD (s.channel c).period }
    let f := ch.settings
    let becomes (v : Channel) : Prop := exec (.listenFrameEnd c bits period) s = .next (s.setChannel c v)
    let whole := { ch with lastLength := .exact, lastStatus := statusOf f bits }
    (bits.length < f.bits → becomes { ch with lastLength := .less, lastFrame := some .bitCount }) ∧
    (f.bits < bits.length → becomes { ch with lastLength := .more, lastFrame := some .bitCount }) ∧
    (bits.length = f.bits →
      (∀ e, judgeFrame f bits = .error e → becomes { whole with lastFrame := some e }) ∧
      ∀ n, judgeFrame f bits = .ok n → becomes { whole with lastFrame := some .passed, lastRaw := n, held := some n })) ∧
  (∀ (s : State) (c : Nat), c < 3 →
    let v := s.hoist c
    let turn (a b a' b' : Bool) : Instr := .quadratureTransition c a b a' b'
    (∀ i ∈ [turn false false true false, turn true false true true, turn true true false true, turn false true false false],
      exec i s = .next (s.setHoist c { v with count := v.count + 1 })) ∧
    (∀ i ∈ [turn false false false true, turn false true true true, turn true true true false, turn true false false false],
      exec i s = .next (s.setHoist c { v with count := v.count - 1 })) ∧
    (∀ i ∈ [turn false false true true, turn true true false false, turn true false false true, turn false true true false],
      (v.homed = false → exec i s = .next s) ∧
      (v.homed = true → exec i s = .next (raise ((s.setHoist c { v with homed := false }).setAxis (3 * c + 2)
        { s.axis (3 * c + 2) with validity := .unhomed }) (.crane c) .hoistUnhomed))) ∧
    (v.armed = true →
      let x := s.axis (3 * c + 2)
      ∃ w, exec (.indexPulse c true) s = .next (raise ((s.setHoist c ⟨v.home, true, false, v.home, true⟩).setAxis (3 * c + 2)
          { x with validity := w }) (.crane c) .hoistHomed) ∧
        (x.validity ≠ .unhomed → w = x.validity) ∧
        (x.validity = .unhomed →
          (w = .valid ↔ x.good = true ∧ x.age = 0) ∧
          (w = .held ↔ x.good = true ∧ 0 < x.age ∧ x.age < s.clu.runway.staleLimit) ∧
          (w = .valid ∨ w = .held ∨ w = .stale))) ∧
    (v.armed = true → exec (.indexPulse c false) s = .next s) ∧
    (v.armed = false → ∀ upper, exec (.indexPulse c upper) s = .next s) ∧
    Answers (.homeHoist c) s .homeHoist .ok (.hoist { v with armed := true }) (s.setHoist c { v with armed := true }) ∧
    ∀ d, 2 < d → Refuses (.homeHoist d) s .homeHoist .range)

/-- SET_AXIS by R137: refused outside COLD and out of range, the mode checked first, here and in CALIBRATE_AXIS, which is the
model's choice (log 64); the fields given are written, a channel given fields has its
counts and held frame cleared, and the homing pass of an H axis is disarmed. The reply is the axis as READ_SAMPLE gives it
(R139): its place in the latest sample, its settings, and the fields of its channel or hoist.
CALIBRATE_AXIS by R138: the checks in their order, and the scale and offset, each division rounded to the nearest whole
number with a half away from zero. -/
def Obligations.AxesAreSetAndCalibrated : Prop :=
  (∀ (s : State) (c l : Nat) (a : AxisArg),
    let i := Instr.setAxis c l a
    let k := 3 * c + l
    let ch := s.channel (2 * c + l)
    let given := a.mode ≠ none ∨ a.dataBits ≠ none ∨ a.statusBits ≠ none ∨ a.parity ≠ none ∨ a.code ≠ none ∨
      a.clock ≠ none
    let fields := c ≤ 2 ∧ l ≤ 2 ∧ (l = 2 → ¬ given) ∧ (l ≠ 2 → a.home = none) ∧ (∀ x, a.mode = some x → x ≤ 2) ∧
      (∀ x, a.dataBits = some x → 10 ≤ x ∧ x ≤ 31) ∧ (∀ x, a.statusBits = some x → x ≤ 4) ∧
      (∀ x, a.parity = some x → x ≤ 2) ∧ (∀ x, a.code = some x → x ≤ 1) ∧
      (∀ x, a.clock = some x → x ∈ [100, 200, 400, 800, 1500]) ∧
      (∀ x, a.scale = some x → 16 ≤ x.natAbs ∧ x.natAbs ≤ 1048576) ∧
      (∀ x, a.offset = some x → -2147483648 ≤ x ∧ x ≤ 2147483647) ∧ (a.scale = none ↔ a.offset = none)
    let scaled (t : State) : State := t.setAxis k { s.axis k with
      scale := a.scale.getD (s.axis k).scale, offset := a.offset.getD (s.axis k).offset }
    let done (t : State) : Prop := Answers i s .setAxis .ok (.axis (axisView (scaled t) c l)) (scaled t)
    (s.ppn.mode ≠ .cold → Refuses i s .setAxis .wrongMode) ∧
    (s.ppn.mode = .cold → ¬ fields → Refuses i s .setAxis .range) ∧
    (s.ppn.mode = .cold → fields →
      (l ≠ 2 → ¬ given → done s) ∧
      (l ≠ 2 → given →
        ∃ v, done (s.setChannel (2 * c + l) v) ∧ v.good = 0 ∧ v.failed = 0 ∧ v.held = none ∧
          (a.mode = none → v.mode = ch.mode) ∧ (a.mode = some 0 → v.mode = .disabled) ∧
          (a.mode = some 1 → v.mode = .master) ∧ (a.mode = some 2 → v.mode = .listen) ∧
          v.settings.dataBits = a.dataBits.getD ch.settings.dataBits ∧
          v.settings.statusBits = a.statusBits.getD ch.settings.statusBits ∧
          v.settings.clock = a.clock.getD ch.settings.clock ∧
          (a.parity = none → v.settings.parity = ch.settings.parity) ∧
          (a.parity = some 0 → v.settings.parity = .none) ∧ (a.parity = some 1 → v.settings.parity = .even) ∧
          (a.parity = some 2 → v.settings.parity = .odd) ∧ (a.code = none → v.settings.code = ch.settings.code) ∧
          (a.code = some 0 → v.settings.code = .binary) ∧ (a.code = some 1 → v.settings.code = .gray) ∧
          v.flight = ch.flight ∧ v.lastResult = ch.lastResult ∧ v.lastRaw = ch.lastRaw ∧ v.lastStatus = ch.lastStatus ∧
          v.lastLength = ch.lastLength ∧ v.lastFrame = ch.lastFrame ∧ v.period = ch.period) ∧
      (l = 2 → done (s.setHoist c { s.hoist c with armed := false, home := a.home.getD (s.hoist c).home })))) ∧
  (∀ (s : State) (c : Nat),
    let m := s.sampled c
    let shows (l : Nat) (g : Reading) (x : AxisSource) : Prop :=
      axisView s c l = ⟨g, (s.axis (3 * c + l)).scale, (s.axis (3 * c + l)).offset, x⟩
    shows 0 m.x (.x m.dx m.goodX (s.channel (2 * c))) ∧ shows 1 m.y (.y m.dy (s.channel (2 * c + 1))) ∧
    shows 2 m.h (.h m.latch (s.hoist c))) ∧
  (∀ (s : State) (c l : Nat) (a : SurveyArg) (scale p : Int),
    let i := Instr.calibrateAxis c l a
    let top : Int := if l = 0 then s.clu.runway.length else if l = 1 then s.clu.runway.span else 40000
    let rawFits (x : Int) : Prop := if l = 2 then -2147483648 ≤ x ∧ x ≤ 2147483647
      else 0 ≤ x ∧ x < 2 ^ (s.channel (2 * c + l)).settings.dataBits
    let rounds (q n d : Int) : Prop := 2 * (n - q * d).natAbs ≤ d.natAbs ∧
      (2 * (n - q * d).natAbs = d.natAbs → n.natAbs ≤ (q * d).natAbs)
    let points := c ≤ 2 ∧ l ≤ 2 ∧ (0 ≤ a.mm1 ∧ a.mm1 ≤ top) ∧ (0 ≤ a.mm2 ∧ a.mm2 ≤ top) ∧ rawFits a.raw1 ∧
      rawFits a.raw2 ∧ a.raw1 ≠ a.raw2
    let offset := a.raw1 - p
    (s.ppn.mode ≠ .cold → Refuses i s .calibrateAxis .wrongMode) ∧
    (s.ppn.mode = .cold → ¬ points → Refuses i s .calibrateAxis .range) ∧
    (s.ppn.mode = .cold → points → rounds scale ((a.mm2 - a.mm1) * 65536) (a.raw2 - a.raw1) →
      (scale.natAbs < 16 ∨ 1048576 < scale.natAbs → Refuses i s .calibrateAxis .range) ∧
      (16 ≤ scale.natAbs → scale.natAbs ≤ 1048576 → rounds p (a.mm1 * 65536) scale →
        (offset < -2147483648 ∨ 2147483647 < offset → Refuses i s .calibrateAxis .range) ∧
        (-2147483648 ≤ offset → offset ≤ 2147483647 →
          Answers i s .calibrateAxis .ok
            (.calibration scale offset (convert a.raw1 offset scale) (convert a.raw2 offset scale))
            (s.setAxis (3 * c + l) { s.axis (3 * c + l) with scale := scale, offset := offset })))))

/-! ## Clearance -/

/-- Stages 1 to 4 of an evaluation: allowances by R143, gaps and order faults by R144 and R145 with the extents in force
(R154), hook states by R147, intruding cranes by R148 and R149. -/
def Obligations.EvaluationMeasures : Prop :=
  ∀ s : State,
    let t := evaluate s
    let r := s.clu.runway
    let m := s.sampled
    let ahead (d : Option Int) (n : Nat) : Prop :=
      (d = none → n = 20000) ∧
      ∀ v, d = some v → (v ≤ 0 → n = 0) ∧
        (0 < v → (r.lookAhead * v ≤ 20000 * r.period →
            (n : Int) * r.period ≥ v * r.lookAhead ∧ ((n : Int) - 1) * r.period < v * r.lookAhead) ∧
          (20000 * r.period < r.lookAhead * v → n = 20000))
    (0 < r.period → ∀ c, c < 3 → ahead (m c).dx (t.crane c).aE ∧ ahead ((m c).dx.map (- ·)) (t.crane c).aW ∧
      ahead (m c).dy (t.crane c).aN ∧ ahead ((m c).dy.map (- ·)) (t.crane c).aS) ∧
    (∀ c, c < 2 →
      let g := ((m (c + 1)).x.value - (s.crane (c + 1)).westIn) - ((m c).x.value + (s.crane c).eastIn)
      let seen := (m c).x.validity.placed = true ∧ (m (c + 1)).x.validity.placed = true
      (seen → (t.pair c).gap = some g) ∧ (¬ seen → (t.pair c).gap = none) ∧
      ((t.pair c).orderFault = true ↔ (s.pair c).orderFault = true ∨ (seen ∧ g < 0)) ∧
      ((s.pair c).orderFault = false → seen → g < 0 →
        t.notice (noticeCode (.crane c) .orderFault) = some false ∧
        t.notice (noticeCode (.crane (c + 1)) .orderFault) = some false)) ∧
    (∀ c, c < 3 →
      ((t.crane c).hook = .high ↔ (m c).h.validity.placed = true ∧ (r.overfly : Int) ≤ (m c).h.value)) ∧
    ∀ c z, c < 3 → z < 12 →
      let b := s.bed z
      let x := (m c).x.value
      let y := (m c).y.value
      let R := r.reach
      let placed := (m c).x.validity.placed = true ∧ (m c).y.validity.placed = true
      let above := (t.crane c).hook = .low ∧ (b.x0 : Int) - r.margin ≤ x ∧ x ≤ b.x1 + r.margin ∧
        (b.y0 : Int) - r.margin ≤ y ∧ y ≤ b.y1 + r.margin
      let near := (m c).goodX = false ∨ ((b.x0 : Int) ≤ x + R ∧ x ≤ b.x1 + R)
      b.x0 ≤ b.x1 → (c ∈ t.intruders z ↔ b.configured = true ∧ ((placed ∧ above) ∨ (¬ placed ∧ near)))

/-- Stage 5 of an evaluation, by R151: a travel permissive is on exactly when no condition holds it off; a mode other than
OPEN, an order fault, a stale axis of its own, a stale neighbour, or a distance below what is required, with the
hysteresis added where it was off, each holds it off. (ORDER_FAULT is a fault of a pair of the crane's own, log 44;
NEIGHBOUR_STALE is recorded for the neighbour's X alone, and NEIGHBOUR only where the gap is judged, log 22.)
The keep-out terms of an evaluation, by R150 (with Y STALE, log 23): for a LOW hook with its X placed, each permissive toward a zone that holds a
grant is held off where the distance to the zone's grown rectangle is not negative and below what is required.
At a grant the permissives are evaluated at once, and none comes on (R152; what it leaves recorded, log 21); as the hall stops all twelve go off with MODE
among their conditions (R153). -/
def Obligations.EvaluationSetsPermissives : Prop :=
  (∀ (s : State) (c : Nat) (d : Dir), c < 3 →
    let t := evaluate s
    let r := s.clu.runway
    let m := s.sampled
    let p := (t.crane c).permissive d
    let back : Int := if ((s.crane c).permissive d).on = true then 0 else r.hysteresis
    (p.on = true ↔ p.conds = []) ∧ (.mode ∈ p.conds ↔ s.ppn.mode ≠ .opened) ∧
    (.orderFault ∈ p.conds ↔ (c < 2 ∧ (t.pair c).orderFault = true) ∨ (0 < c ∧ (t.pair (c - 1)).orderFault = true)) ∧
    (.staleX ∈ p.conds ↔ (m c).x.validity.placed = false) ∧
    (.staleY ∈ p.conds ↔ (d = .n ∨ d = .s) ∧ (m c).y.validity.placed = false) ∧
    (.neighbourStale ∈ p.conds ↔
      (d = .e ∧ c < 2 ∧ (m (c + 1)).x.validity.placed = false) ∨
      (d = .w ∧ 0 < c ∧ (m (c - 1)).x.validity.placed = false)) ∧
    (.neighbour ∈ p.conds ↔
      (d = .e ∧ c < 2 ∧ ∃ g, (t.pair c).gap = some g ∧
        g < (r.separation : Int) + (t.crane c).aE + (t.crane (c + 1)).aW + back) ∨
      (d = .w ∧ 0 < c ∧ ∃ g, (t.pair (c - 1)).gap = some g ∧
        g < (r.separation : Int) + (t.crane (c - 1)).aE + (t.crane c).aW + back)) ∧
    (.runwayEnd ∈ p.conds ↔ (m c).x.validity.placed = true ∧
      ((d = .w ∧ c = 0 ∧ (m c).x.value - (s.crane c).westIn < (r.separation : Int) + (t.crane c).aW + back) ∨
       (d = .e ∧ c = 2 ∧
         (r.length : Int) - ((m c).x.value + (s.crane c).eastIn) < (r.separation : Int) + (t.crane c).aE + back)))) ∧
  (∀ (s : State) (c z : Nat) (d : Dir), c < 3 → z < 12 →
    let t := evaluate s
    let r := s.clu.runway
    let b := s.bed z
    let x := (s.sampled c).x.value
    let y := (s.sampled c).y.value
    let M : Int := r.margin
    let Y := (s.sampled c).y.validity.placed = true
    let back : Int := if ((s.crane c).permissive d).on = true then 0 else r.hysteresis
    let inX := b.x0 - M ≤ x ∧ x ≤ b.x1 + M
    let inY := ¬ Y ∨ (b.y0 - M ≤ y ∧ y ≤ b.y1 + M)
    let short (dist : Int) (a : Nat) : Prop := 0 ≤ dist ∧ dist < a + M + back
    (.keepOut z ∈ ((t.crane c).permissive d).conds ↔
      s.grantHeld z = true ∧ b.configured = true ∧ (t.crane c).hook = .low ∧
        (s.sampled c).x.validity.placed = true ∧
        ((d = .e ∧ inY ∧ short (b.x0 - M - x) (t.crane c).aE) ∨
         (d = .w ∧ inY ∧ short (x - (b.x1 + M)) (t.crane c).aW) ∨
         (d = .n ∧ Y ∧ inX ∧ short (b.y0 - M - y) (t.crane c).aN) ∨
         (d = .s ∧ Y ∧ inX ∧ short (y - (b.y1 + M)) (t.crane c).aS)))) ∧
  (∀ (s : State) (c : Nat) (d : Dir), c < 3 →
    let p := (s.crane c).permissive d
    let g := ((evaluateGrant s).crane c).permissive d
    let q := ((stopPermissives s).crane c).permissive d
    (p.on = false → g = p) ∧ (p.on = true → g.conds = condsOf s true c d ∧ (g.on = true ↔ g.conds = [])) ∧
    q.on = false ∧ .mode ∈ q.conds ∧ ∀ x ∈ p.conds, x ∈ q.conds)

/-- CLEAR_ORDER_FAULT by R146, and SET_CRANE by R154: the answers in their order and what they leave.
SET_RUNWAY by R155: each setting given is clamped to its range, and those accepted wait for the next completion, at
which they and the extents come into force. A setting left out keeps its waiting value if one waits (log 10). -/
def Obligations.ClearanceIsSettled : Prop :=
  (∀ (s : State) (c : Nat),
    (let i := Instr.clearOrderFault c
     let vx := (s.sampled c).x.validity
     let vy := (s.sampled (c + 1)).x.validity
     let g := (s.pair c).gap
     let seen := vx.placed = true ∧ vy.placed = true
     (1 < c → Refuses i s .clearOrderFault .range) ∧
     (c ≤ 1 → (s.pair c).orderFault = false → Answers i s .clearOrderFault .ok (.pair g vx vy false) s) ∧
     (c ≤ 1 → (s.pair c).orderFault = true →
       (¬ seen ∨ (∃ x, g = some x ∧ x < 0) → Answers i s .clearOrderFault .badState (.pair g vx vy true) s) ∧
       (seen → (∀ x, g = some x → 0 ≤ x) →
         Answers i s .clearOrderFault .ok (.pair g vx vy false) (s.setPair c ⟨g, false⟩)))) ∧
    ∀ a : CraneArg,
      let i := Instr.setCrane c a
      let v := s.crane c
      let fields := c ≤ 2 ∧ (∀ x, a.capacity = some x → x ≤ 100000) ∧ (∀ x, a.west = some x → x ≤ 30000) ∧
        ∀ x, a.east = some x → x ≤ 30000
      let heavy := ∃ x, a.capacity = some x ∧ ((∃ h p, s.hook c = some h ∧ s.piece? h = some p ∧ x < p.mass) ∨
        ∃ m p, m ∈ s.queue c ∧ s.piece? m.piece = some p ∧ x < p.mass)
      let w := { v with
        capacity := a.capacity.getD v.capacity, west := a.west.getD v.west, east := a.east.getD v.east }
      (¬ fields → Refuses i s .setCrane .range) ∧
      (fields → s.ppn.mode ≠ .cold → Refuses i s .setCrane .wrongMode) ∧
      (fields → s.ppn.mode = .cold → heavy → Refuses i s .setCrane .overweight) ∧
      (fields → s.ppn.mode = .cold → ¬ heavy →
        Answers i s .setCrane .ok (.crane w.capacity w.west w.east) (s.setCrane c w))) ∧
  (∀ (s : State) (a : RunwayArg),
    let k := s.clu.runwayNext.getD s.clu.runway
    let pick (given : Option Nat) (lo hi kept : Nat) : Nat :=
      match given with
      | some v => if v < lo then lo else if hi < v then hi else v
      | none => kept
    let r : Runway :=
      { length := pick a.length 10000 400000 k.length, span := pick a.span 5000 60000 k.span,
        separation := pick a.separation 1000 50000 k.separation, lookAhead := pick a.lookAhead 0 8000 k.lookAhead,
        hysteresis := pick a.hysteresis 0 2000 k.hysteresis, overfly := pick a.overfly 1000 40000 k.overfly,
        margin := pick a.margin 0 10000 k.margin, reach := pick a.reach 0 400000 k.reach,
        tolerance := pick a.tolerance 50 2000 k.tolerance, period := pick a.period 5 100 k.period,
        staleLimit := pick a.staleLimit 2 10 k.staleLimit }
    Answers (.setRunway a) s .setRunway .ok (.runway r) { s with clu := { s.clu with runwayNext := some r } } ∧
    ∀ cl, (completeSample s cl).clu.runway = k ∧ (completeSample s cl).clu.runwayNext = none ∧
      ∀ c, c < 3 → ((completeSample s cl).crane c).westIn = (s.crane c).west ∧
        ((completeSample s cl).crane c).eastIn = (s.crane c).east)

/-! ## Moves -/

/-- QUEUE_MOVE by R160: its checks in their order after the handle, and the move it puts at the tail. That its place is
counted from 0 at the front is the model's reading (log 29), and so is RANGE for a destination of another form (log 33).
The destination that a location names; none where it is out of range, or no slot or zone.
The move id drawn is the first, from the counter on, that no move in use holds (R158). -/
def Obligations.QueueMoveQueues : Prop :=
  (∀ (l : LocArg) (d : Dest), destArg? l = some d ↔
    (∃ x, l = .slot x ∧ x.bay ≤ 9 ∧ x.slot ≤ 15 ∧ d = .slot (16 * x.bay + x.slot)) ∨
    ∃ x, l = .zone x ∧ x.table ≤ 5 ∧ x.bed ≤ 1 ∧ d = .zone (2 * x.table + x.bed)) ∧
  (∀ (s : State) (c : Nat) (h : Handle) (l : LocArg) (d : Dest) (p : Piece),
    let i := Instr.queueMove c h l
    (destArg? l = none ∨ 2 < c → Refuses i s .queueMove .range) ∧
    (destArg? l = some d → c ≤ 2 → 16 ≤ (s.queue c).length → Refuses i s .queueMove .queueFull) ∧
    (destArg? l = some d → c ≤ 2 → (s.queue c).length < 16 → s.names h p →
      let astray := p.state = .inCut ∨ p.state = .inTransit ∨ (p.state = .onTable ∧
        ∃ z, p.place = .zone z ∧ (s.zone z).phase ≠ .loaded ∧ (s.zone z).phase ≠ .cut)
      let closed := (∃ n, d = .slot n ∧ (s.slot n).enabled = false) ∨
        (∃ z, d = .zone z ∧ (s.bed z).configured = false) ∨ p.place = d.place
      let promised := ∃ z, d = .zone z ∧ ((∃ x m, x < 3 ∧ m ∈ s.queue x ∧ m.id ≠ 0 ∧ m.dest = some (.zone z)) ∨
        ∃ n, (s.zone z).nest = some n ∧ n.state = .staged ∧ n.plate ≠ h)
      (astray ∨ p.move ≠ none ∨ closed → Refuses i s .queueMove .badState) ∧
      (¬ astray → p.move = none → ¬ closed →
        ((s.crane c).capacity < p.mass → Refuses i s .queueMove .overweight) ∧
        (p.mass ≤ (s.crane c).capacity → promised → Refuses i s .queueMove .occupied) ∧
        (p.mass ≤ (s.crane c).capacity → ¬ promised →
          let id := drawMoveId s
          let m : Move := ⟨id, h, some d, .queued⟩
          let t := (s.setQueue c (s.queue c ++ [m])).setRecord h.index ⟨h.gen, some { p with move := some id }⟩
          let t : State := { t with mvc := { t.mvc with nextId := if id < 65535 then id + 1 else 1 } }
          Answers i s .queueMove .ok (.queued c m (s.queue c).length) t)))) ∧
  (∀ s : State, (∀ c, c < 3 → (s.queue c).length ≤ 16) → 1 ≤ s.mvc.nextId → s.mvc.nextId ≤ 65535 →
    (∀ c m, c < 3 → m ∈ s.queue c → m.id ≠ drawMoveId s) ∧
    ∃ n, drawMoveId s = idAfter^[n] s.mvc.nextId ∧
      ∀ k, k < n → ∃ c m, c < 3 ∧ m ∈ s.queue c ∧ m.id = idAfter^[k] s.mvc.nextId)

/-- TAKE_MOVE by R161 and R162 from the crane's station: it repeats a current move, tells a cancellation once, is refused in
COLD and, for a new move, in STOPPED, answers NONE without a QUEUED move, leaves a blocked head where it is, and else
takes the head, whose source is locked and whose destination is reserved. That a CANCELLED answer carries the ended move is
the model's choice (log 56).
What blocks the head at TAKE_MOVE, by case 6 of R161: the status, and the check that failed.
What the answer carries of a move, by R162: the move with its state (log 46) and its piece, the source while it is TAKEN,
the destination, and their centres. -/
def Obligations.TakeMoveTakes : Prop :=
  (∀ (s : State) (a c : Nat), s.serves a .crane c →
    let i := Instr.takeMove c
    let u := answering s a
    let tells (st : Status) (r : ReplyRecord) (t : State) : Prop := StationAnswers i s a .takeMove st r t
    (s.ppn.mode = .cold → StationRefuses i s a .takeMove .wrongMode) ∧
    (s.ppn.mode ≠ .cold →
      (∀ m q, s.queue c = m :: q → m.state ≠ .queued → tells .ok (takeView s c m) u) ∧
      ((∀ m q, s.queue c = m :: q → m.state = .queued) →
        (∀ id h, s.endedMove c = some ⟨id, h, .cancelled false⟩ →
          let e : EndedMove := ⟨id, h, .cancelled true⟩
          tells .cancelled (.cancelledMove e) (u.setEndedMove c (some e))) ∧
        ((∀ id h, s.endedMove c ≠ some ⟨id, h, .cancelled false⟩) →
          (s.ppn.mode = .stopped → StationRefuses i s a .takeMove .stopped) ∧
          (s.ppn.mode = .opened → s.queue c = [] → StationRefuses i s a .takeMove .none) ∧
          ∀ m q p, s.ppn.mode = .opened → s.queue c = m :: q → s.piece? m.piece = some p →
            (∀ e x, headBlocked s m p = some (e, x) → tells e (.blocked m.id m.piece x) u) ∧
            (headBlocked s m p = none → (∀ x ∈ q, x.id ≠ m.id) →
              let m' := { m with state := .taken }
              let t := (u.setQueue c (m' :: q)).setEndedMove c none
              let t := match p.place with
                | .slot n => t.setSlot n { s.slot n with outCount := (s.slot n).outCount + 1 }
                | _ => t
              let t := match m.dest with
                | some (.slot n) => t.setSlot n { t.slot n with
                    inCount := (t.slot n).inCount + 1, inThick := (t.slot n).inThick + p.thickness }
                | some (.zone z) => t.setZone z { s.zone z with inbound := some m.id, phase := .loading }
                | none => t
              tells .ok (takeView t c m') t))))) ∧
  (∀ (s : State) (m : Move) (p : Piece),
    let clearOut := ∀ n, p.place = .slot n → (s.slot n).inCount = 0 ∧ pieceDepth s m.piece p = 0
    (∀ n, p.place = .slot n → 0 < (s.slot n).inCount → headBlocked s m p = some (.occupied, .sourceInbound)) ∧
    (∀ n, p.place = .slot n → (s.slot n).inCount = 0 → 0 < pieceDepth s m.piece p →
      headBlocked s m p = some (.buried, .notOnTop)) ∧
    (clearOut → ∀ n, m.dest = some (.slot n) →
      (roomTest s n p.thickness = none → headBlocked s m p = none) ∧
      ∀ e, roomTest s n p.thickness = some e → headBlocked s m p = some (e, .slotRoom)) ∧
    (clearOut → ∀ z, m.dest = some (.zone z) →
      ((s.zone z).phase = .clear → headBlocked s m p = none) ∧
      ((s.zone z).phase ≠ .clear → headBlocked s m p = some (.occupied, .zoneClear)))) ∧
  (∀ (s : State) (c : Nat) (m : Move) (p : Piece), s.piece? m.piece = some p →
    takeView s c m = .take
      { crane := c, move := m, key := p.key, kind := p.kind, thickness := p.thickness, mass := p.mass,
        source := if m.state = .taken then
            let v := pieceView s m.piece p
            some ⟨p.place, v.pos, v.count, (placeCentre s p.place).1, (placeCentre s p.place).2⟩
          else none,
        dest := m.dest.map fun d => placeCentre s d.place })

/-- PICKED by R163 and R165 of the TAKEN move: refused WRONG_PLACE away from the source centre; else the piece leaves its
collection for the hook, IN_TRANSIT, the source is unlocked, the move is CARRYING, and an unseen lift raises
PICK_UNVERIFIED.
The position check of R163, and the centre of a place (R28, R33, R35). The queue is asked before the ended move (log 63). -/
def Obligations.PickedLifts : Prop :=
  (∀ (s : State) (a c : Nat) (m : Move) (q : List Move) (p : Piece), s.serves a .crane c → s.ppn.mode ≠ .cold → m.id ≠ 0 →
    s.queue c = m :: q → (∀ x ∈ q, x.id ≠ m.id) → m.state = .taken → s.piece? m.piece = some p →
    let i := Instr.picked c m.id
    let u := answering s a
    let k := positionCheck s c (placeCentre s p.place)
    let v := { p with state := .inTransit, place := .hook c }
    let m' := { m with state := .carrying }
    let lifted (t : State) : Prop :=
      let t := ((t.setHook c (some m.piece)).setRecord m.piece.index ⟨m.piece.gen, some v⟩).setQueue c (m' :: q)
      let t := if k.result = .unverified then raise t (.crane c) .pickUnverified else t
      StationAnswers i s a .picked .ok (.picked c m' (some (pieceView t m.piece v)) k) t
    (k.result = .wrongPlace → StationAnswers i s a .picked .wrongPlace (.check k) u) ∧
    (k.result ≠ .wrongPlace →
      (∀ n, p.place = .slot n → lifted (u.setSlot n { s.slot n with
        stack := (s.slot n).stack.filter (· ≠ m.piece), height := (s.slot n).height - p.thickness,
        outCount := (s.slot n).outCount - 1 })) ∧
      (p.place = .receiving →
        lifted { u with lmap := { s.lmap with receiving := s.lmap.receiving.filter (· ≠ m.piece) } }) ∧
      ∀ z, p.place = .zone z →
        let rest := (s.bed z).pieces.filter (· ≠ m.piece)
        let t := u.setBed z { s.bed z with pieces := rest }
        lifted (if (s.zone z).phase = .loaded ∧ rest = [] then t.setZone z { s.zone z with phase := .clear } else t))) ∧
  (∀ (s : State) (c x y : Nat),
    let k := positionCheck s c (x, y)
    let m := s.sampled c
    let tol : Int := s.clu.runway.tolerance
    let seen := m.x.validity.placed = true ∧ m.y.validity.placed = true
    let near := (x - tol ≤ m.x.value ∧ m.x.value ≤ x + tol) ∧ y - tol ≤ m.y.value ∧ m.y.value ≤ y + tol
    (¬ seen → k.result = .unverified) ∧ (seen → near → k.result = .verified) ∧
    (seen → ¬ near → k.result = .wrongPlace) ∧
    k = ⟨k.result, s.rsu.latest.seq, m.x.value, m.y.value, m.x.validity, m.y.validity, x, y⟩) ∧
  (∀ (s : State) (n z : Nat), placeCentre s .receiving = (s.lmap.recvX, s.lmap.recvY) ∧
    placeCentre s (.slot n) = ((s.slot n).x, (s.slot n).y) ∧ placeCentre s (.zone z) = ((s.bed z).x, (s.bed z).y))

/-- PLACED by R163 and R166 of the CARRYING move: refused WRONG_PLACE away from the destination centre; else the piece leaves
the hook for the destination, the reservation passes, the move is removed and is the ended move, and MOVE_DONE is
raised; after a zone the pending start check of its table runs (R78). The reply on a zone shows that zone's nest with id
and state, which is the model's reading (log 29). The queue is asked before the ended move (log 63). -/
def Obligations.PlacedSetsDown : Prop :=
  ∀ (s : State) (a c : Nat) (m : Move) (q : List Move) (p : Piece) (d : Dest), s.serves a .crane c → s.ppn.mode ≠ .cold →
    m.id ≠ 0 → s.queue c = m :: q → (∀ x ∈ q, x.id ≠ m.id) → m.state = .carrying → m.dest = some d →
    s.piece? m.piece = some p →
    let i := Instr.placed c m.id
    let u := answering s a
    let k := positionCheck s c (placeCentre s d.place)
    let laid (t : State) (v : Piece) : State :=
      let t := (t.setHook c none).setRecord m.piece.index ⟨m.piece.gen, some v⟩
      let t := (t.setQueue c q).setEndedMove c (some ⟨m.id, m.piece, .placed⟩)
      let t := raise t (.crane c) .moveDone
      if k.result = .unverified then raise t (.crane c) .pickUnverified else t
    let tells (nest : Option (Nat × NestState)) (t : State) : Prop :=
      StationAnswers i s a .placed .ok (.placed (viewOf t m.piece) k nest) t
    (k.result = .wrongPlace → StationAnswers i s a .placed .wrongPlace (.check k) u) ∧
    (k.result ≠ .wrongPlace →
      (∀ n, d = .slot n → Canonical s →
        let w := s.slot n
        let v := { p with state := .stored, place := .slot n, move := none }
        let t := laid (u.setSlot n { w with
          stack := w.stack ++ [m.piece], height := w.height + p.thickness, inCount := w.inCount - 1,
          inThick := w.inThick - p.thickness }) v
        viewOf t m.piece = some (pieceView t m.piece v) ∧ tells none t) ∧
      ∀ z, d = .zone z →
        let v := { p with state := .onTable, place := .zone z, move := none }
        let t := laid ((u.setBed z { s.bed z with pieces := (s.bed z).pieces ++ [m.piece] }).setZone z
          { s.zone z with inbound := none, phase := .loaded }) v
        viewOf t m.piece = some (pieceView t m.piece v) ∧
        PendingStartTo t (zoneTable z) fun t => tells ((t.zone z).nest.map fun n => (n.id, n.state)) t)

/-- MOVE_ABANDON by R167: a TAKEN move goes back to the head QUEUED, a CARRYING one is SUSPENDED without a destination with
MOVE_SUSPENDED raised; in both the destination's reservation is released, and a TAKEN move's source is unlocked.
A report that names no move it can act on, by the table of R164: WRONG_MODE in COLD, RANGE for id 0, NOT_FOUND where
neither the queue nor the ended move holds the id, CANCELLED with the told flag set for a cancelled one (its record is the
model's reading, log 45), and the answers as they stand for a placed one and for a report repeated. An id that the queue
holds is answered by the queue, whatever the ended move holds (log 63); the mode is checked before the id 0 (log 64). -/
def Obligations.CraneReportsAreSorted : Prop :=
  (∀ (s : State) (a c : Nat) (m : Move) (r q : List Move) (p : Piece), s.serves a .crane c → s.ppn.mode ≠ .cold →
    m.id ≠ 0 → s.queue c = r ++ m :: q → (∀ x ∈ r ++ q, x.id ≠ m.id) → s.piece? m.piece = some p →
    let i := Instr.moveAbandon c m.id
    let u := answering s a
    let front (m : Move) : List Move := r ++ m :: q
    let back := { m with state := .queued }
    let hung := { m with state := .suspended, dest := none }
    let unlocked (t : State) : State :=
      match p.place with
      | .slot n => t.setSlot n { s.slot n with outCount := (s.slot n).outCount - 1 }
      | _ => t
    let released (t : State) : State :=
      match m.dest with
      | some (.slot n) => t.setSlot n { t.slot n with
          inCount := (t.slot n).inCount - 1, inThick := (t.slot n).inThick - p.thickness }
      | some (.zone z) => t.setZone z { s.zone z with inbound := none, phase := .clear }
      | none => t
    let tells (x : ReplyRecord) (t : State) : Prop := StationAnswers i s a .moveAbandon .ok x t
    (m.state = .queued ∨ m.state = .suspended → tells (.standing c m (some (pieceView u m.piece p))) u) ∧
    (m.state = .taken → tells (.move c back) ((released (unlocked u)).setQueue c (front back))) ∧
    (m.state = .carrying →
      tells (.move c hung) (raise ((released u).setQueue c (front hung)) (.crane c) .moveSuspended))) ∧
  (∀ (s : State) (a c id : Nat), s.serves a .crane c →
    let u := answering s a
    let all (f : Instr → ReqKind → Prop) : Prop :=
      f (.picked c id) .picked ∧ f (.placed c id) .placed ∧ f (.moveAbandon c id) .moveAbandon
    (s.ppn.mode = .cold → all fun i k => StationRefuses i s a k .wrongMode) ∧
    (s.ppn.mode ≠ .cold → id = 0 → all fun i k => StationRefuses i s a k .range) ∧
    (s.ppn.mode ≠ .cold → id ≠ 0 → (∀ m ∈ s.queue c, m.id ≠ id) →
      ((∀ e, s.endedMove c = some e → e.id ≠ id) → all fun i k => StationRefuses i s a k .notFound) ∧
      (∀ h b, s.endedMove c = some ⟨id, h, .cancelled b⟩ →
        let e : EndedMove := ⟨id, h, .cancelled true⟩
        all fun i k => StationAnswers i s a k .cancelled (.endedReport e (viewOf s h)) (u.setEndedMove c (some e))) ∧
      ∀ h, s.endedMove c = some ⟨id, h, .placed⟩ →
        StationRefuses (.picked c id) s a .picked .badState ∧
        StationRefuses (.moveAbandon c id) s a .moveAbandon .badState ∧
        StationAnswers (.placed c id) s a .placed .ok (.endedReport ⟨id, h, .placed⟩ (viewOf s h)) u) ∧
    ∀ m r q, s.ppn.mode ≠ .cold → id ≠ 0 → s.queue c = r ++ m :: q → m.id = id → (∀ x ∈ r, x.id ≠ id) →
      let same : ReplyRecord := .standing c m (viewOf s m.piece)
      (m.state = .carrying ∨ m.state = .suspended → StationAnswers (.picked c id) s a .picked .ok same u) ∧
      (m.state = .queued → StationRefuses (.picked c id) s a .picked .badState) ∧
      (m.state ≠ .carrying → StationRefuses (.placed c id) s a .placed .badState))

/-- RETARGET_MOVE by R168: its checks in their order; the destination is written and reserved and the move is CARRYING. RANGE
for a destination of another form is the model's reading (log 33).
CANCEL_MOVE by R169: a QUEUED or TAKEN move is removed and its piece names no move; a TAKEN one releases its source and
destination and is the crane's ended move, CANCELLED and not told; a CARRYING or SUSPENDED one is refused. Where the piece
is the plate of a STAGED nest, the pending start check of that nest's table runs (R78). That its OK carries no record is the
model's choice (log 55). -/
def Obligations.MovesAreRetargetedAndCancelled : Prop :=
  (∀ (s : State) (c id : Nat) (l : LocArg) (d : Dest) (m : Move) (p : Piece),
    let i := Instr.retargetMove id l
    let no (st : Status) : Prop := Refuses i s .retargetMove st
    (id = 0 ∨ destArg? l = none → no .range) ∧
    (id ≠ 0 → destArg? l = some d → findMove s id = none → no .notFound) ∧
    (id ≠ 0 → destArg? l = some d → findMove s id = some (c, m) → s.piece? m.piece = some p →
      (m.state ≠ .suspended → no .badState) ∧
      (m.state = .suspended →
        let m' := { m with state := .carrying, dest := some d }
        let t := s.setQueue c ((s.queue c).map fun x => if x.id = id then m' else x)
        (∀ n, d = .slot n →
          (∀ e, roomTest s n p.thickness = some e → no e) ∧
          (roomTest s n p.thickness = none → (∀ x ∈ s.queue c, x.id = id → x = m) →
            let w := s.slot n
            Answers i s .retargetMove .ok (.retarget c m' w.x w.y)
              (t.setSlot n { w with inCount := w.inCount + 1, inThick := w.inThick + p.thickness }))) ∧
        ∀ z, d = .zone z →
          let promised := (∃ x y, x < 3 ∧ y ∈ s.queue x ∧ y.id ≠ id ∧ y.dest = some (.zone z)) ∨
            ∃ n, (s.zone z).nest = some n ∧ n.state = .staged ∧ n.plate ≠ m.piece
          ((s.bed z).configured = false → no .badState) ∧
          ((s.bed z).configured = true → (s.zone z).phase ≠ .clear ∨ promised → no .occupied) ∧
          ((s.bed z).configured = true → (s.zone z).phase = .clear → ¬ promised →
            (∀ x ∈ s.queue c, x.id = id → x = m) →
            Answers i s .retargetMove .ok (.retarget c m' (s.bed z).x (s.bed z).y)
              (t.setZone z { s.zone z with inbound := some id, phase := .loading }))))) ∧
  (∀ (s : State) (c id : Nat) (m : Move) (p : Piece),
    let i := Instr.cancelMove id
    (id = 0 → Refuses i s .cancelMove .range) ∧ (id ≠ 0 → findMove s id = none → Refuses i s .cancelMove .notFound) ∧
    (id ≠ 0 → findMove s id = some (c, m) → s.piece? m.piece = some p →
      let staged (z : Nat) : Prop := ∃ n, (s.zone z).nest = some n ∧ n.state = .staged ∧ n.plate = m.piece
      let drop (t : State) : State :=
        (t.setQueue c ((s.queue c).filter fun x => x.id ≠ id)).setRecord m.piece.index
          ⟨m.piece.gen, some { p with move := none }⟩
      let done (t : State) : Prop :=
        ((∀ z, z < 12 → ¬ staged z) → Answers i s .cancelMove .ok .none t) ∧
        ∀ z, z < 12 → staged z → (∀ y, y < z → ¬ staged y) →
          PendingStartTo t (zoneTable z) fun t => Answers i s .cancelMove .ok .none t
      (m.state = .carrying ∨ m.state = .suspended → Refuses i s .cancelMove .badState) ∧
      (m.state = .queued → done (drop s)) ∧
      (m.state = .taken →
        let ended (t : State) : State := (drop t).setEndedMove c (some ⟨id, m.piece, .cancelled false⟩)
        let freed (t : State) (d : Option Dest) : State := match d with
          | some (.slot n) => t.setSlot n { t.slot n with
              inCount := (t.slot n).inCount - 1, inThick := (t.slot n).inThick - p.thickness }
          | some (.zone z) => t.setZone z { s.zone z with inbound := none, phase := .clear }
          | none => t
        (∀ n, p.place = .slot n →
          done (ended (freed (s.setSlot n { s.slot n with outCount := (s.slot n).outCount - 1 }) m.dest))) ∧
        ((∀ n, p.place ≠ .slot n) → done (ended (freed s m.dest))))))

/-! ## The station link -/

/-- A poll turn by R175 and R180: it starts at the first listed entry after the cursor that is not UNUSED, and the cursor goes
past it (log 24); none starts while one runs or where no entry is pollable; at its end the settings that wait take effect with the
cursor at the start; that an answer, or the expiry of a window, changes nothing with no answer awaited is the model's
choice (log 2).
The judging of an answer by R175 and R176: a good IDLE clears the misses and brings an OFFLINE station ONLINE with its
notice; a bad answer, or none, counts a miss, and the third in a row takes an ONLINE station OFFLINE with its notice, its
BURN table's grant revoked or its MARK table's issued mark withdrawn; the answer of an entry now UNUSED is discarded, good or
bad (log 27). -/
def Obligations.PollTurnsRun : Prop :=
  (∀ s : State,
    let l := s.slc.pollList
    let at' (i : Nat) : Nat := l.getD ((s.slc.cursor + i) % l.length) 0
    let closed : State := match s.slc.waiting with
      | none => { s with slc := { s.slc with turn := none } }
      | some w => { s with slc := { s.slc with
          turn := none, pollList := w.list, bitRate := w.rate, window := w.window, cursor := 0, waiting := none } }
    (s.slc.turn ≠ none → exec .pollTurnStart s = .next s) ∧
    ((∀ i, i < l.length → (s.station (at' i)).state = .unused) → exec .pollTurnStart s = .next s) ∧
    (∀ i, s.slc.turn = none → i < l.length → (s.station (at' i)).state ≠ .unused →
      (∀ j, j < i → (s.station (at' j)).state = .unused) →
      exec .pollTurnStart s = .next { s with slc := { s.slc with
        turn := some ⟨at' i, none⟩, cursor := (s.slc.cursor + i + 1) % l.length } }) ∧
    endTurn s = closed ∧
    (∀ a r, s.slc.turn = some ⟨a, some r⟩ → exec .pollTurnEnd s = .next (endTurn s)) ∧
    ((∀ a, s.slc.turn ≠ some ⟨a, none⟩) → ∀ k, ∀ i ∈ [Instr.idleAnswer, .badAnswer, .replyWindowExpiry,
      .stationUnknownRequest k], exec i s = .next s)) ∧
  (∀ (s : State) (a : Nat), s.slc.turn = some ⟨a, none⟩ →
    let e := s.station a
    (e.binding = none → ∀ k, ∀ i ∈ [Instr.idleAnswer, .badAnswer, .replyWindowExpiry, .stationUnknownRequest k],
      exec i s = .next (endTurn s)) ∧
    ∀ r u, e.binding = some (r, u) →
      let heard := s.setStation a ⟨.online, some (r, u), 0⟩
      let missed := s.setStation a ⟨e.state, some (r, u), min 3 (e.misses + 1)⟩
      let gone := raise (s.setStation a ⟨.offline, some (r, u), 3⟩) .link .stationOffline
      let miss (t : State) : Prop := exec .badAnswer s = .next (endTurn t) ∧ exec .replyWindowExpiry s = .next (endTurn t)
      (e.state = .offline → exec .idleAnswer s = .next (endTurn (raise heard .link .stationOnline))) ∧
      (e.state ≠ .offline → exec .idleAnswer s = .next (endTurn heard)) ∧
      (e.state ≠ .online ∨ e.misses < 2 → miss missed) ∧
      (e.state = .online → 2 ≤ e.misses →
        (r = .burn → miss (revoke gone u .station)) ∧ (r = .mark → miss (withdrawMark gone u)) ∧
        (r = .crane → miss gone)))

/-- The checks of a station's request by R178: UNKNOWN_REQUEST for a kind its role may not send, RANGE for one it may send
with a payload too short or too long, NOT_YOURS for another unit than its own; the station is answering all the same. That
such a payload of a kind it may send is a STATION_UNKNOWN_REQUEST is the model's reading (log 6).
A station that answers has no misses and is ONLINE, with STATION_ONLINE raised where it was OFFLINE (R176). -/
def Obligations.StationRequestsAreChecked : Prop :=
  (∀ (s : State) (a : Nat),
    let e := s.station a
    let heard := s.setStation a ⟨.online, e.binding, 0⟩
    (e.state ≠ .offline → answering s a = heard) ∧
    (e.state = .offline → answering s a = raise heard .link .stationOnline)) ∧
  ∀ (s : State) (a u : Nat) (r : Role), s.serves a r u →
    let allowed : List Nat := match r with
      | .burn => [6, 7, 29, 34, 35, 36, 27]
      | .mark => [6, 7, 29, 30, 31, 32]
      | .crane => [6, 7, 29, 52, 53, 54, 55]
    let all (l : List (Instr × ReqKind)) (st : Status) : Prop := ∀ x ∈ l, StationRefuses x.1 s a x.2 st
    (∀ k, exec (.stationUnknownRequest k) s = .next (sendReply (answering s a) a
      ⟨if k ∈ allowed then .range else .unknownRequest, k, .none⟩)) ∧
    ∀ t b id p,
      let z : ZoneArg := ⟨t, b⟩
      let burns := [(Instr.nextBurn t, ReqKind.nextBurn), (.burnDone z id p, .burnDone), (.burnAbandon z id p, .burnAbandon),
        (.zoneCleared z, .zoneCleared)]
      let marks := [(Instr.nextMark t, ReqKind.nextMark), (.markDone z id p, .markDone), (.markFailed z id p, .markFailed)]
      let moves := [(Instr.takeMove t, ReqKind.takeMove), (.picked t id, .picked), (.placed t id, .placed),
        (.moveAbandon t id, .moveAbandon)]
      (r ≠ .burn → all burns .unknownRequest) ∧ (r ≠ .mark → all marks .unknownRequest) ∧
      (r ≠ .crane → all moves .unknownRequest) ∧
      (t ≠ u → (r = .burn → all burns .notYours) ∧ (r = .mark → all marks .notYours) ∧ (r = .crane → all moves .notYours))

/-- SET_STATION by R179: RANGE, or OK with nothing changed where the entry has the binding; else the old binding is released,
another holder of the binding becomes UNUSED, and the entry is written OFFLINE with no misses, or UNUSED for RELEASE. A
table that loses its BURN station has its grant revoked, one that loses its MARK station its issued mark withdrawn.
SET_POLL_LIST by R180: RANGE for the list or the rate; else the window is clamped and list, rate and window take effect
at once, or at the end of the turn that runs; a setting left out keeps its waiting value, else the value in force. -/
def Obligations.StationsAndPollListAreSet : Prop :=
  ((∀ (s : State) (t : Nat), stationLost s none = s ∧ stationLost s (some (.burn, t)) = revoke s t .station ∧
    stationLost s (some (.mark, t)) = withdrawMark s t ∧ stationLost s (some (.crane, t)) = s) ∧
  ∀ (s : State) (a c u : Nat),
    let set := Instr.setStation a (some (c, u))
    let free := Instr.setStation a none
    let top := if c = 2 then 3 else 6
    let e := s.station a
    let s' := stationLost s e.binding
    (a = 0 ∨ 31 < a → Refuses set s .setStation .range ∧ Refuses free s .setStation .range) ∧
    (2 < c ∨ top ≤ u → Refuses set s .setStation .range) ∧
    (1 ≤ a → a ≤ 31 →
      Answers free s .setStation .ok (.stations (a, Station.reset) none) (s'.setStation a Station.reset) ∧
      ∀ role, c ≤ 2 → u < top → role = (if c = 0 then .burn else if c = 1 then .mark else .crane) →
        let b := (role, u)
        let w : Station := ⟨.offline, some b, 0⟩
        (e.binding = some b → Answers set s .setStation .ok (.stations (a, e) none) s) ∧
        (e.binding ≠ some b → (∀ x, 1 ≤ x → x ≤ 31 → (s.station x).binding ≠ some b) →
          Answers set s .setStation .ok (.stations (a, w) none) (s'.setStation a w)) ∧
        ∀ x, e.binding ≠ some b → 1 ≤ x → x ≤ 31 → (s.station x).binding = some b →
          (∀ y, (s.station y).binding = some b → y = x) →
          Answers set s .setStation .ok (.stations (a, w) (some (x, Station.reset)))
            ((stationLost (s'.setStation x Station.reset) (some b)).setStation a w))) ∧
  (∀ (s : State) (l : List Nat) (rate window : Option Nat),
    let i := Instr.setPollList l rate window
    let good := l.length ≤ 32 ∧ (∀ a ∈ l, 1 ≤ a ∧ a ≤ 31) ∧ ∀ x, rate = some x → x = 500 ∨ x = 1000 ∨ x = 2000
    let kept : LinkSettings := match s.slc.waiting with
      | some w => w
      | none => ⟨s.slc.pollList, s.slc.bitRate, s.slc.window⟩
    let wn : Nat := match window with
      | some x => if x < 100 then 100 else if 2000 < x then 2000 else x
      | none => kept.window
    let w : LinkSettings := ⟨l, rate.getD kept.rate, wn⟩
    (¬ good → Refuses i s .setPollList .range) ∧
    (good → s.slc.turn = none → Answers i s .setPollList .ok (.pollList w) { s with slc := { s.slc with
      pollList := l, bitRate := w.rate, window := w.window, cursor := 0, waiting := none } }) ∧
    (good → s.slc.turn ≠ none →
      Answers i s .setPollList .ok (.pollList w) { s with slc := { s.slc with waiting := some w } }))

/-! ## Hall modes and reset -/

/-- OPEN_HALL and RESUME_HALL by R188 and R189: the answers by the mode and the debounced input; as the hall becomes OPEN
the pending start check runs on every table: the ready nest of zone A starts, else that of zone B, else the table stands.
HALL_STOP and its release by R188, R105 and R153: asserted in COLD or OPEN the hall is STOPPED, HALL_STOPPED raised,
every grant revoked and every travel permissive off; asserted in STOPPED, or released, it changes the input alone. -/
def Obligations.HallIsOpenedAndStopped : Prop :=
  (∀ s : State,
    let m := s.ppn.mode
    let stop := s.ppn.stopInput
    let opened : State := { s with ppn := { s.ppn with mode := .opened } }
    let t := pendingStartAll opened
    (m = .cold → Answers .openHall s .openHall .ok (.hall .opened stop) t ∧
      Answers .resumeHall s .resumeHall .wrongMode (.hall .cold stop) s) ∧
    (m = .opened → Answers .openHall s .openHall .ok (.hall .opened stop) s ∧
      Answers .resumeHall s .resumeHall .ok (.hall .opened stop) s) ∧
    (m = .stopped → Answers .openHall s .openHall .wrongMode (.hall .stopped stop) s ∧
      (stop = true → Answers .resumeHall s .resumeHall .badState (.hall .stopped stop) s) ∧
      (stop = false → Answers .resumeHall s .resumeHall .ok (.hall .opened stop) t)) ∧
    ((∀ x, x < 6 → (s.table x).chain = false) → t = opened) ∧
    (∀ x n p, x < 6 → (s.table x).chain = true → ReadyToStart opened (2 * x) n p →
      t.zone (2 * x) = ⟨.cutting, some { n with state := .active }, none⟩ ∧ t.table x = ⟨some .a, false⟩ ∧
      t.zone (2 * x + 1) = s.zone (2 * x + 1) ∧ t.notice (noticeCode (.table x) .zoneSwitched) = some false) ∧
    (∀ x n p, x < 6 → (s.table x).chain = true → startOk opened (2 * x) = false → ReadyToStart opened (2 * x + 1) n p →
      t.zone (2 * x + 1) = ⟨.cutting, some { n with state := .active }, none⟩ ∧ t.table x = ⟨some .b, false⟩ ∧
      t.zone (2 * x) = s.zone (2 * x) ∧ t.notice (noticeCode (.table x) .zoneSwitched) = some false) ∧
    ∀ x, x < 6 → ((s.table x).chain = false ∨ (s.table x).active ≠ none ∨
        (startOk opened (2 * x) = false ∧ startOk opened (2 * x + 1) = false)) →
      t.table x = s.table x ∧ t.zone (2 * x) = s.zone (2 * x) ∧ t.zone (2 * x + 1) = s.zone (2 * x + 1)) ∧
  (∀ s : State,
    let input (b : Bool) : State := { s with ppn := { s.ppn with stopInput := b } }
    exec .hallStopRelease s = .next (input false) ∧ (s.ppn.mode = .stopped → exec .hallStop s = .next (input true)) ∧
    (s.ppn.mode ≠ .stopped → ∃ t, exec .hallStop s = .next t ∧ t.ppn.mode = .stopped ∧ t.ppn.stopInput = true ∧
      t.notice (noticeCode .hall .hallStopped) = some false ∧
      (∀ x, x < 6 → ((s.burn x).grant = none → t.burn x = s.burn x) ∧
        ∀ g, (s.burn x).grant = some g → t.burn x = ⟨.idle, none, some (g.ref, .revoked .hallStop), false⟩ ∧
          t.grantHeld (zoneOf x g.ref.bed) = false ∧ t.notice (noticeCode (.table x) .grantRevoked) = some false) ∧
      (∀ c d, c < 3 → ((t.crane c).permissive d).on = false ∧ .mode ∈ ((t.crane c).permissive d).conds) ∧
      t.srg = s.srg ∧ t.lmap = s.lmap ∧ t.fse = s.fse ∧ t.mkd = s.mkd ∧ t.rsu = s.rsu ∧ t.mvc = s.mvc ∧ t.slc = s.slc))

/-- CLEAR_REGISTRY by R190: refused outside COLD; in COLD every piece, nest, issue, ended grant and move is gone and a running
search is ABORTED, while every configuration stands. -/
def Obligations.RegistryIsCleared : Prop :=
  ∀ s : State, Canonical s →
    (s.ppn.mode ≠ .cold → Refuses .clearRegistry s .clearRegistry .wrongMode) ∧
    (s.ppn.mode = .cold → ∃ t,
      Answers .clearRegistry s .clearRegistry .ok (.cleared s.livePieces.length (nestCount s) (moveCount s)) t ∧
      (∀ i, ((s.record i).live = none → t.record i = s.record i) ∧
        ((s.record i).live ≠ none → t.record i = ⟨((s.record i).gen + 1) % 256, none⟩)) ∧
      (∀ k, dirLookup t.srg k = none) ∧ t.srg.creation = 1 ∧ t.srg.remnant = 1 ∧
      (∀ n, t.slot n = ⟨(s.slot n).x, (s.slot n).y, (s.slot n).enabled, [], 0, 0, 0, 0⟩) ∧ t.lmap.receiving = [] ∧
      (∀ z, t.bed z = { s.bed z with pieces := [] }) ∧ (∀ c, t.hook c = none) ∧
      (∀ x, t.table x = ⟨none, false⟩) ∧ (∀ z, t.zone z = ⟨.clear, none, none⟩) ∧ (∀ x, t.marks x = ⟨none, none⟩) ∧
      (∀ x, t.burn x = { s.burn x with ended := none }) ∧ (∀ c, t.queue c = [] ∧ t.endedMove c = none) ∧
      t.mvc.nextId = s.mvc.nextId ∧
      (s.fse.phase ≠ .scanning → t.fse = s.fse ∧ t.ppn = s.ppn) ∧
      (s.fse.phase = .scanning → t.fse = { s.fse with
          phase := .ready, outcome := some .aborted, readFlag := false, candidates := [], reserved := none } ∧
        t.ppn = (raise s .registry .searchDone).ppn) ∧
      (t.lmap.recvX = s.lmap.recvX ∧ t.lmap.recvY = s.lmap.recvY) ∧ t.bsv.torches = s.bsv.torches ∧
      t.bsv.monitors = s.bsv.monitors ∧ t.bsv.pierceMin = s.bsv.pierceMin ∧ t.bsv.burnLimit = s.bsv.burnLimit ∧
      t.bsv.grantHeld = s.bsv.grantHeld ∧ t.ppn.mask = s.ppn.mask ∧ t.ppn.mode = s.ppn.mode ∧
      (t.fse.depthPenalty = s.fse.depthPenalty ∧ t.fse.platePenalty = s.fse.platePenalty) ∧ t.rsu = s.rsu ∧ t.clu = s.clu ∧ t.slc = s.slc)

/-- DEVICE_RESET leaves every record at the value the chapters give for reset (that of the tables stands in 4.1, R59, as well
as in 4.11; that of the torches in 6.6, R115, too); that the stop input is not asserted and no turn
runs is the model's reading (log 7), the hoist count 0 and the cleared homed flag latched in the reset sample are the model's
choice (log 62), and the commands that wait stay in the queue, which is the model's own (log 31). -/
def Obligations.ResetValuesAreStated : Prop :=
  let r := State.reset
  (∀ s : State, exec .deviceReset s = .next { State.reset with pending := s.pending }) ∧
  (∀ i, r.record i = ⟨0, none⟩) ∧ (∀ k, dirLookup r.srg k = none) ∧ r.srg.creation = 1 ∧ r.srg.remnant = 1 ∧
  (∀ n, r.slot n = ⟨0, 0, false, [], 0, 0, 0, 0⟩) ∧ r.lmap.receiving = [] ∧
  (r.lmap.recvX = 0 ∧ r.lmap.recvY = 0) ∧ (∀ z, r.bed z = ⟨[], 0, 0, 0, 0, 0, 0, false⟩) ∧ (∀ c, r.hook c = none) ∧
  r.fse = ⟨.idle, none, false, none, none, 0, [], none, 20000, 50000⟩ ∧
  (∀ x, r.table x = ⟨none, false⟩) ∧ (∀ z, r.zone z = ⟨.clear, none, none⟩) ∧ (∀ x, r.marks x = ⟨none, none⟩) ∧
  (∀ x, r.burn x = ⟨.idle, none, none, false⟩) ∧ r.bsv.pierceMin = 250 ∧ r.bsv.burnLimit = 900 ∧
  (∀ n, r.torch n = ⟨n + 1, .spare, none, 0, 0, 10000, 40, 0⟩) ∧
  (∀ z, r.grantHeld z = false) ∧ (∀ x, (r.monitor x).state = .off ∧ (r.monitor x).stuck = false ∧ (r.monitor x).carry = 0) ∧
  (∀ c, r.channel c =
    ⟨.disabled, ⟨24, 0, .none, .binary, 400⟩, none, none, .disabled, 0, [], .exact, none, 0, 0, 0⟩) ∧
  (∀ c, r.axis (3 * c) = ⟨0, 0, 0, .stale, 0, false, none⟩ ∧ r.axis (3 * c + 1) = ⟨0, 0, 0, .stale, 0, false, none⟩ ∧
    r.axis (3 * c + 2) = ⟨0, 0, 0, .unhomed, 0, false, none⟩) ∧
  (∀ c, (r.hoist c).count = 0 ∧ (r.hoist c).homed = false ∧ (r.hoist c).armed = false ∧ (r.hoist c).home = 0) ∧
  r.rsu.collecting = none ∧ r.rsu.missedTicks = 0 ∧ (r.rsu.latest.seq = 0 ∧ r.rsu.latest.missed = 0 ∧
    r.rsu.latest.missedCount = 0) ∧
  (∀ c, r.sampled c = ⟨⟨0, .stale, 0⟩, ⟨0, .stale, 0⟩, ⟨0, .unhomed, 0⟩, none, none, false, ⟨0, false⟩⟩) ∧
  (∀ c d, (r.crane c).permissive d = ⟨false, [.mode]⟩) ∧
  (∀ c, (r.crane c).hook = .low ∧ (r.crane c).capacity = 0 ∧ ((r.crane c).west = 0 ∧ (r.crane c).east = 0) ∧
    ((r.crane c).westIn = 0 ∧ (r.crane c).eastIn = 0) ∧
    ((r.crane c).aE = 20000 ∧ (r.crane c).aW = 20000 ∧ (r.crane c).aN = 20000 ∧ (r.crane c).aS = 20000)) ∧
  (∀ c, r.pair c = ⟨none, false⟩) ∧ (∀ z, r.intruders z = []) ∧ r.clu.runwayNext = none ∧
  r.clu.runway = ⟨200000, 30000, 4000, 3000, 300, 6000, 1000, 30000, 300, 20, 3⟩ ∧
  (∀ c, r.queue c = [] ∧ r.endedMove c = none) ∧ r.mvc.nextId = 1 ∧
  (∀ a, r.station a = ⟨.unused, none, 0⟩) ∧ r.slc.pollList = [] ∧ r.slc.cursor = 0 ∧ r.slc.bitRate = 500 ∧
  r.slc.window = 300 ∧ r.slc.waiting = none ∧ r.slc.turn = none ∧ r.ppn.stopInput = false ∧ r.ppn.mode = .cold ∧ (∀ n, r.notice n = none) ∧ attention r = false ∧
  (∀ k : NoticeKind, r.ppn.mask.getLsbD k.code = true ↔ k ≠ .moveDone ∧ k ≠ .hoistHomed) ∧ r.ppn.reply = ⟨.ok, 0, .none⟩

/-! ## Frames of the station link -/

/-- A frame the part sends on the link by R173 and R193: start byte, address, kind, length, payload and CRC, and none for a
payload of more than 120 bytes; each byte goes out as a start bit, eight data bits with the least significant first and a
stop bit (their levels by log 47).
The reply to every request that a station may send fits such a frame; a piece record takes 48 bytes and 8 for each
rectangle (R195). -/
def Obligations.LinkFramesAreLaidOut : Prop :=
  (∀ (a k : Nat) (p : List Byte),
    (120 < p.length → linkFrame a k p = none) ∧
    (p.length ≤ 120 →
      let body := BitVec.ofNat 8 a :: BitVec.ofNat 8 k :: BitVec.ofNat 8 p.length :: p
      linkFrame a k p =
        some (0x7E#8 :: body ++ [(Wire.crc body >>> 8).truncate 8, (Wire.crc body).truncate 8]))) ∧
  (∀ b : Byte, serialByte b = [false, b.getLsbD 0, b.getLsbD 1, b.getLsbD 2, b.getLsbD 3, b.getLsbD 4, b.getLsbD 5,
    b.getLsbD 6, b.getLsbD 7, true]) ∧
  ∀ (v : PieceView), v.piece.key.heat.length = 8 → v.piece.rects.length ≤ 4 →
    (outPiece v).length = 48 + 8 * v.piece.rects.length ∧
    ∀ (st : Status) (n : Nat) (r : ReplyRecord) (o : Option PieceView), o = some v ∨ o = none →
      ((∃ h, r = .keyed h v) ∨ (∃ k, r = .check k) ∨ (∃ c m k, r = .picked c m o k) ∨
        (∃ k x, r = .placed o k x) ∨ (∃ c m, r = .move c m) ∨ (∃ c m, r = .standing c m o) ∨
        (∃ e, r = .endedReport e o) ∨ (∃ e, r = .cancelledMove e) ∨ (∃ i h x, r = .blocked i h x) ∨
        (∃ x, r = .take x ∧ x.key.heat.length = 8) ∨
        (∃ x, r = .zone x ∧ x.bed.length ≤ 2 ∧ ∀ e ∈ x.bed, e.key.heat.length = 8) ∨
        (∃ x, r = .mark x ∧ x.text.length ≤ 20) ∨ (∃ t x, r = .noMark t x) ∨
        (∃ x m, r = .markReport x m ∧ (x.text.getD []).length ≤ 20) ∨ (∃ x, r = .grant x) ∨ (∃ t, r = .burnRefused t) ∨
        (∃ t x, r = .burnTorch t x) ∨ (∃ t q, r = .burnHeld t q) ∨ (∃ t i x, r = .burnWait t i x) ∨
        (∃ x, r = .burnReport x) ∨ r = .piece v ∨ r = .none) →
      (replyPayload ⟨st, n, r⟩).length ≤ 120
end

