-- ==== Sys2Proof/Laws/Bank.lean ====
section
/-! SUPPORT. What the operations over banks do: reading after writing, the canonical form kept by every operation, and
equality of canonical banks that read the same. -/

namespace Sys2Proof.Machine

variable {α : Type}

/-! ## Reading -/

theorem bankGet_bankInsert (reset : Nat → α) (m : Bank α) (k j : Nat) (v : α) :
    bankGet reset (bankInsert k v m) j = if j = k then v else bankGet reset m j := by
  induction m with
  | nil => simp [bankInsert, bankGet, eq_comm]
  | cons e r ih =>
    obtain ⟨i, w⟩ := e
    simp only [bankInsert]
    split
    · simp [bankGet, eq_comm]
    · split
      · subst_vars; simp only [bankGet]; split
        · subst_vars; simp
        · rename_i h; rw [if_neg (fun e => h e.symm)]
      · rename_i hk; simp only [bankGet, ih]; split
        · subst_vars; rw [if_neg (fun e => hk e.symm)]
        · rfl

theorem bankGet_filter (reset : Nat → α) (p : Nat → Bool) (m : Bank α) (j : Nat) :
    bankGet reset (m.filter fun e => p e.1) j = if p j then bankGet reset m j else reset j := by
  induction m with
  | nil => simp [bankGet]
  | cons e r ih =>
    obtain ⟨i, w⟩ := e
    simp only [List.filter_cons, bankGet]
    by_cases h : i = j
    · subst h; by_cases hp : p i <;> simp_all [bankGet]
    · by_cases hp : p i <;> simp_all [bankGet]

theorem bankGet_bankErase (reset : Nat → α) (m : Bank α) (k j : Nat) :
    bankGet reset (bankErase k m) j = if j = k then reset k else bankGet reset m j := by
  have h := bankGet_filter reset (fun i => decide (i ≠ k)) m j
  simp only [bankErase, h]
  by_cases e : j = k <;> simp [e]

/-- Reading a bank after a write: the record written, and every other record as it was. -/
theorem bankGet_bankSet [DecidableEq α] (reset : Nat → α) (m : Bank α) (k j : Nat) (v : α) :
    bankGet reset (bankSet reset m k v) j = if j = k then v else bankGet reset m j := by
  unfold bankSet
  split
  · subst_vars; exact bankGet_bankErase reset m k j
  · exact bankGet_bankInsert reset m k j v

@[simp] theorem bankGet_bankSet_same [DecidableEq α] (reset : Nat → α) (m : Bank α) (k : Nat) (v : α) :
    bankGet reset (bankSet reset m k v) k = v := by simp [bankGet_bankSet]

theorem bankGet_bankSet_ne [DecidableEq α] (reset : Nat → α) (m : Bank α) {k j : Nat} (v : α) (h : j ≠ k) :
    bankGet reset (bankSet reset m k v) j = bankGet reset m j := by simp [bankGet_bankSet, h]

/-! ## The canonical form -/

/-- Every index of `m` is above `k`. -/
def allAbove (k : Nat) (m : Bank α) : Prop := ∀ e ∈ m, k < e.1

theorem bankWf_iff [DecidableEq α] (reset : Nat → α) (m : Bank α) :
    bankWf reset m = true ↔ (m.map (·.1)).Pairwise (· < ·) ∧ ∀ e ∈ m, e.2 ≠ reset e.1 := by
  simp [bankWf]

theorem bankWf_nil [DecidableEq α] (reset : Nat → α) : bankWf reset [] = true := by simp [bankWf]

theorem bankWf_cons [DecidableEq α] (reset : Nat → α) (e : Nat × α) (m : Bank α) :
    bankWf reset (e :: m) = true ↔ allAbove e.1 m ∧ e.2 ≠ reset e.1 ∧ bankWf reset m = true := by
  simp only [bankWf_iff, List.map_cons, List.pairwise_cons, List.mem_map, List.mem_cons, allAbove]
  constructor
  · rintro ⟨⟨h1, h2⟩, h3⟩
    exact ⟨fun e he => h1 _ ⟨e, he, rfl⟩, h3 _ (.inl rfl), h2, fun e he => h3 _ (.inr he)⟩
  · rintro ⟨h1, h2, h3, h4⟩
    exact ⟨⟨by rintro a ⟨e, he, rfl⟩; exact h1 e he, h3⟩, by rintro a (rfl | ha); exacts [h2, h4 a ha]⟩

theorem bankWf_filter [DecidableEq α] (reset : Nat → α) (p : Nat × α → Bool) {m : Bank α} (h : bankWf reset m = true) :
    bankWf reset (m.filter p) = true := by
  rw [bankWf_iff] at *
  exact ⟨h.1.sublist ((List.filter_sublist).map _), fun e he => h.2 e (List.mem_of_mem_filter he)⟩

theorem allAbove_bankInsert {k j : Nat} {v : α} {m : Bank α} (h : allAbove j m) (hk : j < k) :
    allAbove j (bankInsert k v m) := by
  induction m with
  | nil => intro e he; simp [bankInsert] at he; subst he; exact hk
  | cons a r ih =>
    obtain ⟨i, w⟩ := a
    have hr : allAbove j r := fun e he => h e (by simp [he])
    have hi : j < i := h (i, w) (by simp)
    simp only [bankInsert]
    split
    · intro e he; simp only [List.mem_cons] at he; rcases he with rfl | rfl | he
      exacts [hk, hi, hr e he]
    · split
      · intro e he; simp only [List.mem_cons] at he; rcases he with rfl | he
        exacts [hk, hr e he]
      · intro e he; simp only [List.mem_cons] at he; rcases he with rfl | he
        exacts [hi, ih hr e he]

theorem bankWf_bankInsert [DecidableEq α] (reset : Nat → α) {m : Bank α} {k : Nat} {v : α} (h : bankWf reset m = true)
    (hv : v ≠ reset k) : bankWf reset (bankInsert k v m) = true := by
  induction m with
  | nil => simpa [bankInsert, bankWf_cons, allAbove, bankWf_nil] using hv
  | cons a r ih =>
    obtain ⟨i, w⟩ := a
    obtain ⟨h1, h2, h3⟩ := (bankWf_cons _ _ _).1 h
    simp only [bankInsert]
    split
    · rename_i hk
      refine (bankWf_cons _ _ _).2 ⟨?_, hv, h⟩
      intro e he; simp only [List.mem_cons] at he; rcases he with rfl | he
      exacts [hk, hk.trans (h1 e he)]
    · split
      · rename_i hk; subst hk; exact (bankWf_cons _ _ _).2 ⟨h1, hv, h3⟩
      · exact (bankWf_cons _ _ _).2 ⟨allAbove_bankInsert h1 (by simp only at *; omega), h2, ih h3⟩

/-- A write keeps the canonical form. -/
theorem bankWf_bankSet [DecidableEq α] (reset : Nat → α) {m : Bank α} (k : Nat) (v : α) (h : bankWf reset m = true) :
    bankWf reset (bankSet reset m k v) = true := by
  unfold bankSet
  split
  · exact bankWf_filter reset _ h
  · exact bankWf_bankInsert reset h (by assumption)

/-- A change of every listed record keeps the canonical form. -/
theorem bankWf_bankMap [DecidableEq α] (reset : Nat → α) (f : Nat → α → α) {m : Bank α} (h : bankWf reset m = true) :
    bankWf reset (bankMap reset f m) = true := by
  rw [bankWf_iff] at *
  refine ⟨?_, fun e he => by simpa using (List.mem_filter.1 he).2⟩
  refine List.Pairwise.sublist (List.filter_sublist.map _) ?_
  simpa [List.map_map, Function.comp_def] using h.1

theorem bankGet_of_allAbove (reset : Nat → α) {m : Bank α} {k : Nat} (h : allAbove k m) : bankGet reset m k = reset k := by
  induction m with
  | nil => rfl
  | cons a r ih =>
    obtain ⟨i, w⟩ := a
    have hi : k < i := h (i, w) (by simp)
    simp only [bankGet]
    rw [if_neg (by omega)]
    exact ih fun e he => h e (by simp [he])

theorem bankGet_bankMap [DecidableEq α] (reset : Nat → α) (f : Nat → α → α) {m : Bank α} (h : bankWf reset m = true)
    (j : Nat) (hj : f j (reset j) = reset j) :
    bankGet reset (bankMap reset f m) j = f j (bankGet reset m j) := by
  induction m with
  | nil => simp [bankMap, bankGet, hj]
  | cons a r ih =>
    obtain ⟨i, w⟩ := a
    obtain ⟨h1, h2, h3⟩ := (bankWf_cons _ _ _).1 h
    have ih := ih h3
    have e : bankMap reset f ((i, w) :: r) =
        if f i w ≠ reset i then (i, f i w) :: bankMap reset f r else bankMap reset f r := by
      simp only [bankMap, List.map_cons, List.filter_cons]; split <;> simp_all
    rw [e]
    by_cases hij : i = j
    · subst hij
      have hr : bankGet reset r i = reset i := bankGet_of_allAbove reset h1
      rw [hr, hj] at ih
      split
      · simp [bankGet]
      · simp_all [bankGet]
    · split <;> simp [bankGet, hij, ih]

/-- The records that read `p` taken out of a bank: they read as after reset, every other one as before. -/
theorem bankGet_filter_value [DecidableEq α] (reset : Nat → α) (p : Nat → α → Bool) {m : Bank α}
    (h : bankWf reset m = true) (j : Nat) :
    bankGet reset (m.filter fun e => p e.1 e.2) j =
      if p j (bankGet reset m j) then bankGet reset m j else reset j := by
  induction m with
  | nil => simp only [List.filter_nil, bankGet]; by_cases hp : p j (reset j) = true <;> simp [hp]
  | cons a r ih =>
    obtain ⟨i, w⟩ := a
    obtain ⟨h1, h2, h3⟩ := (bankWf_cons _ _ _).1 h
    have ih := ih h3
    simp only [List.filter_cons]
    by_cases hij : i = j
    · subst hij
      have hr : bankGet reset r i = reset i := bankGet_of_allAbove reset h1
      split
      · simp_all [bankGet]
      · rename_i hp
        rw [ih, hr]; simp only [bankGet, if_true]
        simp [hp]
    · split <;> simp [bankGet, hij, ih]

/-- Canonical banks that read the same are equal. -/
theorem bank_ext [DecidableEq α] (reset : Nat → α) {m n : Bank α} (hm : bankWf reset m = true)
    (hn : bankWf reset n = true) (h : ∀ j, bankGet reset m j = bankGet reset n j) : m = n := by
  induction m generalizing n with
  | nil =>
    cases n with
    | nil => rfl
    | cons b r =>
      obtain ⟨i, w⟩ := b
      have := h i
      simp only [bankGet, if_true] at this
      exact absurd this.symm ((bankWf_cons _ _ _).1 hn).2.1
  | cons a r ih =>
    obtain ⟨i, w⟩ := a
    obtain ⟨h1, h2, h3⟩ := (bankWf_cons _ _ _).1 hm
    cases n with
    | nil =>
      have := h i
      simp only [bankGet, if_true] at this
      exact absurd this h2
    | cons b t =>
      obtain ⟨j, x⟩ := b
      obtain ⟨k1, k2, k3⟩ := (bankWf_cons _ _ _).1 hn
      have hij : i = j := by
        rcases Nat.lt_trichotomy i j with lt | eq | gt
        · have hi := h i
          simp only [bankGet, if_true] at hi
          rw [if_neg (by omega), bankGet_of_allAbove reset (fun e he => lt.trans (k1 e he))] at hi
          exact absurd hi h2
        · exact eq
        · have hj := h j
          simp only [bankGet, if_true] at hj
          rw [if_neg (by omega), bankGet_of_allAbove reset (fun e he => gt.trans (h1 e he))] at hj
          exact absurd hj.symm k2
      subst hij
      have hw : w = x := by simpa [bankGet] using h i
      subst hw
      congr 1
      refine ih h3 k3 fun l => ?_
      by_cases e : i = l
      · subst e; rw [bankGet_of_allAbove reset h1, bankGet_of_allAbove reset k1]
      · simpa [bankGet, e] using h l

/-! ## Writing twice -/

theorem bankErase_bankInsert (m : Bank α) (k : Nat) (v : α) : bankErase k (bankInsert k v m) = bankErase k m := by
  unfold bankErase
  induction m with
  | nil => simp [bankInsert]
  | cons e r ih =>
    obtain ⟨j, w⟩ := e
    simp only [bankInsert]
    split
    · simp
    · split
      · subst_vars; simp
      · simp only [List.filter_cons, ih]

theorem bankErase_bankErase (m : Bank α) (k : Nat) : bankErase k (bankErase k m) = bankErase k m := by
  simp [bankErase]

theorem bankInsert_bankInsert (m : Bank α) (k : Nat) (v w : α) :
    bankInsert k w (bankInsert k v m) = bankInsert k w m := by
  induction m with
  | nil => simp [bankInsert]
  | cons e r ih =>
    obtain ⟨j, x⟩ := e
    by_cases h1 : k < j
    · simp [bankInsert, h1]
    · by_cases h2 : k = j
      · subst h2; simp [bankInsert]
      · simp [bankInsert, h1, h2, ih]

/-- Of two writes of one record the last one counts: always where the first writes no reset value, and in canonical banks
whatever it writes. -/
theorem bankSet_bankSet [DecidableEq α] (reset : Nat → α) {m : Bank α} {k : Nat} {v : α} (w : α)
    (h : v = reset k → w = reset k ∨ bankWf reset m = true) :
    bankSet reset (bankSet reset m k v) k w = bankSet reset m k w := by
  by_cases hw : w = reset k
  · by_cases hv : v = reset k
    · simp [bankSet, hw, hv, bankErase_bankErase]
    · simp [bankSet, hw, hv, bankErase_bankInsert]
  · by_cases hv : v = reset k
    · have hm := (h hv).resolve_left hw
      refine bank_ext reset (bankWf_bankSet reset _ _ (bankWf_bankSet reset _ _ hm)) (bankWf_bankSet reset _ _ hm) fun j => ?_
      simp only [bankGet_bankSet]; split <;> rfl
    · simp [bankSet, hw, hv, bankInsert_bankInsert]

/-- Writing what a canonical bank already reads changes nothing. -/
theorem bankSet_self [DecidableEq α] (reset : Nat → α) {m : Bank α} (h : bankWf reset m = true) (k : Nat) :
    bankSet reset m k (bankGet reset m k) = m := by
  refine bank_ext reset (bankWf_bankSet reset _ _ h) h fun j => ?_
  rw [bankGet_bankSet]; split
  · subst_vars; rfl
  · rfl

/-! ## Listed records -/

/-- In canonical form a record is listed exactly when it does not read as after reset, and then as it reads. -/
theorem mem_bank [DecidableEq α] (reset : Nat → α) {m : Bank α} (h : bankWf reset m = true) {k : Nat} {v : α} :
    (k, v) ∈ m ↔ bankGet reset m k = v ∧ v ≠ reset k := by
  induction m with
  | nil => simp [bankGet, eq_comm]
  | cons e r ih =>
    obtain ⟨j, w⟩ := e
    obtain ⟨h1, h2, h3⟩ := (bankWf_cons _ _ _).1 h
    simp only [List.mem_cons, Prod.mk.injEq, bankGet, ih h3]
    by_cases e : j = k
    · subst e
      simp only [if_true, true_and]
      constructor
      · rintro (rfl | ⟨g, n⟩)
        · exact ⟨rfl, h2⟩
        · rw [bankGet_of_allAbove reset h1] at g; exact absurd g.symm n
      · rintro ⟨rfl, _⟩; exact .inl rfl
    · rw [if_neg e]
      constructor
      · rintro (⟨rfl, _⟩ | g)
        · exact absurd rfl e
        · exact g
      · exact .inr

/-! ## The first of a range -/

theorem firstFrom_none {p : Nat → Bool} {f i : Nat} :
    firstFrom p f i = none ↔ ∀ j, i ≤ j → j < i + f → p j = false := by
  induction f generalizing i with
  | zero => simp only [firstFrom, Nat.add_zero, true_iff]; intros; omega
  | succ f ih =>
    simp only [firstFrom]
    split
    · rename_i h
      refine ⟨nofun, fun g => ?_⟩
      rw [g i (Nat.le_refl _) (by omega)] at h; cases h
    · rename_i h
      rw [ih]
      refine ⟨fun g j h1 h2 => ?_, fun g j h1 h2 => g j (by omega) (by omega)⟩
      by_cases e : j = i
      · subst e; simpa using h
      · exact g j (by omega) (by omega)

theorem firstFrom_some {p : Nat → Bool} {f i k : Nat} :
    firstFrom p f i = some k ↔ i ≤ k ∧ k < i + f ∧ p k = true ∧ ∀ j, i ≤ j → j < k → p j = false := by
  induction f generalizing i with
  | zero => simp only [firstFrom, Nat.add_zero, reduceCtorEq, false_iff]; rintro ⟨h1, h2, _⟩; omega
  | succ f ih =>
    simp only [firstFrom]
    split
    · rename_i h
      constructor
      · intro e; injection e with e; subst e
        exact ⟨Nat.le_refl _, by omega, h, fun j _ _ => by omega⟩
      · rintro ⟨h1, h2, h3, h4⟩
        by_cases e : i = k
        · rw [e]
        · rw [h4 i (Nat.le_refl _) (by omega)] at h; cases h
    · rename_i h
      rw [ih]
      constructor
      · rintro ⟨h1, h2, h3, h4⟩
        refine ⟨by omega, by omega, h3, fun j a b => ?_⟩
        by_cases e : j = i
        · subst e; simpa using h
        · exact h4 j (by omega) b
      · rintro ⟨h1, h2, h3, h4⟩
        have e : k ≠ i := by rintro rfl; exact h h3
        exact ⟨by omega, by omega, h3, fun j a b => h4 j (by omega) b⟩

end Sys2Proof.Machine
end

