-- ==== Sys2Proof/Laws/State.lean ====
section
/-! SUPPORT. What each write changes: reading every record, block and field after it. A record's own write reads back as
written, and every other reading is as it was. -/

namespace Sys2Proof.Machine.State

variable (s : State)

/-! ## setRecord -/

@[simp] theorem record_setRecord (k : Nat) (v : PieceRecord) (j : Nat) : (s.setRecord k v).record j =
    if j = k then v else s.record j :=
  bankGet_bankSet _ _ _ _ _
@[simp] theorem slot_setRecord (k : Nat) (v : PieceRecord) (j : Nat) : (s.setRecord k v).slot j = s.slot j := rfl
@[simp] theorem bed_setRecord (k : Nat) (v : PieceRecord) (j : Nat) : (s.setRecord k v).bed j = s.bed j := rfl
@[simp] theorem hook_setRecord (k : Nat) (v : PieceRecord) (j : Nat) : (s.setRecord k v).hook j = s.hook j := rfl
@[simp] theorem table_setRecord (k : Nat) (v : PieceRecord) (j : Nat) : (s.setRecord k v).table j = s.table j := rfl
@[simp] theorem zone_setRecord (k : Nat) (v : PieceRecord) (j : Nat) : (s.setRecord k v).zone j = s.zone j := rfl
@[simp] theorem marks_setRecord (k : Nat) (v : PieceRecord) (j : Nat) : (s.setRecord k v).marks j = s.marks j := rfl
@[simp] theorem burn_setRecord (k : Nat) (v : PieceRecord) (j : Nat) : (s.setRecord k v).burn j = s.burn j := rfl
@[simp] theorem grantHeld_setRecord (k : Nat) (v : PieceRecord) (j : Nat) :
    (s.setRecord k v).grantHeld j = s.grantHeld j := rfl
@[simp] theorem monitor_setRecord (k : Nat) (v : PieceRecord) (j : Nat) :
    (s.setRecord k v).monitor j = s.monitor j := rfl
@[simp] theorem torch_setRecord (k : Nat) (v : PieceRecord) (j : Nat) : (s.setRecord k v).torch j = s.torch j := rfl
@[simp] theorem channel_setRecord (k : Nat) (v : PieceRecord) (j : Nat) :
    (s.setRecord k v).channel j = s.channel j := rfl
@[simp] theorem axis_setRecord (k : Nat) (v : PieceRecord) (j : Nat) : (s.setRecord k v).axis j = s.axis j := rfl
@[simp] theorem hoist_setRecord (k : Nat) (v : PieceRecord) (j : Nat) : (s.setRecord k v).hoist j = s.hoist j := rfl
@[simp] theorem crane_setRecord (k : Nat) (v : PieceRecord) (j : Nat) : (s.setRecord k v).crane j = s.crane j := rfl
@[simp] theorem pair_setRecord (k : Nat) (v : PieceRecord) (j : Nat) : (s.setRecord k v).pair j = s.pair j := rfl
@[simp] theorem intruders_setRecord (k : Nat) (v : PieceRecord) (j : Nat) :
    (s.setRecord k v).intruders j = s.intruders j := rfl
@[simp] theorem queue_setRecord (k : Nat) (v : PieceRecord) (j : Nat) : (s.setRecord k v).queue j = s.queue j := rfl
@[simp] theorem endedMove_setRecord (k : Nat) (v : PieceRecord) (j : Nat) :
    (s.setRecord k v).endedMove j = s.endedMove j := rfl
@[simp] theorem station_setRecord (k : Nat) (v : PieceRecord) (j : Nat) :
    (s.setRecord k v).station j = s.station j := rfl
@[simp] theorem notice_setRecord (k : Nat) (v : PieceRecord) (j : Nat) : (s.setRecord k v).notice j = s.notice j := rfl
@[simp] theorem sampled_setRecord (k : Nat) (v : PieceRecord) (j : Nat) :
    (s.setRecord k v).sampled j = s.sampled j := rfl
@[simp] theorem srg_primary_setRecord (k : Nat) (v : PieceRecord) : (s.setRecord k v).srg.primary = s.srg.primary := rfl
@[simp] theorem srg_groups_setRecord (k : Nat) (v : PieceRecord) : (s.setRecord k v).srg.groups = s.srg.groups := rfl
@[simp] theorem srg_creation_setRecord (k : Nat) (v : PieceRecord) :
    (s.setRecord k v).srg.creation = s.srg.creation := rfl
@[simp] theorem srg_remnant_setRecord (k : Nat) (v : PieceRecord) : (s.setRecord k v).srg.remnant = s.srg.remnant := rfl
@[simp] theorem lmap_setRecord (k : Nat) (v : PieceRecord) : (s.setRecord k v).lmap = s.lmap := rfl
@[simp] theorem fse_setRecord (k : Nat) (v : PieceRecord) : (s.setRecord k v).fse = s.fse := rfl
@[simp] theorem tbc_setRecord (k : Nat) (v : PieceRecord) : (s.setRecord k v).tbc = s.tbc := rfl
@[simp] theorem mkd_setRecord (k : Nat) (v : PieceRecord) : (s.setRecord k v).mkd = s.mkd := rfl
@[simp] theorem bsv_setRecord (k : Nat) (v : PieceRecord) : (s.setRecord k v).bsv = s.bsv := rfl
@[simp] theorem rsu_setRecord (k : Nat) (v : PieceRecord) : (s.setRecord k v).rsu = s.rsu := rfl
@[simp] theorem clu_setRecord (k : Nat) (v : PieceRecord) : (s.setRecord k v).clu = s.clu := rfl
@[simp] theorem mvc_setRecord (k : Nat) (v : PieceRecord) : (s.setRecord k v).mvc = s.mvc := rfl
@[simp] theorem slc_setRecord (k : Nat) (v : PieceRecord) : (s.setRecord k v).slc = s.slc := rfl
@[simp] theorem ppn_setRecord (k : Nat) (v : PieceRecord) : (s.setRecord k v).ppn = s.ppn := rfl
@[simp] theorem pending_setRecord (k : Nat) (v : PieceRecord) : (s.setRecord k v).pending = s.pending := rfl

/-! ## setSlot -/

@[simp] theorem slot_setSlot (k : Nat) (v : Slot) (j : Nat) : (s.setSlot k v).slot j = if j = k then v else s.slot j :=
  bankGet_bankSet _ _ _ _ _
@[simp] theorem record_setSlot (k : Nat) (v : Slot) (j : Nat) : (s.setSlot k v).record j = s.record j := rfl
@[simp] theorem bed_setSlot (k : Nat) (v : Slot) (j : Nat) : (s.setSlot k v).bed j = s.bed j := rfl
@[simp] theorem hook_setSlot (k : Nat) (v : Slot) (j : Nat) : (s.setSlot k v).hook j = s.hook j := rfl
@[simp] theorem table_setSlot (k : Nat) (v : Slot) (j : Nat) : (s.setSlot k v).table j = s.table j := rfl
@[simp] theorem zone_setSlot (k : Nat) (v : Slot) (j : Nat) : (s.setSlot k v).zone j = s.zone j := rfl
@[simp] theorem marks_setSlot (k : Nat) (v : Slot) (j : Nat) : (s.setSlot k v).marks j = s.marks j := rfl
@[simp] theorem burn_setSlot (k : Nat) (v : Slot) (j : Nat) : (s.setSlot k v).burn j = s.burn j := rfl
@[simp] theorem grantHeld_setSlot (k : Nat) (v : Slot) (j : Nat) : (s.setSlot k v).grantHeld j = s.grantHeld j := rfl
@[simp] theorem monitor_setSlot (k : Nat) (v : Slot) (j : Nat) : (s.setSlot k v).monitor j = s.monitor j := rfl
@[simp] theorem torch_setSlot (k : Nat) (v : Slot) (j : Nat) : (s.setSlot k v).torch j = s.torch j := rfl
@[simp] theorem channel_setSlot (k : Nat) (v : Slot) (j : Nat) : (s.setSlot k v).channel j = s.channel j := rfl
@[simp] theorem axis_setSlot (k : Nat) (v : Slot) (j : Nat) : (s.setSlot k v).axis j = s.axis j := rfl
@[simp] theorem hoist_setSlot (k : Nat) (v : Slot) (j : Nat) : (s.setSlot k v).hoist j = s.hoist j := rfl
@[simp] theorem crane_setSlot (k : Nat) (v : Slot) (j : Nat) : (s.setSlot k v).crane j = s.crane j := rfl
@[simp] theorem pair_setSlot (k : Nat) (v : Slot) (j : Nat) : (s.setSlot k v).pair j = s.pair j := rfl
@[simp] theorem intruders_setSlot (k : Nat) (v : Slot) (j : Nat) : (s.setSlot k v).intruders j = s.intruders j := rfl
@[simp] theorem queue_setSlot (k : Nat) (v : Slot) (j : Nat) : (s.setSlot k v).queue j = s.queue j := rfl
@[simp] theorem endedMove_setSlot (k : Nat) (v : Slot) (j : Nat) : (s.setSlot k v).endedMove j = s.endedMove j := rfl
@[simp] theorem station_setSlot (k : Nat) (v : Slot) (j : Nat) : (s.setSlot k v).station j = s.station j := rfl
@[simp] theorem notice_setSlot (k : Nat) (v : Slot) (j : Nat) : (s.setSlot k v).notice j = s.notice j := rfl
@[simp] theorem sampled_setSlot (k : Nat) (v : Slot) (j : Nat) : (s.setSlot k v).sampled j = s.sampled j := rfl
@[simp] theorem srg_setSlot (k : Nat) (v : Slot) : (s.setSlot k v).srg = s.srg := rfl
@[simp] theorem lmap_receiving_setSlot (k : Nat) (v : Slot) : (s.setSlot k v).lmap.receiving = s.lmap.receiving := rfl
@[simp] theorem lmap_recvX_setSlot (k : Nat) (v : Slot) : (s.setSlot k v).lmap.recvX = s.lmap.recvX := rfl
@[simp] theorem lmap_recvY_setSlot (k : Nat) (v : Slot) : (s.setSlot k v).lmap.recvY = s.lmap.recvY := rfl
@[simp] theorem lmap_beds_setSlot (k : Nat) (v : Slot) : (s.setSlot k v).lmap.beds = s.lmap.beds := rfl
@[simp] theorem lmap_hooks_setSlot (k : Nat) (v : Slot) : (s.setSlot k v).lmap.hooks = s.lmap.hooks := rfl
@[simp] theorem fse_setSlot (k : Nat) (v : Slot) : (s.setSlot k v).fse = s.fse := rfl
@[simp] theorem tbc_setSlot (k : Nat) (v : Slot) : (s.setSlot k v).tbc = s.tbc := rfl
@[simp] theorem mkd_setSlot (k : Nat) (v : Slot) : (s.setSlot k v).mkd = s.mkd := rfl
@[simp] theorem bsv_setSlot (k : Nat) (v : Slot) : (s.setSlot k v).bsv = s.bsv := rfl
@[simp] theorem rsu_setSlot (k : Nat) (v : Slot) : (s.setSlot k v).rsu = s.rsu := rfl
@[simp] theorem clu_setSlot (k : Nat) (v : Slot) : (s.setSlot k v).clu = s.clu := rfl
@[simp] theorem mvc_setSlot (k : Nat) (v : Slot) : (s.setSlot k v).mvc = s.mvc := rfl
@[simp] theorem slc_setSlot (k : Nat) (v : Slot) : (s.setSlot k v).slc = s.slc := rfl
@[simp] theorem ppn_setSlot (k : Nat) (v : Slot) : (s.setSlot k v).ppn = s.ppn := rfl
@[simp] theorem pending_setSlot (k : Nat) (v : Slot) : (s.setSlot k v).pending = s.pending := rfl
@[simp] theorem piece?_setSlot (k : Nat) (v : Slot) (h : Handle) : (s.setSlot k v).piece? h = s.piece? h := rfl

/-! ## setBed -/

@[simp] theorem bed_setBed (k : Nat) (v : BedRec) (j : Nat) : (s.setBed k v).bed j = if j = k then v else s.bed j :=
  bankGet_bankSet _ _ _ _ _
@[simp] theorem record_setBed (k : Nat) (v : BedRec) (j : Nat) : (s.setBed k v).record j = s.record j := rfl
@[simp] theorem slot_setBed (k : Nat) (v : BedRec) (j : Nat) : (s.setBed k v).slot j = s.slot j := rfl
@[simp] theorem hook_setBed (k : Nat) (v : BedRec) (j : Nat) : (s.setBed k v).hook j = s.hook j := rfl
@[simp] theorem table_setBed (k : Nat) (v : BedRec) (j : Nat) : (s.setBed k v).table j = s.table j := rfl
@[simp] theorem zone_setBed (k : Nat) (v : BedRec) (j : Nat) : (s.setBed k v).zone j = s.zone j := rfl
@[simp] theorem marks_setBed (k : Nat) (v : BedRec) (j : Nat) : (s.setBed k v).marks j = s.marks j := rfl
@[simp] theorem burn_setBed (k : Nat) (v : BedRec) (j : Nat) : (s.setBed k v).burn j = s.burn j := rfl
@[simp] theorem grantHeld_setBed (k : Nat) (v : BedRec) (j : Nat) : (s.setBed k v).grantHeld j = s.grantHeld j := rfl
@[simp] theorem monitor_setBed (k : Nat) (v : BedRec) (j : Nat) : (s.setBed k v).monitor j = s.monitor j := rfl
@[simp] theorem torch_setBed (k : Nat) (v : BedRec) (j : Nat) : (s.setBed k v).torch j = s.torch j := rfl
@[simp] theorem channel_setBed (k : Nat) (v : BedRec) (j : Nat) : (s.setBed k v).channel j = s.channel j := rfl
@[simp] theorem axis_setBed (k : Nat) (v : BedRec) (j : Nat) : (s.setBed k v).axis j = s.axis j := rfl
@[simp] theorem hoist_setBed (k : Nat) (v : BedRec) (j : Nat) : (s.setBed k v).hoist j = s.hoist j := rfl
@[simp] theorem crane_setBed (k : Nat) (v : BedRec) (j : Nat) : (s.setBed k v).crane j = s.crane j := rfl
@[simp] theorem pair_setBed (k : Nat) (v : BedRec) (j : Nat) : (s.setBed k v).pair j = s.pair j := rfl
@[simp] theorem intruders_setBed (k : Nat) (v : BedRec) (j : Nat) : (s.setBed k v).intruders j = s.intruders j := rfl
@[simp] theorem queue_setBed (k : Nat) (v : BedRec) (j : Nat) : (s.setBed k v).queue j = s.queue j := rfl
@[simp] theorem endedMove_setBed (k : Nat) (v : BedRec) (j : Nat) : (s.setBed k v).endedMove j = s.endedMove j := rfl
@[simp] theorem station_setBed (k : Nat) (v : BedRec) (j : Nat) : (s.setBed k v).station j = s.station j := rfl
@[simp] theorem notice_setBed (k : Nat) (v : BedRec) (j : Nat) : (s.setBed k v).notice j = s.notice j := rfl
@[simp] theorem sampled_setBed (k : Nat) (v : BedRec) (j : Nat) : (s.setBed k v).sampled j = s.sampled j := rfl
@[simp] theorem srg_setBed (k : Nat) (v : BedRec) : (s.setBed k v).srg = s.srg := rfl
@[simp] theorem lmap_slots_setBed (k : Nat) (v : BedRec) : (s.setBed k v).lmap.slots = s.lmap.slots := rfl
@[simp] theorem lmap_receiving_setBed (k : Nat) (v : BedRec) : (s.setBed k v).lmap.receiving = s.lmap.receiving := rfl
@[simp] theorem lmap_recvX_setBed (k : Nat) (v : BedRec) : (s.setBed k v).lmap.recvX = s.lmap.recvX := rfl
@[simp] theorem lmap_recvY_setBed (k : Nat) (v : BedRec) : (s.setBed k v).lmap.recvY = s.lmap.recvY := rfl
@[simp] theorem lmap_hooks_setBed (k : Nat) (v : BedRec) : (s.setBed k v).lmap.hooks = s.lmap.hooks := rfl
@[simp] theorem fse_setBed (k : Nat) (v : BedRec) : (s.setBed k v).fse = s.fse := rfl
@[simp] theorem tbc_setBed (k : Nat) (v : BedRec) : (s.setBed k v).tbc = s.tbc := rfl
@[simp] theorem mkd_setBed (k : Nat) (v : BedRec) : (s.setBed k v).mkd = s.mkd := rfl
@[simp] theorem bsv_setBed (k : Nat) (v : BedRec) : (s.setBed k v).bsv = s.bsv := rfl
@[simp] theorem rsu_setBed (k : Nat) (v : BedRec) : (s.setBed k v).rsu = s.rsu := rfl
@[simp] theorem clu_setBed (k : Nat) (v : BedRec) : (s.setBed k v).clu = s.clu := rfl
@[simp] theorem mvc_setBed (k : Nat) (v : BedRec) : (s.setBed k v).mvc = s.mvc := rfl
@[simp] theorem slc_setBed (k : Nat) (v : BedRec) : (s.setBed k v).slc = s.slc := rfl
@[simp] theorem ppn_setBed (k : Nat) (v : BedRec) : (s.setBed k v).ppn = s.ppn := rfl
@[simp] theorem pending_setBed (k : Nat) (v : BedRec) : (s.setBed k v).pending = s.pending := rfl
@[simp] theorem piece?_setBed (k : Nat) (v : BedRec) (h : Handle) : (s.setBed k v).piece? h = s.piece? h := rfl

/-! ## setHook -/

@[simp] theorem hook_setHook (k : Nat) (v : Option Handle) (j : Nat) : (s.setHook k v).hook j =
    if j = k then v else s.hook j :=
  bankGet_bankSet _ _ _ _ _
@[simp] theorem record_setHook (k : Nat) (v : Option Handle) (j : Nat) : (s.setHook k v).record j = s.record j := rfl
@[simp] theorem slot_setHook (k : Nat) (v : Option Handle) (j : Nat) : (s.setHook k v).slot j = s.slot j := rfl
@[simp] theorem bed_setHook (k : Nat) (v : Option Handle) (j : Nat) : (s.setHook k v).bed j = s.bed j := rfl
@[simp] theorem table_setHook (k : Nat) (v : Option Handle) (j : Nat) : (s.setHook k v).table j = s.table j := rfl
@[simp] theorem zone_setHook (k : Nat) (v : Option Handle) (j : Nat) : (s.setHook k v).zone j = s.zone j := rfl
@[simp] theorem marks_setHook (k : Nat) (v : Option Handle) (j : Nat) : (s.setHook k v).marks j = s.marks j := rfl
@[simp] theorem burn_setHook (k : Nat) (v : Option Handle) (j : Nat) : (s.setHook k v).burn j = s.burn j := rfl
@[simp] theorem grantHeld_setHook (k : Nat) (v : Option Handle) (j : Nat) :
    (s.setHook k v).grantHeld j = s.grantHeld j := rfl
@[simp] theorem monitor_setHook (k : Nat) (v : Option Handle) (j : Nat) : (s.setHook k v).monitor j = s.monitor j := rfl
@[simp] theorem torch_setHook (k : Nat) (v : Option Handle) (j : Nat) : (s.setHook k v).torch j = s.torch j := rfl
@[simp] theorem channel_setHook (k : Nat) (v : Option Handle) (j : Nat) : (s.setHook k v).channel j = s.channel j := rfl
@[simp] theorem axis_setHook (k : Nat) (v : Option Handle) (j : Nat) : (s.setHook k v).axis j = s.axis j := rfl
@[simp] theorem hoist_setHook (k : Nat) (v : Option Handle) (j : Nat) : (s.setHook k v).hoist j = s.hoist j := rfl
@[simp] theorem crane_setHook (k : Nat) (v : Option Handle) (j : Nat) : (s.setHook k v).crane j = s.crane j := rfl
@[simp] theorem pair_setHook (k : Nat) (v : Option Handle) (j : Nat) : (s.setHook k v).pair j = s.pair j := rfl
@[simp] theorem intruders_setHook (k : Nat) (v : Option Handle) (j : Nat) :
    (s.setHook k v).intruders j = s.intruders j := rfl
@[simp] theorem queue_setHook (k : Nat) (v : Option Handle) (j : Nat) : (s.setHook k v).queue j = s.queue j := rfl
@[simp] theorem endedMove_setHook (k : Nat) (v : Option Handle) (j : Nat) :
    (s.setHook k v).endedMove j = s.endedMove j := rfl
@[simp] theorem station_setHook (k : Nat) (v : Option Handle) (j : Nat) : (s.setHook k v).station j = s.station j := rfl
@[simp] theorem notice_setHook (k : Nat) (v : Option Handle) (j : Nat) : (s.setHook k v).notice j = s.notice j := rfl
@[simp] theorem sampled_setHook (k : Nat) (v : Option Handle) (j : Nat) : (s.setHook k v).sampled j = s.sampled j := rfl
@[simp] theorem srg_setHook (k : Nat) (v : Option Handle) : (s.setHook k v).srg = s.srg := rfl
@[simp] theorem lmap_slots_setHook (k : Nat) (v : Option Handle) : (s.setHook k v).lmap.slots = s.lmap.slots := rfl
@[simp] theorem lmap_receiving_setHook (k : Nat) (v : Option Handle) :
    (s.setHook k v).lmap.receiving = s.lmap.receiving := rfl
@[simp] theorem lmap_recvX_setHook (k : Nat) (v : Option Handle) : (s.setHook k v).lmap.recvX = s.lmap.recvX := rfl
@[simp] theorem lmap_recvY_setHook (k : Nat) (v : Option Handle) : (s.setHook k v).lmap.recvY = s.lmap.recvY := rfl
@[simp] theorem lmap_beds_setHook (k : Nat) (v : Option Handle) : (s.setHook k v).lmap.beds = s.lmap.beds := rfl
@[simp] theorem fse_setHook (k : Nat) (v : Option Handle) : (s.setHook k v).fse = s.fse := rfl
@[simp] theorem tbc_setHook (k : Nat) (v : Option Handle) : (s.setHook k v).tbc = s.tbc := rfl
@[simp] theorem mkd_setHook (k : Nat) (v : Option Handle) : (s.setHook k v).mkd = s.mkd := rfl
@[simp] theorem bsv_setHook (k : Nat) (v : Option Handle) : (s.setHook k v).bsv = s.bsv := rfl
@[simp] theorem rsu_setHook (k : Nat) (v : Option Handle) : (s.setHook k v).rsu = s.rsu := rfl
@[simp] theorem clu_setHook (k : Nat) (v : Option Handle) : (s.setHook k v).clu = s.clu := rfl
@[simp] theorem mvc_setHook (k : Nat) (v : Option Handle) : (s.setHook k v).mvc = s.mvc := rfl
@[simp] theorem slc_setHook (k : Nat) (v : Option Handle) : (s.setHook k v).slc = s.slc := rfl
@[simp] theorem ppn_setHook (k : Nat) (v : Option Handle) : (s.setHook k v).ppn = s.ppn := rfl
@[simp] theorem pending_setHook (k : Nat) (v : Option Handle) : (s.setHook k v).pending = s.pending := rfl
@[simp] theorem piece?_setHook (k : Nat) (v : Option Handle) (h : Handle) : (s.setHook k v).piece? h = s.piece? h := rfl

/-! ## setTable -/

@[simp] theorem table_setTable (k : Nat) (v : Table) (j : Nat) : (s.setTable k v).table j =
    if j = k then v else s.table j :=
  bankGet_bankSet _ _ _ _ _
@[simp] theorem record_setTable (k : Nat) (v : Table) (j : Nat) : (s.setTable k v).record j = s.record j := rfl
@[simp] theorem slot_setTable (k : Nat) (v : Table) (j : Nat) : (s.setTable k v).slot j = s.slot j := rfl
@[simp] theorem bed_setTable (k : Nat) (v : Table) (j : Nat) : (s.setTable k v).bed j = s.bed j := rfl
@[simp] theorem hook_setTable (k : Nat) (v : Table) (j : Nat) : (s.setTable k v).hook j = s.hook j := rfl
@[simp] theorem zone_setTable (k : Nat) (v : Table) (j : Nat) : (s.setTable k v).zone j = s.zone j := rfl
@[simp] theorem marks_setTable (k : Nat) (v : Table) (j : Nat) : (s.setTable k v).marks j = s.marks j := rfl
@[simp] theorem burn_setTable (k : Nat) (v : Table) (j : Nat) : (s.setTable k v).burn j = s.burn j := rfl
@[simp] theorem grantHeld_setTable (k : Nat) (v : Table) (j : Nat) : (s.setTable k v).grantHeld j = s.grantHeld j := rfl
@[simp] theorem monitor_setTable (k : Nat) (v : Table) (j : Nat) : (s.setTable k v).monitor j = s.monitor j := rfl
@[simp] theorem torch_setTable (k : Nat) (v : Table) (j : Nat) : (s.setTable k v).torch j = s.torch j := rfl
@[simp] theorem channel_setTable (k : Nat) (v : Table) (j : Nat) : (s.setTable k v).channel j = s.channel j := rfl
@[simp] theorem axis_setTable (k : Nat) (v : Table) (j : Nat) : (s.setTable k v).axis j = s.axis j := rfl
@[simp] theorem hoist_setTable (k : Nat) (v : Table) (j : Nat) : (s.setTable k v).hoist j = s.hoist j := rfl
@[simp] theorem crane_setTable (k : Nat) (v : Table) (j : Nat) : (s.setTable k v).crane j = s.crane j := rfl
@[simp] theorem pair_setTable (k : Nat) (v : Table) (j : Nat) : (s.setTable k v).pair j = s.pair j := rfl
@[simp] theorem intruders_setTable (k : Nat) (v : Table) (j : Nat) : (s.setTable k v).intruders j = s.intruders j := rfl
@[simp] theorem queue_setTable (k : Nat) (v : Table) (j : Nat) : (s.setTable k v).queue j = s.queue j := rfl
@[simp] theorem endedMove_setTable (k : Nat) (v : Table) (j : Nat) : (s.setTable k v).endedMove j = s.endedMove j := rfl
@[simp] theorem station_setTable (k : Nat) (v : Table) (j : Nat) : (s.setTable k v).station j = s.station j := rfl
@[simp] theorem notice_setTable (k : Nat) (v : Table) (j : Nat) : (s.setTable k v).notice j = s.notice j := rfl
@[simp] theorem sampled_setTable (k : Nat) (v : Table) (j : Nat) : (s.setTable k v).sampled j = s.sampled j := rfl
@[simp] theorem srg_setTable (k : Nat) (v : Table) : (s.setTable k v).srg = s.srg := rfl
@[simp] theorem lmap_setTable (k : Nat) (v : Table) : (s.setTable k v).lmap = s.lmap := rfl
@[simp] theorem fse_setTable (k : Nat) (v : Table) : (s.setTable k v).fse = s.fse := rfl
@[simp] theorem tbc_zones_setTable (k : Nat) (v : Table) : (s.setTable k v).tbc.zones = s.tbc.zones := rfl
@[simp] theorem mkd_setTable (k : Nat) (v : Table) : (s.setTable k v).mkd = s.mkd := rfl
@[simp] theorem bsv_setTable (k : Nat) (v : Table) : (s.setTable k v).bsv = s.bsv := rfl
@[simp] theorem rsu_setTable (k : Nat) (v : Table) : (s.setTable k v).rsu = s.rsu := rfl
@[simp] theorem clu_setTable (k : Nat) (v : Table) : (s.setTable k v).clu = s.clu := rfl
@[simp] theorem mvc_setTable (k : Nat) (v : Table) : (s.setTable k v).mvc = s.mvc := rfl
@[simp] theorem slc_setTable (k : Nat) (v : Table) : (s.setTable k v).slc = s.slc := rfl
@[simp] theorem ppn_setTable (k : Nat) (v : Table) : (s.setTable k v).ppn = s.ppn := rfl
@[simp] theorem pending_setTable (k : Nat) (v : Table) : (s.setTable k v).pending = s.pending := rfl
@[simp] theorem piece?_setTable (k : Nat) (v : Table) (h : Handle) : (s.setTable k v).piece? h = s.piece? h := rfl

/-! ## setZone -/

@[simp] theorem zone_setZone (k : Nat) (v : Zone) (j : Nat) : (s.setZone k v).zone j = if j = k then v else s.zone j :=
  bankGet_bankSet _ _ _ _ _
@[simp] theorem record_setZone (k : Nat) (v : Zone) (j : Nat) : (s.setZone k v).record j = s.record j := rfl
@[simp] theorem slot_setZone (k : Nat) (v : Zone) (j : Nat) : (s.setZone k v).slot j = s.slot j := rfl
@[simp] theorem bed_setZone (k : Nat) (v : Zone) (j : Nat) : (s.setZone k v).bed j = s.bed j := rfl
@[simp] theorem hook_setZone (k : Nat) (v : Zone) (j : Nat) : (s.setZone k v).hook j = s.hook j := rfl
@[simp] theorem table_setZone (k : Nat) (v : Zone) (j : Nat) : (s.setZone k v).table j = s.table j := rfl
@[simp] theorem marks_setZone (k : Nat) (v : Zone) (j : Nat) : (s.setZone k v).marks j = s.marks j := rfl
@[simp] theorem burn_setZone (k : Nat) (v : Zone) (j : Nat) : (s.setZone k v).burn j = s.burn j := rfl
@[simp] theorem grantHeld_setZone (k : Nat) (v : Zone) (j : Nat) : (s.setZone k v).grantHeld j = s.grantHeld j := rfl
@[simp] theorem monitor_setZone (k : Nat) (v : Zone) (j : Nat) : (s.setZone k v).monitor j = s.monitor j := rfl
@[simp] theorem torch_setZone (k : Nat) (v : Zone) (j : Nat) : (s.setZone k v).torch j = s.torch j := rfl
@[simp] theorem channel_setZone (k : Nat) (v : Zone) (j : Nat) : (s.setZone k v).channel j = s.channel j := rfl
@[simp] theorem axis_setZone (k : Nat) (v : Zone) (j : Nat) : (s.setZone k v).axis j = s.axis j := rfl
@[simp] theorem hoist_setZone (k : Nat) (v : Zone) (j : Nat) : (s.setZone k v).hoist j = s.hoist j := rfl
@[simp] theorem crane_setZone (k : Nat) (v : Zone) (j : Nat) : (s.setZone k v).crane j = s.crane j := rfl
@[simp] theorem pair_setZone (k : Nat) (v : Zone) (j : Nat) : (s.setZone k v).pair j = s.pair j := rfl
@[simp] theorem intruders_setZone (k : Nat) (v : Zone) (j : Nat) : (s.setZone k v).intruders j = s.intruders j := rfl
@[simp] theorem queue_setZone (k : Nat) (v : Zone) (j : Nat) : (s.setZone k v).queue j = s.queue j := rfl
@[simp] theorem endedMove_setZone (k : Nat) (v : Zone) (j : Nat) : (s.setZone k v).endedMove j = s.endedMove j := rfl
@[simp] theorem station_setZone (k : Nat) (v : Zone) (j : Nat) : (s.setZone k v).station j = s.station j := rfl
@[simp] theorem notice_setZone (k : Nat) (v : Zone) (j : Nat) : (s.setZone k v).notice j = s.notice j := rfl
@[simp] theorem sampled_setZone (k : Nat) (v : Zone) (j : Nat) : (s.setZone k v).sampled j = s.sampled j := rfl
@[simp] theorem srg_setZone (k : Nat) (v : Zone) : (s.setZone k v).srg = s.srg := rfl
@[simp] theorem lmap_setZone (k : Nat) (v : Zone) : (s.setZone k v).lmap = s.lmap := rfl
@[simp] theorem fse_setZone (k : Nat) (v : Zone) : (s.setZone k v).fse = s.fse := rfl
@[simp] theorem tbc_tables_setZone (k : Nat) (v : Zone) : (s.setZone k v).tbc.tables = s.tbc.tables := rfl
@[simp] theorem mkd_setZone (k : Nat) (v : Zone) : (s.setZone k v).mkd = s.mkd := rfl
@[simp] theorem bsv_setZone (k : Nat) (v : Zone) : (s.setZone k v).bsv = s.bsv := rfl
@[simp] theorem rsu_setZone (k : Nat) (v : Zone) : (s.setZone k v).rsu = s.rsu := rfl
@[simp] theorem clu_setZone (k : Nat) (v : Zone) : (s.setZone k v).clu = s.clu := rfl
@[simp] theorem mvc_setZone (k : Nat) (v : Zone) : (s.setZone k v).mvc = s.mvc := rfl
@[simp] theorem slc_setZone (k : Nat) (v : Zone) : (s.setZone k v).slc = s.slc := rfl
@[simp] theorem ppn_setZone (k : Nat) (v : Zone) : (s.setZone k v).ppn = s.ppn := rfl
@[simp] theorem pending_setZone (k : Nat) (v : Zone) : (s.setZone k v).pending = s.pending := rfl
@[simp] theorem piece?_setZone (k : Nat) (v : Zone) (h : Handle) : (s.setZone k v).piece? h = s.piece? h := rfl

/-! ## setMarks -/

@[simp] theorem marks_setMarks (k : Nat) (v : Marks) (j : Nat) : (s.setMarks k v).marks j =
    if j = k then v else s.marks j :=
  bankGet_bankSet _ _ _ _ _
@[simp] theorem record_setMarks (k : Nat) (v : Marks) (j : Nat) : (s.setMarks k v).record j = s.record j := rfl
@[simp] theorem slot_setMarks (k : Nat) (v : Marks) (j : Nat) : (s.setMarks k v).slot j = s.slot j := rfl
@[simp] theorem bed_setMarks (k : Nat) (v : Marks) (j : Nat) : (s.setMarks k v).bed j = s.bed j := rfl
@[simp] theorem hook_setMarks (k : Nat) (v : Marks) (j : Nat) : (s.setMarks k v).hook j = s.hook j := rfl
@[simp] theorem table_setMarks (k : Nat) (v : Marks) (j : Nat) : (s.setMarks k v).table j = s.table j := rfl
@[simp] theorem zone_setMarks (k : Nat) (v : Marks) (j : Nat) : (s.setMarks k v).zone j = s.zone j := rfl
@[simp] theorem burn_setMarks (k : Nat) (v : Marks) (j : Nat) : (s.setMarks k v).burn j = s.burn j := rfl
@[simp] theorem grantHeld_setMarks (k : Nat) (v : Marks) (j : Nat) : (s.setMarks k v).grantHeld j = s.grantHeld j := rfl
@[simp] theorem monitor_setMarks (k : Nat) (v : Marks) (j : Nat) : (s.setMarks k v).monitor j = s.monitor j := rfl
@[simp] theorem torch_setMarks (k : Nat) (v : Marks) (j : Nat) : (s.setMarks k v).torch j = s.torch j := rfl
@[simp] theorem channel_setMarks (k : Nat) (v : Marks) (j : Nat) : (s.setMarks k v).channel j = s.channel j := rfl
@[simp] theorem axis_setMarks (k : Nat) (v : Marks) (j : Nat) : (s.setMarks k v).axis j = s.axis j := rfl
@[simp] theorem hoist_setMarks (k : Nat) (v : Marks) (j : Nat) : (s.setMarks k v).hoist j = s.hoist j := rfl
@[simp] theorem crane_setMarks (k : Nat) (v : Marks) (j : Nat) : (s.setMarks k v).crane j = s.crane j := rfl
@[simp] theorem pair_setMarks (k : Nat) (v : Marks) (j : Nat) : (s.setMarks k v).pair j = s.pair j := rfl
@[simp] theorem intruders_setMarks (k : Nat) (v : Marks) (j : Nat) : (s.setMarks k v).intruders j = s.intruders j := rfl
@[simp] theorem queue_setMarks (k : Nat) (v : Marks) (j : Nat) : (s.setMarks k v).queue j = s.queue j := rfl
@[simp] theorem endedMove_setMarks (k : Nat) (v : Marks) (j : Nat) : (s.setMarks k v).endedMove j = s.endedMove j := rfl
@[simp] theorem station_setMarks (k : Nat) (v : Marks) (j : Nat) : (s.setMarks k v).station j = s.station j := rfl
@[simp] theorem notice_setMarks (k : Nat) (v : Marks) (j : Nat) : (s.setMarks k v).notice j = s.notice j := rfl
@[simp] theorem sampled_setMarks (k : Nat) (v : Marks) (j : Nat) : (s.setMarks k v).sampled j = s.sampled j := rfl
@[simp] theorem srg_setMarks (k : Nat) (v : Marks) : (s.setMarks k v).srg = s.srg := rfl
@[simp] theorem lmap_setMarks (k : Nat) (v : Marks) : (s.setMarks k v).lmap = s.lmap := rfl
@[simp] theorem fse_setMarks (k : Nat) (v : Marks) : (s.setMarks k v).fse = s.fse := rfl
@[simp] theorem tbc_setMarks (k : Nat) (v : Marks) : (s.setMarks k v).tbc = s.tbc := rfl
@[simp] theorem bsv_setMarks (k : Nat) (v : Marks) : (s.setMarks k v).bsv = s.bsv := rfl
@[simp] theorem rsu_setMarks (k : Nat) (v : Marks) : (s.setMarks k v).rsu = s.rsu := rfl
@[simp] theorem clu_setMarks (k : Nat) (v : Marks) : (s.setMarks k v).clu = s.clu := rfl
@[simp] theorem mvc_setMarks (k : Nat) (v : Marks) : (s.setMarks k v).mvc = s.mvc := rfl
@[simp] theorem slc_setMarks (k : Nat) (v : Marks) : (s.setMarks k v).slc = s.slc := rfl
@[simp] theorem ppn_setMarks (k : Nat) (v : Marks) : (s.setMarks k v).ppn = s.ppn := rfl
@[simp] theorem pending_setMarks (k : Nat) (v : Marks) : (s.setMarks k v).pending = s.pending := rfl
@[simp] theorem piece?_setMarks (k : Nat) (v : Marks) (h : Handle) : (s.setMarks k v).piece? h = s.piece? h := rfl

/-! ## setBurn -/

@[simp] theorem burn_setBurn (k : Nat) (v : Burn) (j : Nat) : (s.setBurn k v).burn j = if j = k then v else s.burn j :=
  bankGet_bankSet _ _ _ _ _
@[simp] theorem record_setBurn (k : Nat) (v : Burn) (j : Nat) : (s.setBurn k v).record j = s.record j := rfl
@[simp] theorem slot_setBurn (k : Nat) (v : Burn) (j : Nat) : (s.setBurn k v).slot j = s.slot j := rfl
@[simp] theorem bed_setBurn (k : Nat) (v : Burn) (j : Nat) : (s.setBurn k v).bed j = s.bed j := rfl
@[simp] theorem hook_setBurn (k : Nat) (v : Burn) (j : Nat) : (s.setBurn k v).hook j = s.hook j := rfl
@[simp] theorem table_setBurn (k : Nat) (v : Burn) (j : Nat) : (s.setBurn k v).table j = s.table j := rfl
@[simp] theorem zone_setBurn (k : Nat) (v : Burn) (j : Nat) : (s.setBurn k v).zone j = s.zone j := rfl
@[simp] theorem marks_setBurn (k : Nat) (v : Burn) (j : Nat) : (s.setBurn k v).marks j = s.marks j := rfl
@[simp] theorem grantHeld_setBurn (k : Nat) (v : Burn) (j : Nat) : (s.setBurn k v).grantHeld j = s.grantHeld j := rfl
@[simp] theorem monitor_setBurn (k : Nat) (v : Burn) (j : Nat) : (s.setBurn k v).monitor j = s.monitor j := rfl
@[simp] theorem torch_setBurn (k : Nat) (v : Burn) (j : Nat) : (s.setBurn k v).torch j = s.torch j := rfl
@[simp] theorem channel_setBurn (k : Nat) (v : Burn) (j : Nat) : (s.setBurn k v).channel j = s.channel j := rfl
@[simp] theorem axis_setBurn (k : Nat) (v : Burn) (j : Nat) : (s.setBurn k v).axis j = s.axis j := rfl
@[simp] theorem hoist_setBurn (k : Nat) (v : Burn) (j : Nat) : (s.setBurn k v).hoist j = s.hoist j := rfl
@[simp] theorem crane_setBurn (k : Nat) (v : Burn) (j : Nat) : (s.setBurn k v).crane j = s.crane j := rfl
@[simp] theorem pair_setBurn (k : Nat) (v : Burn) (j : Nat) : (s.setBurn k v).pair j = s.pair j := rfl
@[simp] theorem intruders_setBurn (k : Nat) (v : Burn) (j : Nat) : (s.setBurn k v).intruders j = s.intruders j := rfl
@[simp] theorem queue_setBurn (k : Nat) (v : Burn) (j : Nat) : (s.setBurn k v).queue j = s.queue j := rfl
@[simp] theorem endedMove_setBurn (k : Nat) (v : Burn) (j : Nat) : (s.setBurn k v).endedMove j = s.endedMove j := rfl
@[simp] theorem station_setBurn (k : Nat) (v : Burn) (j : Nat) : (s.setBurn k v).station j = s.station j := rfl
@[simp] theorem notice_setBurn (k : Nat) (v : Burn) (j : Nat) : (s.setBurn k v).notice j = s.notice j := rfl
@[simp] theorem sampled_setBurn (k : Nat) (v : Burn) (j : Nat) : (s.setBurn k v).sampled j = s.sampled j := rfl
@[simp] theorem srg_setBurn (k : Nat) (v : Burn) : (s.setBurn k v).srg = s.srg := rfl
@[simp] theorem lmap_setBurn (k : Nat) (v : Burn) : (s.setBurn k v).lmap = s.lmap := rfl
@[simp] theorem fse_setBurn (k : Nat) (v : Burn) : (s.setBurn k v).fse = s.fse := rfl
@[simp] theorem tbc_setBurn (k : Nat) (v : Burn) : (s.setBurn k v).tbc = s.tbc := rfl
@[simp] theorem mkd_setBurn (k : Nat) (v : Burn) : (s.setBurn k v).mkd = s.mkd := rfl
@[simp] theorem bsv_grantHeld_setBurn (k : Nat) (v : Burn) : (s.setBurn k v).bsv.grantHeld = s.bsv.grantHeld := rfl
@[simp] theorem bsv_monitors_setBurn (k : Nat) (v : Burn) : (s.setBurn k v).bsv.monitors = s.bsv.monitors := rfl
@[simp] theorem bsv_torches_setBurn (k : Nat) (v : Burn) : (s.setBurn k v).bsv.torches = s.bsv.torches := rfl
@[simp] theorem bsv_pierceMin_setBurn (k : Nat) (v : Burn) : (s.setBurn k v).bsv.pierceMin = s.bsv.pierceMin := rfl
@[simp] theorem bsv_burnLimit_setBurn (k : Nat) (v : Burn) : (s.setBurn k v).bsv.burnLimit = s.bsv.burnLimit := rfl
@[simp] theorem rsu_setBurn (k : Nat) (v : Burn) : (s.setBurn k v).rsu = s.rsu := rfl
@[simp] theorem clu_setBurn (k : Nat) (v : Burn) : (s.setBurn k v).clu = s.clu := rfl
@[simp] theorem mvc_setBurn (k : Nat) (v : Burn) : (s.setBurn k v).mvc = s.mvc := rfl
@[simp] theorem slc_setBurn (k : Nat) (v : Burn) : (s.setBurn k v).slc = s.slc := rfl
@[simp] theorem ppn_setBurn (k : Nat) (v : Burn) : (s.setBurn k v).ppn = s.ppn := rfl
@[simp] theorem pending_setBurn (k : Nat) (v : Burn) : (s.setBurn k v).pending = s.pending := rfl
@[simp] theorem piece?_setBurn (k : Nat) (v : Burn) (h : Handle) : (s.setBurn k v).piece? h = s.piece? h := rfl

/-! ## setGrantHeld -/

@[simp] theorem grantHeld_setGrantHeld (k : Nat) (v : Bool) (j : Nat) : (s.setGrantHeld k v).grantHeld j =
    if j = k then v else s.grantHeld j :=
  bankGet_bankSet _ _ _ _ _
@[simp] theorem record_setGrantHeld (k : Nat) (v : Bool) (j : Nat) : (s.setGrantHeld k v).record j = s.record j := rfl
@[simp] theorem slot_setGrantHeld (k : Nat) (v : Bool) (j : Nat) : (s.setGrantHeld k v).slot j = s.slot j := rfl
@[simp] theorem bed_setGrantHeld (k : Nat) (v : Bool) (j : Nat) : (s.setGrantHeld k v).bed j = s.bed j := rfl
@[simp] theorem hook_setGrantHeld (k : Nat) (v : Bool) (j : Nat) : (s.setGrantHeld k v).hook j = s.hook j := rfl
@[simp] theorem table_setGrantHeld (k : Nat) (v : Bool) (j : Nat) : (s.setGrantHeld k v).table j = s.table j := rfl
@[simp] theorem zone_setGrantHeld (k : Nat) (v : Bool) (j : Nat) : (s.setGrantHeld k v).zone j = s.zone j := rfl
@[simp] theorem marks_setGrantHeld (k : Nat) (v : Bool) (j : Nat) : (s.setGrantHeld k v).marks j = s.marks j := rfl
@[simp] theorem burn_setGrantHeld (k : Nat) (v : Bool) (j : Nat) : (s.setGrantHeld k v).burn j = s.burn j := rfl
@[simp] theorem monitor_setGrantHeld (k : Nat) (v : Bool) (j : Nat) :
    (s.setGrantHeld k v).monitor j = s.monitor j := rfl
@[simp] theorem torch_setGrantHeld (k : Nat) (v : Bool) (j : Nat) : (s.setGrantHeld k v).torch j = s.torch j := rfl
@[simp] theorem channel_setGrantHeld (k : Nat) (v : Bool) (j : Nat) :
    (s.setGrantHeld k v).channel j = s.channel j := rfl
@[simp] theorem axis_setGrantHeld (k : Nat) (v : Bool) (j : Nat) : (s.setGrantHeld k v).axis j = s.axis j := rfl
@[simp] theorem hoist_setGrantHeld (k : Nat) (v : Bool) (j : Nat) : (s.setGrantHeld k v).hoist j = s.hoist j := rfl
@[simp] theorem crane_setGrantHeld (k : Nat) (v : Bool) (j : Nat) : (s.setGrantHeld k v).crane j = s.crane j := rfl
@[simp] theorem pair_setGrantHeld (k : Nat) (v : Bool) (j : Nat) : (s.setGrantHeld k v).pair j = s.pair j := rfl
@[simp] theorem intruders_setGrantHeld (k : Nat) (v : Bool) (j : Nat) :
    (s.setGrantHeld k v).intruders j = s.intruders j := rfl
@[simp] theorem queue_setGrantHeld (k : Nat) (v : Bool) (j : Nat) : (s.setGrantHeld k v).queue j = s.queue j := rfl
@[simp] theorem endedMove_setGrantHeld (k : Nat) (v : Bool) (j : Nat) :
    (s.setGrantHeld k v).endedMove j = s.endedMove j := rfl
@[simp] theorem station_setGrantHeld (k : Nat) (v : Bool) (j : Nat) :
    (s.setGrantHeld k v).station j = s.station j := rfl
@[simp] theorem notice_setGrantHeld (k : Nat) (v : Bool) (j : Nat) : (s.setGrantHeld k v).notice j = s.notice j := rfl
@[simp] theorem sampled_setGrantHeld (k : Nat) (v : Bool) (j : Nat) :
    (s.setGrantHeld k v).sampled j = s.sampled j := rfl
@[simp] theorem srg_setGrantHeld (k : Nat) (v : Bool) : (s.setGrantHeld k v).srg = s.srg := rfl
@[simp] theorem lmap_setGrantHeld (k : Nat) (v : Bool) : (s.setGrantHeld k v).lmap = s.lmap := rfl
@[simp] theorem fse_setGrantHeld (k : Nat) (v : Bool) : (s.setGrantHeld k v).fse = s.fse := rfl
@[simp] theorem tbc_setGrantHeld (k : Nat) (v : Bool) : (s.setGrantHeld k v).tbc = s.tbc := rfl
@[simp] theorem mkd_setGrantHeld (k : Nat) (v : Bool) : (s.setGrantHeld k v).mkd = s.mkd := rfl
@[simp] theorem bsv_burns_setGrantHeld (k : Nat) (v : Bool) : (s.setGrantHeld k v).bsv.burns = s.bsv.burns := rfl
@[simp] theorem bsv_monitors_setGrantHeld (k : Nat) (v : Bool) :
    (s.setGrantHeld k v).bsv.monitors = s.bsv.monitors := rfl
@[simp] theorem bsv_torches_setGrantHeld (k : Nat) (v : Bool) : (s.setGrantHeld k v).bsv.torches = s.bsv.torches := rfl
@[simp] theorem bsv_pierceMin_setGrantHeld (k : Nat) (v : Bool) :
    (s.setGrantHeld k v).bsv.pierceMin = s.bsv.pierceMin := rfl
@[simp] theorem bsv_burnLimit_setGrantHeld (k : Nat) (v : Bool) :
    (s.setGrantHeld k v).bsv.burnLimit = s.bsv.burnLimit := rfl
@[simp] theorem rsu_setGrantHeld (k : Nat) (v : Bool) : (s.setGrantHeld k v).rsu = s.rsu := rfl
@[simp] theorem clu_setGrantHeld (k : Nat) (v : Bool) : (s.setGrantHeld k v).clu = s.clu := rfl
@[simp] theorem mvc_setGrantHeld (k : Nat) (v : Bool) : (s.setGrantHeld k v).mvc = s.mvc := rfl
@[simp] theorem slc_setGrantHeld (k : Nat) (v : Bool) : (s.setGrantHeld k v).slc = s.slc := rfl
@[simp] theorem ppn_setGrantHeld (k : Nat) (v : Bool) : (s.setGrantHeld k v).ppn = s.ppn := rfl
@[simp] theorem pending_setGrantHeld (k : Nat) (v : Bool) : (s.setGrantHeld k v).pending = s.pending := rfl
@[simp] theorem piece?_setGrantHeld (k : Nat) (v : Bool) (h : Handle) :
    (s.setGrantHeld k v).piece? h = s.piece? h := rfl

/-! ## setMonitor -/

@[simp] theorem monitor_setMonitor (k : Nat) (v : Monitor) (j : Nat) : (s.setMonitor k v).monitor j =
    if j = k then v else s.monitor j :=
  bankGet_bankSet _ _ _ _ _
@[simp] theorem record_setMonitor (k : Nat) (v : Monitor) (j : Nat) : (s.setMonitor k v).record j = s.record j := rfl
@[simp] theorem slot_setMonitor (k : Nat) (v : Monitor) (j : Nat) : (s.setMonitor k v).slot j = s.slot j := rfl
@[simp] theorem bed_setMonitor (k : Nat) (v : Monitor) (j : Nat) : (s.setMonitor k v).bed j = s.bed j := rfl
@[simp] theorem hook_setMonitor (k : Nat) (v : Monitor) (j : Nat) : (s.setMonitor k v).hook j = s.hook j := rfl
@[simp] theorem table_setMonitor (k : Nat) (v : Monitor) (j : Nat) : (s.setMonitor k v).table j = s.table j := rfl
@[simp] theorem zone_setMonitor (k : Nat) (v : Monitor) (j : Nat) : (s.setMonitor k v).zone j = s.zone j := rfl
@[simp] theorem marks_setMonitor (k : Nat) (v : Monitor) (j : Nat) : (s.setMonitor k v).marks j = s.marks j := rfl
@[simp] theorem burn_setMonitor (k : Nat) (v : Monitor) (j : Nat) : (s.setMonitor k v).burn j = s.burn j := rfl
@[simp] theorem grantHeld_setMonitor (k : Nat) (v : Monitor) (j : Nat) :
    (s.setMonitor k v).grantHeld j = s.grantHeld j := rfl
@[simp] theorem torch_setMonitor (k : Nat) (v : Monitor) (j : Nat) : (s.setMonitor k v).torch j = s.torch j := rfl
@[simp] theorem channel_setMonitor (k : Nat) (v : Monitor) (j : Nat) : (s.setMonitor k v).channel j = s.channel j := rfl
@[simp] theorem axis_setMonitor (k : Nat) (v : Monitor) (j : Nat) : (s.setMonitor k v).axis j = s.axis j := rfl
@[simp] theorem hoist_setMonitor (k : Nat) (v : Monitor) (j : Nat) : (s.setMonitor k v).hoist j = s.hoist j := rfl
@[simp] theorem crane_setMonitor (k : Nat) (v : Monitor) (j : Nat) : (s.setMonitor k v).crane j = s.crane j := rfl
@[simp] theorem pair_setMonitor (k : Nat) (v : Monitor) (j : Nat) : (s.setMonitor k v).pair j = s.pair j := rfl
@[simp] theorem intruders_setMonitor (k : Nat) (v : Monitor) (j : Nat) :
    (s.setMonitor k v).intruders j = s.intruders j := rfl
@[simp] theorem queue_setMonitor (k : Nat) (v : Monitor) (j : Nat) : (s.setMonitor k v).queue j = s.queue j := rfl
@[simp] theorem endedMove_setMonitor (k : Nat) (v : Monitor) (j : Nat) :
    (s.setMonitor k v).endedMove j = s.endedMove j := rfl
@[simp] theorem station_setMonitor (k : Nat) (v : Monitor) (j : Nat) : (s.setMonitor k v).station j = s.station j := rfl
@[simp] theorem notice_setMonitor (k : Nat) (v : Monitor) (j : Nat) : (s.setMonitor k v).notice j = s.notice j := rfl
@[simp] theorem sampled_setMonitor (k : Nat) (v : Monitor) (j : Nat) : (s.setMonitor k v).sampled j = s.sampled j := rfl
@[simp] theorem srg_setMonitor (k : Nat) (v : Monitor) : (s.setMonitor k v).srg = s.srg := rfl
@[simp] theorem lmap_setMonitor (k : Nat) (v : Monitor) : (s.setMonitor k v).lmap = s.lmap := rfl
@[simp] theorem fse_setMonitor (k : Nat) (v : Monitor) : (s.setMonitor k v).fse = s.fse := rfl
@[simp] theorem tbc_setMonitor (k : Nat) (v : Monitor) : (s.setMonitor k v).tbc = s.tbc := rfl
@[simp] theorem mkd_setMonitor (k : Nat) (v : Monitor) : (s.setMonitor k v).mkd = s.mkd := rfl
@[simp] theorem bsv_burns_setMonitor (k : Nat) (v : Monitor) : (s.setMonitor k v).bsv.burns = s.bsv.burns := rfl
@[simp] theorem bsv_grantHeld_setMonitor (k : Nat) (v : Monitor) :
    (s.setMonitor k v).bsv.grantHeld = s.bsv.grantHeld := rfl
@[simp] theorem bsv_torches_setMonitor (k : Nat) (v : Monitor) : (s.setMonitor k v).bsv.torches = s.bsv.torches := rfl
@[simp] theorem bsv_pierceMin_setMonitor (k : Nat) (v : Monitor) :
    (s.setMonitor k v).bsv.pierceMin = s.bsv.pierceMin := rfl
@[simp] theorem bsv_burnLimit_setMonitor (k : Nat) (v : Monitor) :
    (s.setMonitor k v).bsv.burnLimit = s.bsv.burnLimit := rfl
@[simp] theorem rsu_setMonitor (k : Nat) (v : Monitor) : (s.setMonitor k v).rsu = s.rsu := rfl
@[simp] theorem clu_setMonitor (k : Nat) (v : Monitor) : (s.setMonitor k v).clu = s.clu := rfl
@[simp] theorem mvc_setMonitor (k : Nat) (v : Monitor) : (s.setMonitor k v).mvc = s.mvc := rfl
@[simp] theorem slc_setMonitor (k : Nat) (v : Monitor) : (s.setMonitor k v).slc = s.slc := rfl
@[simp] theorem ppn_setMonitor (k : Nat) (v : Monitor) : (s.setMonitor k v).ppn = s.ppn := rfl
@[simp] theorem pending_setMonitor (k : Nat) (v : Monitor) : (s.setMonitor k v).pending = s.pending := rfl
@[simp] theorem piece?_setMonitor (k : Nat) (v : Monitor) (h : Handle) : (s.setMonitor k v).piece? h = s.piece? h := rfl

/-! ## setTorch -/

@[simp] theorem torch_setTorch (k : Nat) (v : Torch) (j : Nat) : (s.setTorch k v).torch j =
    if j = k then v else s.torch j :=
  bankGet_bankSet _ _ _ _ _
@[simp] theorem record_setTorch (k : Nat) (v : Torch) (j : Nat) : (s.setTorch k v).record j = s.record j := rfl
@[simp] theorem slot_setTorch (k : Nat) (v : Torch) (j : Nat) : (s.setTorch k v).slot j = s.slot j := rfl
@[simp] theorem bed_setTorch (k : Nat) (v : Torch) (j : Nat) : (s.setTorch k v).bed j = s.bed j := rfl
@[simp] theorem hook_setTorch (k : Nat) (v : Torch) (j : Nat) : (s.setTorch k v).hook j = s.hook j := rfl
@[simp] theorem table_setTorch (k : Nat) (v : Torch) (j : Nat) : (s.setTorch k v).table j = s.table j := rfl
@[simp] theorem zone_setTorch (k : Nat) (v : Torch) (j : Nat) : (s.setTorch k v).zone j = s.zone j := rfl
@[simp] theorem marks_setTorch (k : Nat) (v : Torch) (j : Nat) : (s.setTorch k v).marks j = s.marks j := rfl
@[simp] theorem burn_setTorch (k : Nat) (v : Torch) (j : Nat) : (s.setTorch k v).burn j = s.burn j := rfl
@[simp] theorem grantHeld_setTorch (k : Nat) (v : Torch) (j : Nat) : (s.setTorch k v).grantHeld j = s.grantHeld j := rfl
@[simp] theorem monitor_setTorch (k : Nat) (v : Torch) (j : Nat) : (s.setTorch k v).monitor j = s.monitor j := rfl
@[simp] theorem channel_setTorch (k : Nat) (v : Torch) (j : Nat) : (s.setTorch k v).channel j = s.channel j := rfl
@[simp] theorem axis_setTorch (k : Nat) (v : Torch) (j : Nat) : (s.setTorch k v).axis j = s.axis j := rfl
@[simp] theorem hoist_setTorch (k : Nat) (v : Torch) (j : Nat) : (s.setTorch k v).hoist j = s.hoist j := rfl
@[simp] theorem crane_setTorch (k : Nat) (v : Torch) (j : Nat) : (s.setTorch k v).crane j = s.crane j := rfl
@[simp] theorem pair_setTorch (k : Nat) (v : Torch) (j : Nat) : (s.setTorch k v).pair j = s.pair j := rfl
@[simp] theorem intruders_setTorch (k : Nat) (v : Torch) (j : Nat) : (s.setTorch k v).intruders j = s.intruders j := rfl
@[simp] theorem queue_setTorch (k : Nat) (v : Torch) (j : Nat) : (s.setTorch k v).queue j = s.queue j := rfl
@[simp] theorem endedMove_setTorch (k : Nat) (v : Torch) (j : Nat) : (s.setTorch k v).endedMove j = s.endedMove j := rfl
@[simp] theorem station_setTorch (k : Nat) (v : Torch) (j : Nat) : (s.setTorch k v).station j = s.station j := rfl
@[simp] theorem notice_setTorch (k : Nat) (v : Torch) (j : Nat) : (s.setTorch k v).notice j = s.notice j := rfl
@[simp] theorem sampled_setTorch (k : Nat) (v : Torch) (j : Nat) : (s.setTorch k v).sampled j = s.sampled j := rfl
@[simp] theorem srg_setTorch (k : Nat) (v : Torch) : (s.setTorch k v).srg = s.srg := rfl
@[simp] theorem lmap_setTorch (k : Nat) (v : Torch) : (s.setTorch k v).lmap = s.lmap := rfl
@[simp] theorem fse_setTorch (k : Nat) (v : Torch) : (s.setTorch k v).fse = s.fse := rfl
@[simp] theorem tbc_setTorch (k : Nat) (v : Torch) : (s.setTorch k v).tbc = s.tbc := rfl
@[simp] theorem mkd_setTorch (k : Nat) (v : Torch) : (s.setTorch k v).mkd = s.mkd := rfl
@[simp] theorem bsv_burns_setTorch (k : Nat) (v : Torch) : (s.setTorch k v).bsv.burns = s.bsv.burns := rfl
@[simp] theorem bsv_grantHeld_setTorch (k : Nat) (v : Torch) : (s.setTorch k v).bsv.grantHeld = s.bsv.grantHeld := rfl
@[simp] theorem bsv_monitors_setTorch (k : Nat) (v : Torch) : (s.setTorch k v).bsv.monitors = s.bsv.monitors := rfl
@[simp] theorem bsv_pierceMin_setTorch (k : Nat) (v : Torch) : (s.setTorch k v).bsv.pierceMin = s.bsv.pierceMin := rfl
@[simp] theorem bsv_burnLimit_setTorch (k : Nat) (v : Torch) : (s.setTorch k v).bsv.burnLimit = s.bsv.burnLimit := rfl
@[simp] theorem rsu_setTorch (k : Nat) (v : Torch) : (s.setTorch k v).rsu = s.rsu := rfl
@[simp] theorem clu_setTorch (k : Nat) (v : Torch) : (s.setTorch k v).clu = s.clu := rfl
@[simp] theorem mvc_setTorch (k : Nat) (v : Torch) : (s.setTorch k v).mvc = s.mvc := rfl
@[simp] theorem slc_setTorch (k : Nat) (v : Torch) : (s.setTorch k v).slc = s.slc := rfl
@[simp] theorem ppn_setTorch (k : Nat) (v : Torch) : (s.setTorch k v).ppn = s.ppn := rfl
@[simp] theorem pending_setTorch (k : Nat) (v : Torch) : (s.setTorch k v).pending = s.pending := rfl
@[simp] theorem piece?_setTorch (k : Nat) (v : Torch) (h : Handle) : (s.setTorch k v).piece? h = s.piece? h := rfl

/-! ## setChannel -/

@[simp] theorem channel_setChannel (k : Nat) (v : Channel) (j : Nat) : (s.setChannel k v).channel j =
    if j = k then v else s.channel j :=
  bankGet_bankSet _ _ _ _ _
@[simp] theorem record_setChannel (k : Nat) (v : Channel) (j : Nat) : (s.setChannel k v).record j = s.record j := rfl
@[simp] theorem slot_setChannel (k : Nat) (v : Channel) (j : Nat) : (s.setChannel k v).slot j = s.slot j := rfl
@[simp] theorem bed_setChannel (k : Nat) (v : Channel) (j : Nat) : (s.setChannel k v).bed j = s.bed j := rfl
@[simp] theorem hook_setChannel (k : Nat) (v : Channel) (j : Nat) : (s.setChannel k v).hook j = s.hook j := rfl
@[simp] theorem table_setChannel (k : Nat) (v : Channel) (j : Nat) : (s.setChannel k v).table j = s.table j := rfl
@[simp] theorem zone_setChannel (k : Nat) (v : Channel) (j : Nat) : (s.setChannel k v).zone j = s.zone j := rfl
@[simp] theorem marks_setChannel (k : Nat) (v : Channel) (j : Nat) : (s.setChannel k v).marks j = s.marks j := rfl
@[simp] theorem burn_setChannel (k : Nat) (v : Channel) (j : Nat) : (s.setChannel k v).burn j = s.burn j := rfl
@[simp] theorem grantHeld_setChannel (k : Nat) (v : Channel) (j : Nat) :
    (s.setChannel k v).grantHeld j = s.grantHeld j := rfl
@[simp] theorem monitor_setChannel (k : Nat) (v : Channel) (j : Nat) : (s.setChannel k v).monitor j = s.monitor j := rfl
@[simp] theorem torch_setChannel (k : Nat) (v : Channel) (j : Nat) : (s.setChannel k v).torch j = s.torch j := rfl
@[simp] theorem axis_setChannel (k : Nat) (v : Channel) (j : Nat) : (s.setChannel k v).axis j = s.axis j := rfl
@[simp] theorem hoist_setChannel (k : Nat) (v : Channel) (j : Nat) : (s.setChannel k v).hoist j = s.hoist j := rfl
@[simp] theorem crane_setChannel (k : Nat) (v : Channel) (j : Nat) : (s.setChannel k v).crane j = s.crane j := rfl
@[simp] theorem pair_setChannel (k : Nat) (v : Channel) (j : Nat) : (s.setChannel k v).pair j = s.pair j := rfl
@[simp] theorem intruders_setChannel (k : Nat) (v : Channel) (j : Nat) :
    (s.setChannel k v).intruders j = s.intruders j := rfl
@[simp] theorem queue_setChannel (k : Nat) (v : Channel) (j : Nat) : (s.setChannel k v).queue j = s.queue j := rfl
@[simp] theorem endedMove_setChannel (k : Nat) (v : Channel) (j : Nat) :
    (s.setChannel k v).endedMove j = s.endedMove j := rfl
@[simp] theorem station_setChannel (k : Nat) (v : Channel) (j : Nat) : (s.setChannel k v).station j = s.station j := rfl
@[simp] theorem notice_setChannel (k : Nat) (v : Channel) (j : Nat) : (s.setChannel k v).notice j = s.notice j := rfl
@[simp] theorem sampled_setChannel (k : Nat) (v : Channel) (j : Nat) : (s.setChannel k v).sampled j = s.sampled j := rfl
@[simp] theorem srg_setChannel (k : Nat) (v : Channel) : (s.setChannel k v).srg = s.srg := rfl
@[simp] theorem lmap_setChannel (k : Nat) (v : Channel) : (s.setChannel k v).lmap = s.lmap := rfl
@[simp] theorem fse_setChannel (k : Nat) (v : Channel) : (s.setChannel k v).fse = s.fse := rfl
@[simp] theorem tbc_setChannel (k : Nat) (v : Channel) : (s.setChannel k v).tbc = s.tbc := rfl
@[simp] theorem mkd_setChannel (k : Nat) (v : Channel) : (s.setChannel k v).mkd = s.mkd := rfl
@[simp] theorem bsv_setChannel (k : Nat) (v : Channel) : (s.setChannel k v).bsv = s.bsv := rfl
@[simp] theorem rsu_axes_setChannel (k : Nat) (v : Channel) : (s.setChannel k v).rsu.axes = s.rsu.axes := rfl
@[simp] theorem rsu_hoists_setChannel (k : Nat) (v : Channel) : (s.setChannel k v).rsu.hoists = s.rsu.hoists := rfl
@[simp] theorem rsu_collecting_setChannel (k : Nat) (v : Channel) :
    (s.setChannel k v).rsu.collecting = s.rsu.collecting := rfl
@[simp] theorem rsu_missedTicks_setChannel (k : Nat) (v : Channel) :
    (s.setChannel k v).rsu.missedTicks = s.rsu.missedTicks := rfl
@[simp] theorem rsu_latest_setChannel (k : Nat) (v : Channel) : (s.setChannel k v).rsu.latest = s.rsu.latest := rfl
@[simp] theorem clu_setChannel (k : Nat) (v : Channel) : (s.setChannel k v).clu = s.clu := rfl
@[simp] theorem mvc_setChannel (k : Nat) (v : Channel) : (s.setChannel k v).mvc = s.mvc := rfl
@[simp] theorem slc_setChannel (k : Nat) (v : Channel) : (s.setChannel k v).slc = s.slc := rfl
@[simp] theorem ppn_setChannel (k : Nat) (v : Channel) : (s.setChannel k v).ppn = s.ppn := rfl
@[simp] theorem pending_setChannel (k : Nat) (v : Channel) : (s.setChannel k v).pending = s.pending := rfl
@[simp] theorem piece?_setChannel (k : Nat) (v : Channel) (h : Handle) : (s.setChannel k v).piece? h = s.piece? h := rfl

/-! ## setAxis -/

@[simp] theorem axis_setAxis (k : Nat) (v : Axis) (j : Nat) : (s.setAxis k v).axis j = if j = k then v else s.axis j :=
  bankGet_bankSet _ _ _ _ _
@[simp] theorem record_setAxis (k : Nat) (v : Axis) (j : Nat) : (s.setAxis k v).record j = s.record j := rfl
@[simp] theorem slot_setAxis (k : Nat) (v : Axis) (j : Nat) : (s.setAxis k v).slot j = s.slot j := rfl
@[simp] theorem bed_setAxis (k : Nat) (v : Axis) (j : Nat) : (s.setAxis k v).bed j = s.bed j := rfl
@[simp] theorem hook_setAxis (k : Nat) (v : Axis) (j : Nat) : (s.setAxis k v).hook j = s.hook j := rfl
@[simp] theorem table_setAxis (k : Nat) (v : Axis) (j : Nat) : (s.setAxis k v).table j = s.table j := rfl
@[simp] theorem zone_setAxis (k : Nat) (v : Axis) (j : Nat) : (s.setAxis k v).zone j = s.zone j := rfl
@[simp] theorem marks_setAxis (k : Nat) (v : Axis) (j : Nat) : (s.setAxis k v).marks j = s.marks j := rfl
@[simp] theorem burn_setAxis (k : Nat) (v : Axis) (j : Nat) : (s.setAxis k v).burn j = s.burn j := rfl
@[simp] theorem grantHeld_setAxis (k : Nat) (v : Axis) (j : Nat) : (s.setAxis k v).grantHeld j = s.grantHeld j := rfl
@[simp] theorem monitor_setAxis (k : Nat) (v : Axis) (j : Nat) : (s.setAxis k v).monitor j = s.monitor j := rfl
@[simp] theorem torch_setAxis (k : Nat) (v : Axis) (j : Nat) : (s.setAxis k v).torch j = s.torch j := rfl
@[simp] theorem channel_setAxis (k : Nat) (v : Axis) (j : Nat) : (s.setAxis k v).channel j = s.channel j := rfl
@[simp] theorem hoist_setAxis (k : Nat) (v : Axis) (j : Nat) : (s.setAxis k v).hoist j = s.hoist j := rfl
@[simp] theorem crane_setAxis (k : Nat) (v : Axis) (j : Nat) : (s.setAxis k v).crane j = s.crane j := rfl
@[simp] theorem pair_setAxis (k : Nat) (v : Axis) (j : Nat) : (s.setAxis k v).pair j = s.pair j := rfl
@[simp] theorem intruders_setAxis (k : Nat) (v : Axis) (j : Nat) : (s.setAxis k v).intruders j = s.intruders j := rfl
@[simp] theorem queue_setAxis (k : Nat) (v : Axis) (j : Nat) : (s.setAxis k v).queue j = s.queue j := rfl
@[simp] theorem endedMove_setAxis (k : Nat) (v : Axis) (j : Nat) : (s.setAxis k v).endedMove j = s.endedMove j := rfl
@[simp] theorem station_setAxis (k : Nat) (v : Axis) (j : Nat) : (s.setAxis k v).station j = s.station j := rfl
@[simp] theorem notice_setAxis (k : Nat) (v : Axis) (j : Nat) : (s.setAxis k v).notice j = s.notice j := rfl
@[simp] theorem sampled_setAxis (k : Nat) (v : Axis) (j : Nat) : (s.setAxis k v).sampled j = s.sampled j := rfl
@[simp] theorem srg_setAxis (k : Nat) (v : Axis) : (s.setAxis k v).srg = s.srg := rfl
@[simp] theorem lmap_setAxis (k : Nat) (v : Axis) : (s.setAxis k v).lmap = s.lmap := rfl
@[simp] theorem fse_setAxis (k : Nat) (v : Axis) : (s.setAxis k v).fse = s.fse := rfl
@[simp] theorem tbc_setAxis (k : Nat) (v : Axis) : (s.setAxis k v).tbc = s.tbc := rfl
@[simp] theorem mkd_setAxis (k : Nat) (v : Axis) : (s.setAxis k v).mkd = s.mkd := rfl
@[simp] theorem bsv_setAxis (k : Nat) (v : Axis) : (s.setAxis k v).bsv = s.bsv := rfl
@[simp] theorem rsu_channels_setAxis (k : Nat) (v : Axis) : (s.setAxis k v).rsu.channels = s.rsu.channels := rfl
@[simp] theorem rsu_hoists_setAxis (k : Nat) (v : Axis) : (s.setAxis k v).rsu.hoists = s.rsu.hoists := rfl
@[simp] theorem rsu_collecting_setAxis (k : Nat) (v : Axis) : (s.setAxis k v).rsu.collecting = s.rsu.collecting := rfl
@[simp] theorem rsu_missedTicks_setAxis (k : Nat) (v : Axis) :
    (s.setAxis k v).rsu.missedTicks = s.rsu.missedTicks := rfl
@[simp] theorem rsu_latest_setAxis (k : Nat) (v : Axis) : (s.setAxis k v).rsu.latest = s.rsu.latest := rfl
@[simp] theorem clu_setAxis (k : Nat) (v : Axis) : (s.setAxis k v).clu = s.clu := rfl
@[simp] theorem mvc_setAxis (k : Nat) (v : Axis) : (s.setAxis k v).mvc = s.mvc := rfl
@[simp] theorem slc_setAxis (k : Nat) (v : Axis) : (s.setAxis k v).slc = s.slc := rfl
@[simp] theorem ppn_setAxis (k : Nat) (v : Axis) : (s.setAxis k v).ppn = s.ppn := rfl
@[simp] theorem pending_setAxis (k : Nat) (v : Axis) : (s.setAxis k v).pending = s.pending := rfl
@[simp] theorem piece?_setAxis (k : Nat) (v : Axis) (h : Handle) : (s.setAxis k v).piece? h = s.piece? h := rfl

/-! ## setHoist -/

@[simp] theorem hoist_setHoist (k : Nat) (v : Hoist) (j : Nat) : (s.setHoist k v).hoist j =
    if j = k then v else s.hoist j :=
  bankGet_bankSet _ _ _ _ _
@[simp] theorem record_setHoist (k : Nat) (v : Hoist) (j : Nat) : (s.setHoist k v).record j = s.record j := rfl
@[simp] theorem slot_setHoist (k : Nat) (v : Hoist) (j : Nat) : (s.setHoist k v).slot j = s.slot j := rfl
@[simp] theorem bed_setHoist (k : Nat) (v : Hoist) (j : Nat) : (s.setHoist k v).bed j = s.bed j := rfl
@[simp] theorem hook_setHoist (k : Nat) (v : Hoist) (j : Nat) : (s.setHoist k v).hook j = s.hook j := rfl
@[simp] theorem table_setHoist (k : Nat) (v : Hoist) (j : Nat) : (s.setHoist k v).table j = s.table j := rfl
@[simp] theorem zone_setHoist (k : Nat) (v : Hoist) (j : Nat) : (s.setHoist k v).zone j = s.zone j := rfl
@[simp] theorem marks_setHoist (k : Nat) (v : Hoist) (j : Nat) : (s.setHoist k v).marks j = s.marks j := rfl
@[simp] theorem burn_setHoist (k : Nat) (v : Hoist) (j : Nat) : (s.setHoist k v).burn j = s.burn j := rfl
@[simp] theorem grantHeld_setHoist (k : Nat) (v : Hoist) (j : Nat) : (s.setHoist k v).grantHeld j = s.grantHeld j := rfl
@[simp] theorem monitor_setHoist (k : Nat) (v : Hoist) (j : Nat) : (s.setHoist k v).monitor j = s.monitor j := rfl
@[simp] theorem torch_setHoist (k : Nat) (v : Hoist) (j : Nat) : (s.setHoist k v).torch j = s.torch j := rfl
@[simp] theorem channel_setHoist (k : Nat) (v : Hoist) (j : Nat) : (s.setHoist k v).channel j = s.channel j := rfl
@[simp] theorem axis_setHoist (k : Nat) (v : Hoist) (j : Nat) : (s.setHoist k v).axis j = s.axis j := rfl
@[simp] theorem crane_setHoist (k : Nat) (v : Hoist) (j : Nat) : (s.setHoist k v).crane j = s.crane j := rfl
@[simp] theorem pair_setHoist (k : Nat) (v : Hoist) (j : Nat) : (s.setHoist k v).pair j = s.pair j := rfl
@[simp] theorem intruders_setHoist (k : Nat) (v : Hoist) (j : Nat) : (s.setHoist k v).intruders j = s.intruders j := rfl
@[simp] theorem queue_setHoist (k : Nat) (v : Hoist) (j : Nat) : (s.setHoist k v).queue j = s.queue j := rfl
@[simp] theorem endedMove_setHoist (k : Nat) (v : Hoist) (j : Nat) : (s.setHoist k v).endedMove j = s.endedMove j := rfl
@[simp] theorem station_setHoist (k : Nat) (v : Hoist) (j : Nat) : (s.setHoist k v).station j = s.station j := rfl
@[simp] theorem notice_setHoist (k : Nat) (v : Hoist) (j : Nat) : (s.setHoist k v).notice j = s.notice j := rfl
@[simp] theorem sampled_setHoist (k : Nat) (v : Hoist) (j : Nat) : (s.setHoist k v).sampled j = s.sampled j := rfl
@[simp] theorem srg_setHoist (k : Nat) (v : Hoist) : (s.setHoist k v).srg = s.srg := rfl
@[simp] theorem lmap_setHoist (k : Nat) (v : Hoist) : (s.setHoist k v).lmap = s.lmap := rfl
@[simp] theorem fse_setHoist (k : Nat) (v : Hoist) : (s.setHoist k v).fse = s.fse := rfl
@[simp] theorem tbc_setHoist (k : Nat) (v : Hoist) : (s.setHoist k v).tbc = s.tbc := rfl
@[simp] theorem mkd_setHoist (k : Nat) (v : Hoist) : (s.setHoist k v).mkd = s.mkd := rfl
@[simp] theorem bsv_setHoist (k : Nat) (v : Hoist) : (s.setHoist k v).bsv = s.bsv := rfl
@[simp] theorem rsu_channels_setHoist (k : Nat) (v : Hoist) : (s.setHoist k v).rsu.channels = s.rsu.channels := rfl
@[simp] theorem rsu_axes_setHoist (k : Nat) (v : Hoist) : (s.setHoist k v).rsu.axes = s.rsu.axes := rfl
@[simp] theorem rsu_collecting_setHoist (k : Nat) (v : Hoist) :
    (s.setHoist k v).rsu.collecting = s.rsu.collecting := rfl
@[simp] theorem rsu_missedTicks_setHoist (k : Nat) (v : Hoist) :
    (s.setHoist k v).rsu.missedTicks = s.rsu.missedTicks := rfl
@[simp] theorem rsu_latest_setHoist (k : Nat) (v : Hoist) : (s.setHoist k v).rsu.latest = s.rsu.latest := rfl
@[simp] theorem clu_setHoist (k : Nat) (v : Hoist) : (s.setHoist k v).clu = s.clu := rfl
@[simp] theorem mvc_setHoist (k : Nat) (v : Hoist) : (s.setHoist k v).mvc = s.mvc := rfl
@[simp] theorem slc_setHoist (k : Nat) (v : Hoist) : (s.setHoist k v).slc = s.slc := rfl
@[simp] theorem ppn_setHoist (k : Nat) (v : Hoist) : (s.setHoist k v).ppn = s.ppn := rfl
@[simp] theorem pending_setHoist (k : Nat) (v : Hoist) : (s.setHoist k v).pending = s.pending := rfl
@[simp] theorem piece?_setHoist (k : Nat) (v : Hoist) (h : Handle) : (s.setHoist k v).piece? h = s.piece? h := rfl

/-! ## setCrane -/

@[simp] theorem crane_setCrane (k : Nat) (v : CraneClear) (j : Nat) : (s.setCrane k v).crane j =
    if j = k then v else s.crane j :=
  bankGet_bankSet _ _ _ _ _
@[simp] theorem record_setCrane (k : Nat) (v : CraneClear) (j : Nat) : (s.setCrane k v).record j = s.record j := rfl
@[simp] theorem slot_setCrane (k : Nat) (v : CraneClear) (j : Nat) : (s.setCrane k v).slot j = s.slot j := rfl
@[simp] theorem bed_setCrane (k : Nat) (v : CraneClear) (j : Nat) : (s.setCrane k v).bed j = s.bed j := rfl
@[simp] theorem hook_setCrane (k : Nat) (v : CraneClear) (j : Nat) : (s.setCrane k v).hook j = s.hook j := rfl
@[simp] theorem table_setCrane (k : Nat) (v : CraneClear) (j : Nat) : (s.setCrane k v).table j = s.table j := rfl
@[simp] theorem zone_setCrane (k : Nat) (v : CraneClear) (j : Nat) : (s.setCrane k v).zone j = s.zone j := rfl
@[simp] theorem marks_setCrane (k : Nat) (v : CraneClear) (j : Nat) : (s.setCrane k v).marks j = s.marks j := rfl
@[simp] theorem burn_setCrane (k : Nat) (v : CraneClear) (j : Nat) : (s.setCrane k v).burn j = s.burn j := rfl
@[simp] theorem grantHeld_setCrane (k : Nat) (v : CraneClear) (j : Nat) :
    (s.setCrane k v).grantHeld j = s.grantHeld j := rfl
@[simp] theorem monitor_setCrane (k : Nat) (v : CraneClear) (j : Nat) : (s.setCrane k v).monitor j = s.monitor j := rfl
@[simp] theorem torch_setCrane (k : Nat) (v : CraneClear) (j : Nat) : (s.setCrane k v).torch j = s.torch j := rfl
@[simp] theorem channel_setCrane (k : Nat) (v : CraneClear) (j : Nat) : (s.setCrane k v).channel j = s.channel j := rfl
@[simp] theorem axis_setCrane (k : Nat) (v : CraneClear) (j : Nat) : (s.setCrane k v).axis j = s.axis j := rfl
@[simp] theorem hoist_setCrane (k : Nat) (v : CraneClear) (j : Nat) : (s.setCrane k v).hoist j = s.hoist j := rfl
@[simp] theorem pair_setCrane (k : Nat) (v : CraneClear) (j : Nat) : (s.setCrane k v).pair j = s.pair j := rfl
@[simp] theorem intruders_setCrane (k : Nat) (v : CraneClear) (j : Nat) :
    (s.setCrane k v).intruders j = s.intruders j := rfl
@[simp] theorem queue_setCrane (k : Nat) (v : CraneClear) (j : Nat) : (s.setCrane k v).queue j = s.queue j := rfl
@[simp] theorem endedMove_setCrane (k : Nat) (v : CraneClear) (j : Nat) :
    (s.setCrane k v).endedMove j = s.endedMove j := rfl
@[simp] theorem station_setCrane (k : Nat) (v : CraneClear) (j : Nat) : (s.setCrane k v).station j = s.station j := rfl
@[simp] theorem notice_setCrane (k : Nat) (v : CraneClear) (j : Nat) : (s.setCrane k v).notice j = s.notice j := rfl
@[simp] theorem sampled_setCrane (k : Nat) (v : CraneClear) (j : Nat) : (s.setCrane k v).sampled j = s.sampled j := rfl
@[simp] theorem srg_setCrane (k : Nat) (v : CraneClear) : (s.setCrane k v).srg = s.srg := rfl
@[simp] theorem lmap_setCrane (k : Nat) (v : CraneClear) : (s.setCrane k v).lmap = s.lmap := rfl
@[simp] theorem fse_setCrane (k : Nat) (v : CraneClear) : (s.setCrane k v).fse = s.fse := rfl
@[simp] theorem tbc_setCrane (k : Nat) (v : CraneClear) : (s.setCrane k v).tbc = s.tbc := rfl
@[simp] theorem mkd_setCrane (k : Nat) (v : CraneClear) : (s.setCrane k v).mkd = s.mkd := rfl
@[simp] theorem bsv_setCrane (k : Nat) (v : CraneClear) : (s.setCrane k v).bsv = s.bsv := rfl
@[simp] theorem rsu_setCrane (k : Nat) (v : CraneClear) : (s.setCrane k v).rsu = s.rsu := rfl
@[simp] theorem clu_pairs_setCrane (k : Nat) (v : CraneClear) : (s.setCrane k v).clu.pairs = s.clu.pairs := rfl
@[simp] theorem clu_intruders_setCrane (k : Nat) (v : CraneClear) :
    (s.setCrane k v).clu.intruders = s.clu.intruders := rfl
@[simp] theorem clu_runway_setCrane (k : Nat) (v : CraneClear) : (s.setCrane k v).clu.runway = s.clu.runway := rfl
@[simp] theorem clu_runwayNext_setCrane (k : Nat) (v : CraneClear) :
    (s.setCrane k v).clu.runwayNext = s.clu.runwayNext := rfl
@[simp] theorem mvc_setCrane (k : Nat) (v : CraneClear) : (s.setCrane k v).mvc = s.mvc := rfl
@[simp] theorem slc_setCrane (k : Nat) (v : CraneClear) : (s.setCrane k v).slc = s.slc := rfl
@[simp] theorem ppn_setCrane (k : Nat) (v : CraneClear) : (s.setCrane k v).ppn = s.ppn := rfl
@[simp] theorem pending_setCrane (k : Nat) (v : CraneClear) : (s.setCrane k v).pending = s.pending := rfl
@[simp] theorem piece?_setCrane (k : Nat) (v : CraneClear) (h : Handle) : (s.setCrane k v).piece? h = s.piece? h := rfl

/-! ## setPair -/

@[simp] theorem pair_setPair (k : Nat) (v : Pair) (j : Nat) : (s.setPair k v).pair j = if j = k then v else s.pair j :=
  bankGet_bankSet _ _ _ _ _
@[simp] theorem record_setPair (k : Nat) (v : Pair) (j : Nat) : (s.setPair k v).record j = s.record j := rfl
@[simp] theorem slot_setPair (k : Nat) (v : Pair) (j : Nat) : (s.setPair k v).slot j = s.slot j := rfl
@[simp] theorem bed_setPair (k : Nat) (v : Pair) (j : Nat) : (s.setPair k v).bed j = s.bed j := rfl
@[simp] theorem hook_setPair (k : Nat) (v : Pair) (j : Nat) : (s.setPair k v).hook j = s.hook j := rfl
@[simp] theorem table_setPair (k : Nat) (v : Pair) (j : Nat) : (s.setPair k v).table j = s.table j := rfl
@[simp] theorem zone_setPair (k : Nat) (v : Pair) (j : Nat) : (s.setPair k v).zone j = s.zone j := rfl
@[simp] theorem marks_setPair (k : Nat) (v : Pair) (j : Nat) : (s.setPair k v).marks j = s.marks j := rfl
@[simp] theorem burn_setPair (k : Nat) (v : Pair) (j : Nat) : (s.setPair k v).burn j = s.burn j := rfl
@[simp] theorem grantHeld_setPair (k : Nat) (v : Pair) (j : Nat) : (s.setPair k v).grantHeld j = s.grantHeld j := rfl
@[simp] theorem monitor_setPair (k : Nat) (v : Pair) (j : Nat) : (s.setPair k v).monitor j = s.monitor j := rfl
@[simp] theorem torch_setPair (k : Nat) (v : Pair) (j : Nat) : (s.setPair k v).torch j = s.torch j := rfl
@[simp] theorem channel_setPair (k : Nat) (v : Pair) (j : Nat) : (s.setPair k v).channel j = s.channel j := rfl
@[simp] theorem axis_setPair (k : Nat) (v : Pair) (j : Nat) : (s.setPair k v).axis j = s.axis j := rfl
@[simp] theorem hoist_setPair (k : Nat) (v : Pair) (j : Nat) : (s.setPair k v).hoist j = s.hoist j := rfl
@[simp] theorem crane_setPair (k : Nat) (v : Pair) (j : Nat) : (s.setPair k v).crane j = s.crane j := rfl
@[simp] theorem intruders_setPair (k : Nat) (v : Pair) (j : Nat) : (s.setPair k v).intruders j = s.intruders j := rfl
@[simp] theorem queue_setPair (k : Nat) (v : Pair) (j : Nat) : (s.setPair k v).queue j = s.queue j := rfl
@[simp] theorem endedMove_setPair (k : Nat) (v : Pair) (j : Nat) : (s.setPair k v).endedMove j = s.endedMove j := rfl
@[simp] theorem station_setPair (k : Nat) (v : Pair) (j : Nat) : (s.setPair k v).station j = s.station j := rfl
@[simp] theorem notice_setPair (k : Nat) (v : Pair) (j : Nat) : (s.setPair k v).notice j = s.notice j := rfl
@[simp] theorem sampled_setPair (k : Nat) (v : Pair) (j : Nat) : (s.setPair k v).sampled j = s.sampled j := rfl
@[simp] theorem srg_setPair (k : Nat) (v : Pair) : (s.setPair k v).srg = s.srg := rfl
@[simp] theorem lmap_setPair (k : Nat) (v : Pair) : (s.setPair k v).lmap = s.lmap := rfl
@[simp] theorem fse_setPair (k : Nat) (v : Pair) : (s.setPair k v).fse = s.fse := rfl
@[simp] theorem tbc_setPair (k : Nat) (v : Pair) : (s.setPair k v).tbc = s.tbc := rfl
@[simp] theorem mkd_setPair (k : Nat) (v : Pair) : (s.setPair k v).mkd = s.mkd := rfl
@[simp] theorem bsv_setPair (k : Nat) (v : Pair) : (s.setPair k v).bsv = s.bsv := rfl
@[simp] theorem rsu_setPair (k : Nat) (v : Pair) : (s.setPair k v).rsu = s.rsu := rfl
@[simp] theorem clu_cranes_setPair (k : Nat) (v : Pair) : (s.setPair k v).clu.cranes = s.clu.cranes := rfl
@[simp] theorem clu_intruders_setPair (k : Nat) (v : Pair) : (s.setPair k v).clu.intruders = s.clu.intruders := rfl
@[simp] theorem clu_runway_setPair (k : Nat) (v : Pair) : (s.setPair k v).clu.runway = s.clu.runway := rfl
@[simp] theorem clu_runwayNext_setPair (k : Nat) (v : Pair) : (s.setPair k v).clu.runwayNext = s.clu.runwayNext := rfl
@[simp] theorem mvc_setPair (k : Nat) (v : Pair) : (s.setPair k v).mvc = s.mvc := rfl
@[simp] theorem slc_setPair (k : Nat) (v : Pair) : (s.setPair k v).slc = s.slc := rfl
@[simp] theorem ppn_setPair (k : Nat) (v : Pair) : (s.setPair k v).ppn = s.ppn := rfl
@[simp] theorem pending_setPair (k : Nat) (v : Pair) : (s.setPair k v).pending = s.pending := rfl
@[simp] theorem piece?_setPair (k : Nat) (v : Pair) (h : Handle) : (s.setPair k v).piece? h = s.piece? h := rfl

/-! ## setIntruders -/

@[simp] theorem intruders_setIntruders (k : Nat) (v : List Nat) (j : Nat) : (s.setIntruders k v).intruders j =
    if j = k then v else s.intruders j :=
  bankGet_bankSet _ _ _ _ _
@[simp] theorem record_setIntruders (k : Nat) (v : List Nat) (j : Nat) :
    (s.setIntruders k v).record j = s.record j := rfl
@[simp] theorem slot_setIntruders (k : Nat) (v : List Nat) (j : Nat) : (s.setIntruders k v).slot j = s.slot j := rfl
@[simp] theorem bed_setIntruders (k : Nat) (v : List Nat) (j : Nat) : (s.setIntruders k v).bed j = s.bed j := rfl
@[simp] theorem hook_setIntruders (k : Nat) (v : List Nat) (j : Nat) : (s.setIntruders k v).hook j = s.hook j := rfl
@[simp] theorem table_setIntruders (k : Nat) (v : List Nat) (j : Nat) : (s.setIntruders k v).table j = s.table j := rfl
@[simp] theorem zone_setIntruders (k : Nat) (v : List Nat) (j : Nat) : (s.setIntruders k v).zone j = s.zone j := rfl
@[simp] theorem marks_setIntruders (k : Nat) (v : List Nat) (j : Nat) : (s.setIntruders k v).marks j = s.marks j := rfl
@[simp] theorem burn_setIntruders (k : Nat) (v : List Nat) (j : Nat) : (s.setIntruders k v).burn j = s.burn j := rfl
@[simp] theorem grantHeld_setIntruders (k : Nat) (v : List Nat) (j : Nat) :
    (s.setIntruders k v).grantHeld j = s.grantHeld j := rfl
@[simp] theorem monitor_setIntruders (k : Nat) (v : List Nat) (j : Nat) :
    (s.setIntruders k v).monitor j = s.monitor j := rfl
@[simp] theorem torch_setIntruders (k : Nat) (v : List Nat) (j : Nat) : (s.setIntruders k v).torch j = s.torch j := rfl
@[simp] theorem channel_setIntruders (k : Nat) (v : List Nat) (j : Nat) :
    (s.setIntruders k v).channel j = s.channel j := rfl
@[simp] theorem axis_setIntruders (k : Nat) (v : List Nat) (j : Nat) : (s.setIntruders k v).axis j = s.axis j := rfl
@[simp] theorem hoist_setIntruders (k : Nat) (v : List Nat) (j : Nat) : (s.setIntruders k v).hoist j = s.hoist j := rfl
@[simp] theorem crane_setIntruders (k : Nat) (v : List Nat) (j : Nat) : (s.setIntruders k v).crane j = s.crane j := rfl
@[simp] theorem pair_setIntruders (k : Nat) (v : List Nat) (j : Nat) : (s.setIntruders k v).pair j = s.pair j := rfl
@[simp] theorem queue_setIntruders (k : Nat) (v : List Nat) (j : Nat) : (s.setIntruders k v).queue j = s.queue j := rfl
@[simp] theorem endedMove_setIntruders (k : Nat) (v : List Nat) (j : Nat) :
    (s.setIntruders k v).endedMove j = s.endedMove j := rfl
@[simp] theorem station_setIntruders (k : Nat) (v : List Nat) (j : Nat) :
    (s.setIntruders k v).station j = s.station j := rfl
@[simp] theorem notice_setIntruders (k : Nat) (v : List Nat) (j : Nat) :
    (s.setIntruders k v).notice j = s.notice j := rfl
@[simp] theorem sampled_setIntruders (k : Nat) (v : List Nat) (j : Nat) :
    (s.setIntruders k v).sampled j = s.sampled j := rfl
@[simp] theorem srg_setIntruders (k : Nat) (v : List Nat) : (s.setIntruders k v).srg = s.srg := rfl
@[simp] theorem lmap_setIntruders (k : Nat) (v : List Nat) : (s.setIntruders k v).lmap = s.lmap := rfl
@[simp] theorem fse_setIntruders (k : Nat) (v : List Nat) : (s.setIntruders k v).fse = s.fse := rfl
@[simp] theorem tbc_setIntruders (k : Nat) (v : List Nat) : (s.setIntruders k v).tbc = s.tbc := rfl
@[simp] theorem mkd_setIntruders (k : Nat) (v : List Nat) : (s.setIntruders k v).mkd = s.mkd := rfl
@[simp] theorem bsv_setIntruders (k : Nat) (v : List Nat) : (s.setIntruders k v).bsv = s.bsv := rfl
@[simp] theorem rsu_setIntruders (k : Nat) (v : List Nat) : (s.setIntruders k v).rsu = s.rsu := rfl
@[simp] theorem clu_cranes_setIntruders (k : Nat) (v : List Nat) : (s.setIntruders k v).clu.cranes = s.clu.cranes := rfl
@[simp] theorem clu_pairs_setIntruders (k : Nat) (v : List Nat) : (s.setIntruders k v).clu.pairs = s.clu.pairs := rfl
@[simp] theorem clu_runway_setIntruders (k : Nat) (v : List Nat) : (s.setIntruders k v).clu.runway = s.clu.runway := rfl
@[simp] theorem clu_runwayNext_setIntruders (k : Nat) (v : List Nat) :
    (s.setIntruders k v).clu.runwayNext = s.clu.runwayNext := rfl
@[simp] theorem mvc_setIntruders (k : Nat) (v : List Nat) : (s.setIntruders k v).mvc = s.mvc := rfl
@[simp] theorem slc_setIntruders (k : Nat) (v : List Nat) : (s.setIntruders k v).slc = s.slc := rfl
@[simp] theorem ppn_setIntruders (k : Nat) (v : List Nat) : (s.setIntruders k v).ppn = s.ppn := rfl
@[simp] theorem pending_setIntruders (k : Nat) (v : List Nat) : (s.setIntruders k v).pending = s.pending := rfl
@[simp] theorem piece?_setIntruders (k : Nat) (v : List Nat) (h : Handle) :
    (s.setIntruders k v).piece? h = s.piece? h := rfl

/-! ## setQueue -/

@[simp] theorem queue_setQueue (k : Nat) (v : List Move) (j : Nat) : (s.setQueue k v).queue j =
    if j = k then v else s.queue j :=
  bankGet_bankSet _ _ _ _ _
@[simp] theorem record_setQueue (k : Nat) (v : List Move) (j : Nat) : (s.setQueue k v).record j = s.record j := rfl
@[simp] theorem slot_setQueue (k : Nat) (v : List Move) (j : Nat) : (s.setQueue k v).slot j = s.slot j := rfl
@[simp] theorem bed_setQueue (k : Nat) (v : List Move) (j : Nat) : (s.setQueue k v).bed j = s.bed j := rfl
@[simp] theorem hook_setQueue (k : Nat) (v : List Move) (j : Nat) : (s.setQueue k v).hook j = s.hook j := rfl
@[simp] theorem table_setQueue (k : Nat) (v : List Move) (j : Nat) : (s.setQueue k v).table j = s.table j := rfl
@[simp] theorem zone_setQueue (k : Nat) (v : List Move) (j : Nat) : (s.setQueue k v).zone j = s.zone j := rfl
@[simp] theorem marks_setQueue (k : Nat) (v : List Move) (j : Nat) : (s.setQueue k v).marks j = s.marks j := rfl
@[simp] theorem burn_setQueue (k : Nat) (v : List Move) (j : Nat) : (s.setQueue k v).burn j = s.burn j := rfl
@[simp] theorem grantHeld_setQueue (k : Nat) (v : List Move) (j : Nat) :
    (s.setQueue k v).grantHeld j = s.grantHeld j := rfl
@[simp] theorem monitor_setQueue (k : Nat) (v : List Move) (j : Nat) : (s.setQueue k v).monitor j = s.monitor j := rfl
@[simp] theorem torch_setQueue (k : Nat) (v : List Move) (j : Nat) : (s.setQueue k v).torch j = s.torch j := rfl
@[simp] theorem channel_setQueue (k : Nat) (v : List Move) (j : Nat) : (s.setQueue k v).channel j = s.channel j := rfl
@[simp] theorem axis_setQueue (k : Nat) (v : List Move) (j : Nat) : (s.setQueue k v).axis j = s.axis j := rfl
@[simp] theorem hoist_setQueue (k : Nat) (v : List Move) (j : Nat) : (s.setQueue k v).hoist j = s.hoist j := rfl
@[simp] theorem crane_setQueue (k : Nat) (v : List Move) (j : Nat) : (s.setQueue k v).crane j = s.crane j := rfl
@[simp] theorem pair_setQueue (k : Nat) (v : List Move) (j : Nat) : (s.setQueue k v).pair j = s.pair j := rfl
@[simp] theorem intruders_setQueue (k : Nat) (v : List Move) (j : Nat) :
    (s.setQueue k v).intruders j = s.intruders j := rfl
@[simp] theorem endedMove_setQueue (k : Nat) (v : List Move) (j : Nat) :
    (s.setQueue k v).endedMove j = s.endedMove j := rfl
@[simp] theorem station_setQueue (k : Nat) (v : List Move) (j : Nat) : (s.setQueue k v).station j = s.station j := rfl
@[simp] theorem notice_setQueue (k : Nat) (v : List Move) (j : Nat) : (s.setQueue k v).notice j = s.notice j := rfl
@[simp] theorem sampled_setQueue (k : Nat) (v : List Move) (j : Nat) : (s.setQueue k v).sampled j = s.sampled j := rfl
@[simp] theorem srg_setQueue (k : Nat) (v : List Move) : (s.setQueue k v).srg = s.srg := rfl
@[simp] theorem lmap_setQueue (k : Nat) (v : List Move) : (s.setQueue k v).lmap = s.lmap := rfl
@[simp] theorem fse_setQueue (k : Nat) (v : List Move) : (s.setQueue k v).fse = s.fse := rfl
@[simp] theorem tbc_setQueue (k : Nat) (v : List Move) : (s.setQueue k v).tbc = s.tbc := rfl
@[simp] theorem mkd_setQueue (k : Nat) (v : List Move) : (s.setQueue k v).mkd = s.mkd := rfl
@[simp] theorem bsv_setQueue (k : Nat) (v : List Move) : (s.setQueue k v).bsv = s.bsv := rfl
@[simp] theorem rsu_setQueue (k : Nat) (v : List Move) : (s.setQueue k v).rsu = s.rsu := rfl
@[simp] theorem clu_setQueue (k : Nat) (v : List Move) : (s.setQueue k v).clu = s.clu := rfl
@[simp] theorem mvc_ended_setQueue (k : Nat) (v : List Move) : (s.setQueue k v).mvc.ended = s.mvc.ended := rfl
@[simp] theorem mvc_nextId_setQueue (k : Nat) (v : List Move) : (s.setQueue k v).mvc.nextId = s.mvc.nextId := rfl
@[simp] theorem slc_setQueue (k : Nat) (v : List Move) : (s.setQueue k v).slc = s.slc := rfl
@[simp] theorem ppn_setQueue (k : Nat) (v : List Move) : (s.setQueue k v).ppn = s.ppn := rfl
@[simp] theorem pending_setQueue (k : Nat) (v : List Move) : (s.setQueue k v).pending = s.pending := rfl
@[simp] theorem piece?_setQueue (k : Nat) (v : List Move) (h : Handle) : (s.setQueue k v).piece? h = s.piece? h := rfl

/-! ## setEndedMove -/

@[simp] theorem endedMove_setEndedMove (k : Nat) (v : Option EndedMove) (j : Nat) : (s.setEndedMove k v).endedMove j =
    if j = k then v else s.endedMove j :=
  bankGet_bankSet _ _ _ _ _
@[simp] theorem record_setEndedMove (k : Nat) (v : Option EndedMove) (j : Nat) :
    (s.setEndedMove k v).record j = s.record j := rfl
@[simp] theorem slot_setEndedMove (k : Nat) (v : Option EndedMove) (j : Nat) :
    (s.setEndedMove k v).slot j = s.slot j := rfl
@[simp] theorem bed_setEndedMove (k : Nat) (v : Option EndedMove) (j : Nat) :
    (s.setEndedMove k v).bed j = s.bed j := rfl
@[simp] theorem hook_setEndedMove (k : Nat) (v : Option EndedMove) (j : Nat) :
    (s.setEndedMove k v).hook j = s.hook j := rfl
@[simp] theorem table_setEndedMove (k : Nat) (v : Option EndedMove) (j : Nat) :
    (s.setEndedMove k v).table j = s.table j := rfl
@[simp] theorem zone_setEndedMove (k : Nat) (v : Option EndedMove) (j : Nat) :
    (s.setEndedMove k v).zone j = s.zone j := rfl
@[simp] theorem marks_setEndedMove (k : Nat) (v : Option EndedMove) (j : Nat) :
    (s.setEndedMove k v).marks j = s.marks j := rfl
@[simp] theorem burn_setEndedMove (k : Nat) (v : Option EndedMove) (j : Nat) :
    (s.setEndedMove k v).burn j = s.burn j := rfl
@[simp] theorem grantHeld_setEndedMove (k : Nat) (v : Option EndedMove) (j : Nat) :
    (s.setEndedMove k v).grantHeld j = s.grantHeld j := rfl
@[simp] theorem monitor_setEndedMove (k : Nat) (v : Option EndedMove) (j : Nat) :
    (s.setEndedMove k v).monitor j = s.monitor j := rfl
@[simp] theorem torch_setEndedMove (k : Nat) (v : Option EndedMove) (j : Nat) :
    (s.setEndedMove k v).torch j = s.torch j := rfl
@[simp] theorem channel_setEndedMove (k : Nat) (v : Option EndedMove) (j : Nat) :
    (s.setEndedMove k v).channel j = s.channel j := rfl
@[simp] theorem axis_setEndedMove (k : Nat) (v : Option EndedMove) (j : Nat) :
    (s.setEndedMove k v).axis j = s.axis j := rfl
@[simp] theorem hoist_setEndedMove (k : Nat) (v : Option EndedMove) (j : Nat) :
    (s.setEndedMove k v).hoist j = s.hoist j := rfl
@[simp] theorem crane_setEndedMove (k : Nat) (v : Option EndedMove) (j : Nat) :
    (s.setEndedMove k v).crane j = s.crane j := rfl
@[simp] theorem pair_setEndedMove (k : Nat) (v : Option EndedMove) (j : Nat) :
    (s.setEndedMove k v).pair j = s.pair j := rfl
@[simp] theorem intruders_setEndedMove (k : Nat) (v : Option EndedMove) (j : Nat) :
    (s.setEndedMove k v).intruders j = s.intruders j := rfl
@[simp] theorem queue_setEndedMove (k : Nat) (v : Option EndedMove) (j : Nat) :
    (s.setEndedMove k v).queue j = s.queue j := rfl
@[simp] theorem station_setEndedMove (k : Nat) (v : Option EndedMove) (j : Nat) :
    (s.setEndedMove k v).station j = s.station j := rfl
@[simp] theorem notice_setEndedMove (k : Nat) (v : Option EndedMove) (j : Nat) :
    (s.setEndedMove k v).notice j = s.notice j := rfl
@[simp] theorem sampled_setEndedMove (k : Nat) (v : Option EndedMove) (j : Nat) :
    (s.setEndedMove k v).sampled j = s.sampled j := rfl
@[simp] theorem srg_setEndedMove (k : Nat) (v : Option EndedMove) : (s.setEndedMove k v).srg = s.srg := rfl
@[simp] theorem lmap_setEndedMove (k : Nat) (v : Option EndedMove) : (s.setEndedMove k v).lmap = s.lmap := rfl
@[simp] theorem fse_setEndedMove (k : Nat) (v : Option EndedMove) : (s.setEndedMove k v).fse = s.fse := rfl
@[simp] theorem tbc_setEndedMove (k : Nat) (v : Option EndedMove) : (s.setEndedMove k v).tbc = s.tbc := rfl
@[simp] theorem mkd_setEndedMove (k : Nat) (v : Option EndedMove) : (s.setEndedMove k v).mkd = s.mkd := rfl
@[simp] theorem bsv_setEndedMove (k : Nat) (v : Option EndedMove) : (s.setEndedMove k v).bsv = s.bsv := rfl
@[simp] theorem rsu_setEndedMove (k : Nat) (v : Option EndedMove) : (s.setEndedMove k v).rsu = s.rsu := rfl
@[simp] theorem clu_setEndedMove (k : Nat) (v : Option EndedMove) : (s.setEndedMove k v).clu = s.clu := rfl
@[simp] theorem mvc_queues_setEndedMove (k : Nat) (v : Option EndedMove) :
    (s.setEndedMove k v).mvc.queues = s.mvc.queues := rfl
@[simp] theorem mvc_nextId_setEndedMove (k : Nat) (v : Option EndedMove) :
    (s.setEndedMove k v).mvc.nextId = s.mvc.nextId := rfl
@[simp] theorem slc_setEndedMove (k : Nat) (v : Option EndedMove) : (s.setEndedMove k v).slc = s.slc := rfl
@[simp] theorem ppn_setEndedMove (k : Nat) (v : Option EndedMove) : (s.setEndedMove k v).ppn = s.ppn := rfl
@[simp] theorem pending_setEndedMove (k : Nat) (v : Option EndedMove) : (s.setEndedMove k v).pending = s.pending := rfl
@[simp] theorem piece?_setEndedMove (k : Nat) (v : Option EndedMove) (h : Handle) :
    (s.setEndedMove k v).piece? h = s.piece? h := rfl

/-! ## setStation -/

@[simp] theorem station_setStation (k : Nat) (v : Station) (j : Nat) : (s.setStation k v).station j =
    if j = k then v else s.station j :=
  bankGet_bankSet _ _ _ _ _
@[simp] theorem record_setStation (k : Nat) (v : Station) (j : Nat) : (s.setStation k v).record j = s.record j := rfl
@[simp] theorem slot_setStation (k : Nat) (v : Station) (j : Nat) : (s.setStation k v).slot j = s.slot j := rfl
@[simp] theorem bed_setStation (k : Nat) (v : Station) (j : Nat) : (s.setStation k v).bed j = s.bed j := rfl
@[simp] theorem hook_setStation (k : Nat) (v : Station) (j : Nat) : (s.setStation k v).hook j = s.hook j := rfl
@[simp] theorem table_setStation (k : Nat) (v : Station) (j : Nat) : (s.setStation k v).table j = s.table j := rfl
@[simp] theorem zone_setStation (k : Nat) (v : Station) (j : Nat) : (s.setStation k v).zone j = s.zone j := rfl
@[simp] theorem marks_setStation (k : Nat) (v : Station) (j : Nat) : (s.setStation k v).marks j = s.marks j := rfl
@[simp] theorem burn_setStation (k : Nat) (v : Station) (j : Nat) : (s.setStation k v).burn j = s.burn j := rfl
@[simp] theorem grantHeld_setStation (k : Nat) (v : Station) (j : Nat) :
    (s.setStation k v).grantHeld j = s.grantHeld j := rfl
@[simp] theorem monitor_setStation (k : Nat) (v : Station) (j : Nat) : (s.setStation k v).monitor j = s.monitor j := rfl
@[simp] theorem torch_setStation (k : Nat) (v : Station) (j : Nat) : (s.setStation k v).torch j = s.torch j := rfl
@[simp] theorem channel_setStation (k : Nat) (v : Station) (j : Nat) : (s.setStation k v).channel j = s.channel j := rfl
@[simp] theorem axis_setStation (k : Nat) (v : Station) (j : Nat) : (s.setStation k v).axis j = s.axis j := rfl
@[simp] theorem hoist_setStation (k : Nat) (v : Station) (j : Nat) : (s.setStation k v).hoist j = s.hoist j := rfl
@[simp] theorem crane_setStation (k : Nat) (v : Station) (j : Nat) : (s.setStation k v).crane j = s.crane j := rfl
@[simp] theorem pair_setStation (k : Nat) (v : Station) (j : Nat) : (s.setStation k v).pair j = s.pair j := rfl
@[simp] theorem intruders_setStation (k : Nat) (v : Station) (j : Nat) :
    (s.setStation k v).intruders j = s.intruders j := rfl
@[simp] theorem queue_setStation (k : Nat) (v : Station) (j : Nat) : (s.setStation k v).queue j = s.queue j := rfl
@[simp] theorem endedMove_setStation (k : Nat) (v : Station) (j : Nat) :
    (s.setStation k v).endedMove j = s.endedMove j := rfl
@[simp] theorem notice_setStation (k : Nat) (v : Station) (j : Nat) : (s.setStation k v).notice j = s.notice j := rfl
@[simp] theorem sampled_setStation (k : Nat) (v : Station) (j : Nat) : (s.setStation k v).sampled j = s.sampled j := rfl
@[simp] theorem srg_setStation (k : Nat) (v : Station) : (s.setStation k v).srg = s.srg := rfl
@[simp] theorem lmap_setStation (k : Nat) (v : Station) : (s.setStation k v).lmap = s.lmap := rfl
@[simp] theorem fse_setStation (k : Nat) (v : Station) : (s.setStation k v).fse = s.fse := rfl
@[simp] theorem tbc_setStation (k : Nat) (v : Station) : (s.setStation k v).tbc = s.tbc := rfl
@[simp] theorem mkd_setStation (k : Nat) (v : Station) : (s.setStation k v).mkd = s.mkd := rfl
@[simp] theorem bsv_setStation (k : Nat) (v : Station) : (s.setStation k v).bsv = s.bsv := rfl
@[simp] theorem rsu_setStation (k : Nat) (v : Station) : (s.setStation k v).rsu = s.rsu := rfl
@[simp] theorem clu_setStation (k : Nat) (v : Station) : (s.setStation k v).clu = s.clu := rfl
@[simp] theorem mvc_setStation (k : Nat) (v : Station) : (s.setStation k v).mvc = s.mvc := rfl
@[simp] theorem slc_pollList_setStation (k : Nat) (v : Station) :
    (s.setStation k v).slc.pollList = s.slc.pollList := rfl
@[simp] theorem slc_cursor_setStation (k : Nat) (v : Station) : (s.setStation k v).slc.cursor = s.slc.cursor := rfl
@[simp] theorem slc_bitRate_setStation (k : Nat) (v : Station) : (s.setStation k v).slc.bitRate = s.slc.bitRate := rfl
@[simp] theorem slc_window_setStation (k : Nat) (v : Station) : (s.setStation k v).slc.window = s.slc.window := rfl
@[simp] theorem slc_waiting_setStation (k : Nat) (v : Station) : (s.setStation k v).slc.waiting = s.slc.waiting := rfl
@[simp] theorem slc_turn_setStation (k : Nat) (v : Station) : (s.setStation k v).slc.turn = s.slc.turn := rfl
@[simp] theorem ppn_setStation (k : Nat) (v : Station) : (s.setStation k v).ppn = s.ppn := rfl
@[simp] theorem pending_setStation (k : Nat) (v : Station) : (s.setStation k v).pending = s.pending := rfl
@[simp] theorem piece?_setStation (k : Nat) (v : Station) (h : Handle) : (s.setStation k v).piece? h = s.piece? h := rfl

/-! ## setNotice -/

@[simp] theorem notice_setNotice (k : Nat) (v : Option Bool) (j : Nat) : (s.setNotice k v).notice j =
    if j = k then v else s.notice j :=
  bankGet_bankSet _ _ _ _ _
@[simp] theorem record_setNotice (k : Nat) (v : Option Bool) (j : Nat) : (s.setNotice k v).record j = s.record j := rfl
@[simp] theorem slot_setNotice (k : Nat) (v : Option Bool) (j : Nat) : (s.setNotice k v).slot j = s.slot j := rfl
@[simp] theorem bed_setNotice (k : Nat) (v : Option Bool) (j : Nat) : (s.setNotice k v).bed j = s.bed j := rfl
@[simp] theorem hook_setNotice (k : Nat) (v : Option Bool) (j : Nat) : (s.setNotice k v).hook j = s.hook j := rfl
@[simp] theorem table_setNotice (k : Nat) (v : Option Bool) (j : Nat) : (s.setNotice k v).table j = s.table j := rfl
@[simp] theorem zone_setNotice (k : Nat) (v : Option Bool) (j : Nat) : (s.setNotice k v).zone j = s.zone j := rfl
@[simp] theorem marks_setNotice (k : Nat) (v : Option Bool) (j : Nat) : (s.setNotice k v).marks j = s.marks j := rfl
@[simp] theorem burn_setNotice (k : Nat) (v : Option Bool) (j : Nat) : (s.setNotice k v).burn j = s.burn j := rfl
@[simp] theorem grantHeld_setNotice (k : Nat) (v : Option Bool) (j : Nat) :
    (s.setNotice k v).grantHeld j = s.grantHeld j := rfl
@[simp] theorem monitor_setNotice (k : Nat) (v : Option Bool) (j : Nat) :
    (s.setNotice k v).monitor j = s.monitor j := rfl
@[simp] theorem torch_setNotice (k : Nat) (v : Option Bool) (j : Nat) : (s.setNotice k v).torch j = s.torch j := rfl
@[simp] theorem channel_setNotice (k : Nat) (v : Option Bool) (j : Nat) :
    (s.setNotice k v).channel j = s.channel j := rfl
@[simp] theorem axis_setNotice (k : Nat) (v : Option Bool) (j : Nat) : (s.setNotice k v).axis j = s.axis j := rfl
@[simp] theorem hoist_setNotice (k : Nat) (v : Option Bool) (j : Nat) : (s.setNotice k v).hoist j = s.hoist j := rfl
@[simp] theorem crane_setNotice (k : Nat) (v : Option Bool) (j : Nat) : (s.setNotice k v).crane j = s.crane j := rfl
@[simp] theorem pair_setNotice (k : Nat) (v : Option Bool) (j : Nat) : (s.setNotice k v).pair j = s.pair j := rfl
@[simp] theorem intruders_setNotice (k : Nat) (v : Option Bool) (j : Nat) :
    (s.setNotice k v).intruders j = s.intruders j := rfl
@[simp] theorem queue_setNotice (k : Nat) (v : Option Bool) (j : Nat) : (s.setNotice k v).queue j = s.queue j := rfl
@[simp] theorem endedMove_setNotice (k : Nat) (v : Option Bool) (j : Nat) :
    (s.setNotice k v).endedMove j = s.endedMove j := rfl
@[simp] theorem station_setNotice (k : Nat) (v : Option Bool) (j : Nat) :
    (s.setNotice k v).station j = s.station j := rfl
@[simp] theorem sampled_setNotice (k : Nat) (v : Option Bool) (j : Nat) :
    (s.setNotice k v).sampled j = s.sampled j := rfl
@[simp] theorem srg_setNotice (k : Nat) (v : Option Bool) : (s.setNotice k v).srg = s.srg := rfl
@[simp] theorem lmap_setNotice (k : Nat) (v : Option Bool) : (s.setNotice k v).lmap = s.lmap := rfl
@[simp] theorem fse_setNotice (k : Nat) (v : Option Bool) : (s.setNotice k v).fse = s.fse := rfl
@[simp] theorem tbc_setNotice (k : Nat) (v : Option Bool) : (s.setNotice k v).tbc = s.tbc := rfl
@[simp] theorem mkd_setNotice (k : Nat) (v : Option Bool) : (s.setNotice k v).mkd = s.mkd := rfl
@[simp] theorem bsv_setNotice (k : Nat) (v : Option Bool) : (s.setNotice k v).bsv = s.bsv := rfl
@[simp] theorem rsu_setNotice (k : Nat) (v : Option Bool) : (s.setNotice k v).rsu = s.rsu := rfl
@[simp] theorem clu_setNotice (k : Nat) (v : Option Bool) : (s.setNotice k v).clu = s.clu := rfl
@[simp] theorem mvc_setNotice (k : Nat) (v : Option Bool) : (s.setNotice k v).mvc = s.mvc := rfl
@[simp] theorem slc_setNotice (k : Nat) (v : Option Bool) : (s.setNotice k v).slc = s.slc := rfl
@[simp] theorem ppn_reply_setNotice (k : Nat) (v : Option Bool) : (s.setNotice k v).ppn.reply = s.ppn.reply := rfl
@[simp] theorem ppn_mask_setNotice (k : Nat) (v : Option Bool) : (s.setNotice k v).ppn.mask = s.ppn.mask := rfl
@[simp] theorem ppn_mode_setNotice (k : Nat) (v : Option Bool) : (s.setNotice k v).ppn.mode = s.ppn.mode := rfl
@[simp] theorem ppn_stopInput_setNotice (k : Nat) (v : Option Bool) :
    (s.setNotice k v).ppn.stopInput = s.ppn.stopInput := rfl
@[simp] theorem pending_setNotice (k : Nat) (v : Option Bool) : (s.setNotice k v).pending = s.pending := rfl
@[simp] theorem piece?_setNotice (k : Nat) (v : Option Bool) (h : Handle) :
    (s.setNotice k v).piece? h = s.piece? h := rfl

end Sys2Proof.Machine.State
end

