-- ==== Sys2Proof/Laws/Frame.lean ====
section
/-! SUPPORT. What each shared operation leaves alone: the blocks it does not touch, the fields of the touched blocks that
it does not write, and every record kept there. -/

namespace Sys2Proof.Machine

set_option linter.unusedSimpArgs false

variable (s : State)

/-! ## raise -/

@[simp] theorem srg_raise (u : NoticeUnit) (k : NoticeKind) : (raise s u k).srg = s.srg := rfl
@[simp] theorem lmap_raise (u : NoticeUnit) (k : NoticeKind) : (raise s u k).lmap = s.lmap := rfl
@[simp] theorem fse_raise (u : NoticeUnit) (k : NoticeKind) : (raise s u k).fse = s.fse := rfl
@[simp] theorem tbc_raise (u : NoticeUnit) (k : NoticeKind) : (raise s u k).tbc = s.tbc := rfl
@[simp] theorem mkd_raise (u : NoticeUnit) (k : NoticeKind) : (raise s u k).mkd = s.mkd := rfl
@[simp] theorem bsv_raise (u : NoticeUnit) (k : NoticeKind) : (raise s u k).bsv = s.bsv := rfl
@[simp] theorem rsu_raise (u : NoticeUnit) (k : NoticeKind) : (raise s u k).rsu = s.rsu := rfl
@[simp] theorem clu_raise (u : NoticeUnit) (k : NoticeKind) : (raise s u k).clu = s.clu := rfl
@[simp] theorem mvc_raise (u : NoticeUnit) (k : NoticeKind) : (raise s u k).mvc = s.mvc := rfl
@[simp] theorem slc_raise (u : NoticeUnit) (k : NoticeKind) : (raise s u k).slc = s.slc := rfl
@[simp] theorem pending_raise (u : NoticeUnit) (k : NoticeKind) : (raise s u k).pending = s.pending := rfl
@[simp] theorem ppn_reply_raise (u : NoticeUnit) (k : NoticeKind) : (raise s u k).ppn.reply = s.ppn.reply := rfl
@[simp] theorem ppn_mask_raise (u : NoticeUnit) (k : NoticeKind) : (raise s u k).ppn.mask = s.ppn.mask := rfl
@[simp] theorem ppn_mode_raise (u : NoticeUnit) (k : NoticeKind) : (raise s u k).ppn.mode = s.ppn.mode := rfl
@[simp] theorem ppn_stopInput_raise (u : NoticeUnit) (k : NoticeKind) :
    (raise s u k).ppn.stopInput = s.ppn.stopInput :=
    rfl
@[simp] theorem record_raise (u : NoticeUnit) (k : NoticeKind) (j : Nat) : (raise s u k).record j = s.record j := rfl
@[simp] theorem slot_raise (u : NoticeUnit) (k : NoticeKind) (j : Nat) : (raise s u k).slot j = s.slot j := rfl
@[simp] theorem bed_raise (u : NoticeUnit) (k : NoticeKind) (j : Nat) : (raise s u k).bed j = s.bed j := rfl
@[simp] theorem hook_raise (u : NoticeUnit) (k : NoticeKind) (j : Nat) : (raise s u k).hook j = s.hook j := rfl
@[simp] theorem table_raise (u : NoticeUnit) (k : NoticeKind) (j : Nat) : (raise s u k).table j = s.table j := rfl
@[simp] theorem zone_raise (u : NoticeUnit) (k : NoticeKind) (j : Nat) : (raise s u k).zone j = s.zone j := rfl
@[simp] theorem marks_raise (u : NoticeUnit) (k : NoticeKind) (j : Nat) : (raise s u k).marks j = s.marks j := rfl
@[simp] theorem burn_raise (u : NoticeUnit) (k : NoticeKind) (j : Nat) : (raise s u k).burn j = s.burn j := rfl
@[simp] theorem grantHeld_raise (u : NoticeUnit) (k : NoticeKind) (j : Nat) :
    (raise s u k).grantHeld j = s.grantHeld j :=
    rfl
@[simp] theorem monitor_raise (u : NoticeUnit) (k : NoticeKind) (j : Nat) :
    (raise s u k).monitor j = s.monitor j :=
    rfl
@[simp] theorem torch_raise (u : NoticeUnit) (k : NoticeKind) (j : Nat) : (raise s u k).torch j = s.torch j := rfl
@[simp] theorem channel_raise (u : NoticeUnit) (k : NoticeKind) (j : Nat) :
    (raise s u k).channel j = s.channel j :=
    rfl
@[simp] theorem axis_raise (u : NoticeUnit) (k : NoticeKind) (j : Nat) : (raise s u k).axis j = s.axis j := rfl
@[simp] theorem hoist_raise (u : NoticeUnit) (k : NoticeKind) (j : Nat) : (raise s u k).hoist j = s.hoist j := rfl
@[simp] theorem crane_raise (u : NoticeUnit) (k : NoticeKind) (j : Nat) : (raise s u k).crane j = s.crane j := rfl
@[simp] theorem pair_raise (u : NoticeUnit) (k : NoticeKind) (j : Nat) : (raise s u k).pair j = s.pair j := rfl
@[simp] theorem intruders_raise (u : NoticeUnit) (k : NoticeKind) (j : Nat) :
    (raise s u k).intruders j = s.intruders j :=
    rfl
@[simp] theorem queue_raise (u : NoticeUnit) (k : NoticeKind) (j : Nat) : (raise s u k).queue j = s.queue j := rfl
@[simp] theorem endedMove_raise (u : NoticeUnit) (k : NoticeKind) (j : Nat) :
    (raise s u k).endedMove j = s.endedMove j :=
    rfl
@[simp] theorem station_raise (u : NoticeUnit) (k : NoticeKind) (j : Nat) :
    (raise s u k).station j = s.station j :=
    rfl
@[simp] theorem sampled_raise (u : NoticeUnit) (k : NoticeKind) (j : Nat) :
    (raise s u k).sampled j = s.sampled j :=
    rfl
@[simp] theorem piece?_raise (u : NoticeUnit) (k : NoticeKind) (x : Handle) :
    (raise s u k).piece? x = s.piece? x :=
    rfl

/-! ## unitRead -/

@[simp] theorem srg_unitRead (u : NoticeUnit) : (unitRead s u).srg = s.srg := rfl
@[simp] theorem lmap_unitRead (u : NoticeUnit) : (unitRead s u).lmap = s.lmap := rfl
@[simp] theorem fse_unitRead (u : NoticeUnit) : (unitRead s u).fse = s.fse := rfl
@[simp] theorem tbc_unitRead (u : NoticeUnit) : (unitRead s u).tbc = s.tbc := rfl
@[simp] theorem mkd_unitRead (u : NoticeUnit) : (unitRead s u).mkd = s.mkd := rfl
@[simp] theorem bsv_unitRead (u : NoticeUnit) : (unitRead s u).bsv = s.bsv := rfl
@[simp] theorem rsu_unitRead (u : NoticeUnit) : (unitRead s u).rsu = s.rsu := rfl
@[simp] theorem clu_unitRead (u : NoticeUnit) : (unitRead s u).clu = s.clu := rfl
@[simp] theorem mvc_unitRead (u : NoticeUnit) : (unitRead s u).mvc = s.mvc := rfl
@[simp] theorem slc_unitRead (u : NoticeUnit) : (unitRead s u).slc = s.slc := rfl
@[simp] theorem pending_unitRead (u : NoticeUnit) : (unitRead s u).pending = s.pending := rfl
@[simp] theorem ppn_reply_unitRead (u : NoticeUnit) : (unitRead s u).ppn.reply = s.ppn.reply := rfl
@[simp] theorem ppn_mask_unitRead (u : NoticeUnit) : (unitRead s u).ppn.mask = s.ppn.mask := rfl
@[simp] theorem ppn_mode_unitRead (u : NoticeUnit) : (unitRead s u).ppn.mode = s.ppn.mode := rfl
@[simp] theorem ppn_stopInput_unitRead (u : NoticeUnit) : (unitRead s u).ppn.stopInput = s.ppn.stopInput := rfl
@[simp] theorem record_unitRead (u : NoticeUnit) (j : Nat) : (unitRead s u).record j = s.record j := rfl
@[simp] theorem slot_unitRead (u : NoticeUnit) (j : Nat) : (unitRead s u).slot j = s.slot j := rfl
@[simp] theorem bed_unitRead (u : NoticeUnit) (j : Nat) : (unitRead s u).bed j = s.bed j := rfl
@[simp] theorem hook_unitRead (u : NoticeUnit) (j : Nat) : (unitRead s u).hook j = s.hook j := rfl
@[simp] theorem table_unitRead (u : NoticeUnit) (j : Nat) : (unitRead s u).table j = s.table j := rfl
@[simp] theorem zone_unitRead (u : NoticeUnit) (j : Nat) : (unitRead s u).zone j = s.zone j := rfl
@[simp] theorem marks_unitRead (u : NoticeUnit) (j : Nat) : (unitRead s u).marks j = s.marks j := rfl
@[simp] theorem burn_unitRead (u : NoticeUnit) (j : Nat) : (unitRead s u).burn j = s.burn j := rfl
@[simp] theorem grantHeld_unitRead (u : NoticeUnit) (j : Nat) : (unitRead s u).grantHeld j = s.grantHeld j := rfl
@[simp] theorem monitor_unitRead (u : NoticeUnit) (j : Nat) : (unitRead s u).monitor j = s.monitor j := rfl
@[simp] theorem torch_unitRead (u : NoticeUnit) (j : Nat) : (unitRead s u).torch j = s.torch j := rfl
@[simp] theorem channel_unitRead (u : NoticeUnit) (j : Nat) : (unitRead s u).channel j = s.channel j := rfl
@[simp] theorem axis_unitRead (u : NoticeUnit) (j : Nat) : (unitRead s u).axis j = s.axis j := rfl
@[simp] theorem hoist_unitRead (u : NoticeUnit) (j : Nat) : (unitRead s u).hoist j = s.hoist j := rfl
@[simp] theorem crane_unitRead (u : NoticeUnit) (j : Nat) : (unitRead s u).crane j = s.crane j := rfl
@[simp] theorem pair_unitRead (u : NoticeUnit) (j : Nat) : (unitRead s u).pair j = s.pair j := rfl
@[simp] theorem intruders_unitRead (u : NoticeUnit) (j : Nat) : (unitRead s u).intruders j = s.intruders j := rfl
@[simp] theorem queue_unitRead (u : NoticeUnit) (j : Nat) : (unitRead s u).queue j = s.queue j := rfl
@[simp] theorem endedMove_unitRead (u : NoticeUnit) (j : Nat) : (unitRead s u).endedMove j = s.endedMove j := rfl
@[simp] theorem station_unitRead (u : NoticeUnit) (j : Nat) : (unitRead s u).station j = s.station j := rfl
@[simp] theorem sampled_unitRead (u : NoticeUnit) (j : Nat) : (unitRead s u).sampled j = s.sampled j := rfl
@[simp] theorem piece?_unitRead (u : NoticeUnit) (x : Handle) : (unitRead s u).piece? x = s.piece? x := rfl

/-! ## markSeen -/

@[simp] theorem srg_markSeen : (markSeen s).srg = s.srg := rfl
@[simp] theorem lmap_markSeen : (markSeen s).lmap = s.lmap := rfl
@[simp] theorem fse_markSeen : (markSeen s).fse = s.fse := rfl
@[simp] theorem tbc_markSeen : (markSeen s).tbc = s.tbc := rfl
@[simp] theorem mkd_markSeen : (markSeen s).mkd = s.mkd := rfl
@[simp] theorem bsv_markSeen : (markSeen s).bsv = s.bsv := rfl
@[simp] theorem rsu_markSeen : (markSeen s).rsu = s.rsu := rfl
@[simp] theorem clu_markSeen : (markSeen s).clu = s.clu := rfl
@[simp] theorem mvc_markSeen : (markSeen s).mvc = s.mvc := rfl
@[simp] theorem slc_markSeen : (markSeen s).slc = s.slc := rfl
@[simp] theorem pending_markSeen : (markSeen s).pending = s.pending := rfl
@[simp] theorem ppn_reply_markSeen : (markSeen s).ppn.reply = s.ppn.reply := rfl
@[simp] theorem ppn_mask_markSeen : (markSeen s).ppn.mask = s.ppn.mask := rfl
@[simp] theorem ppn_mode_markSeen : (markSeen s).ppn.mode = s.ppn.mode := rfl
@[simp] theorem ppn_stopInput_markSeen : (markSeen s).ppn.stopInput = s.ppn.stopInput := rfl

/-! ## replied -/

@[simp] theorem srg_replied (k : ReqKind) (st : Status) (r : ReplyRecord) : (s.replied k st r).srg = s.srg := rfl
@[simp] theorem lmap_replied (k : ReqKind) (st : Status) (r : ReplyRecord) : (s.replied k st r).lmap = s.lmap := rfl
@[simp] theorem fse_replied (k : ReqKind) (st : Status) (r : ReplyRecord) : (s.replied k st r).fse = s.fse := rfl
@[simp] theorem tbc_replied (k : ReqKind) (st : Status) (r : ReplyRecord) : (s.replied k st r).tbc = s.tbc := rfl
@[simp] theorem mkd_replied (k : ReqKind) (st : Status) (r : ReplyRecord) : (s.replied k st r).mkd = s.mkd := rfl
@[simp] theorem bsv_replied (k : ReqKind) (st : Status) (r : ReplyRecord) : (s.replied k st r).bsv = s.bsv := rfl
@[simp] theorem rsu_replied (k : ReqKind) (st : Status) (r : ReplyRecord) : (s.replied k st r).rsu = s.rsu := rfl
@[simp] theorem clu_replied (k : ReqKind) (st : Status) (r : ReplyRecord) : (s.replied k st r).clu = s.clu := rfl
@[simp] theorem mvc_replied (k : ReqKind) (st : Status) (r : ReplyRecord) : (s.replied k st r).mvc = s.mvc := rfl
@[simp] theorem slc_replied (k : ReqKind) (st : Status) (r : ReplyRecord) : (s.replied k st r).slc = s.slc := rfl
@[simp] theorem pending_replied (k : ReqKind) (st : Status) (r : ReplyRecord) :
    (s.replied k st r).pending = s.pending :=
    rfl
@[simp] theorem ppn_notices_replied (k : ReqKind) (st : Status) (r : ReplyRecord) :
    (s.replied k st r).ppn.notices = s.ppn.notices :=
    rfl
@[simp] theorem ppn_mask_replied (k : ReqKind) (st : Status) (r : ReplyRecord) :
    (s.replied k st r).ppn.mask = s.ppn.mask :=
    rfl
@[simp] theorem ppn_mode_replied (k : ReqKind) (st : Status) (r : ReplyRecord) :
    (s.replied k st r).ppn.mode = s.ppn.mode :=
    rfl
@[simp] theorem ppn_stopInput_replied (k : ReqKind) (st : Status) (r : ReplyRecord) :
    (s.replied k st r).ppn.stopInput = s.ppn.stopInput :=
    rfl
@[simp] theorem record_replied (k : ReqKind) (st : Status) (r : ReplyRecord) (j : Nat) :
    (s.replied k st r).record j = s.record j :=
    rfl
@[simp] theorem slot_replied (k : ReqKind) (st : Status) (r : ReplyRecord) (j : Nat) :
    (s.replied k st r).slot j = s.slot j :=
    rfl
@[simp] theorem bed_replied (k : ReqKind) (st : Status) (r : ReplyRecord) (j : Nat) :
    (s.replied k st r).bed j = s.bed j :=
    rfl
@[simp] theorem hook_replied (k : ReqKind) (st : Status) (r : ReplyRecord) (j : Nat) :
    (s.replied k st r).hook j = s.hook j :=
    rfl
@[simp] theorem table_replied (k : ReqKind) (st : Status) (r : ReplyRecord) (j : Nat) :
    (s.replied k st r).table j = s.table j :=
    rfl
@[simp] theorem zone_replied (k : ReqKind) (st : Status) (r : ReplyRecord) (j : Nat) :
    (s.replied k st r).zone j = s.zone j :=
    rfl
@[simp] theorem marks_replied (k : ReqKind) (st : Status) (r : ReplyRecord) (j : Nat) :
    (s.replied k st r).marks j = s.marks j :=
    rfl
@[simp] theorem burn_replied (k : ReqKind) (st : Status) (r : ReplyRecord) (j : Nat) :
    (s.replied k st r).burn j = s.burn j :=
    rfl
@[simp] theorem grantHeld_replied (k : ReqKind) (st : Status) (r : ReplyRecord) (j : Nat) :
    (s.replied k st r).grantHeld j = s.grantHeld j :=
    rfl
@[simp] theorem monitor_replied (k : ReqKind) (st : Status) (r : ReplyRecord) (j : Nat) :
    (s.replied k st r).monitor j = s.monitor j :=
    rfl
@[simp] theorem torch_replied (k : ReqKind) (st : Status) (r : ReplyRecord) (j : Nat) :
    (s.replied k st r).torch j = s.torch j :=
    rfl
@[simp] theorem channel_replied (k : ReqKind) (st : Status) (r : ReplyRecord) (j : Nat) :
    (s.replied k st r).channel j = s.channel j :=
    rfl
@[simp] theorem axis_replied (k : ReqKind) (st : Status) (r : ReplyRecord) (j : Nat) :
    (s.replied k st r).axis j = s.axis j :=
    rfl
@[simp] theorem hoist_replied (k : ReqKind) (st : Status) (r : ReplyRecord) (j : Nat) :
    (s.replied k st r).hoist j = s.hoist j :=
    rfl
@[simp] theorem crane_replied (k : ReqKind) (st : Status) (r : ReplyRecord) (j : Nat) :
    (s.replied k st r).crane j = s.crane j :=
    rfl
@[simp] theorem pair_replied (k : ReqKind) (st : Status) (r : ReplyRecord) (j : Nat) :
    (s.replied k st r).pair j = s.pair j :=
    rfl
@[simp] theorem intruders_replied (k : ReqKind) (st : Status) (r : ReplyRecord) (j : Nat) :
    (s.replied k st r).intruders j = s.intruders j :=
    rfl
@[simp] theorem queue_replied (k : ReqKind) (st : Status) (r : ReplyRecord) (j : Nat) :
    (s.replied k st r).queue j = s.queue j :=
    rfl
@[simp] theorem endedMove_replied (k : ReqKind) (st : Status) (r : ReplyRecord) (j : Nat) :
    (s.replied k st r).endedMove j = s.endedMove j :=
    rfl
@[simp] theorem station_replied (k : ReqKind) (st : Status) (r : ReplyRecord) (j : Nat) :
    (s.replied k st r).station j = s.station j :=
    rfl
@[simp] theorem notice_replied (k : ReqKind) (st : Status) (r : ReplyRecord) (j : Nat) :
    (s.replied k st r).notice j = s.notice j :=
    rfl
@[simp] theorem sampled_replied (k : ReqKind) (st : Status) (r : ReplyRecord) (j : Nat) :
    (s.replied k st r).sampled j = s.sampled j :=
    rfl
@[simp] theorem piece?_replied (k : ReqKind) (st : Status) (r : ReplyRecord) (x : Handle) :
    (s.replied k st r).piece? x = s.piece? x :=
    rfl

/-! ## setMode -/

@[simp] theorem srg_setMode (m : Mode) : (setMode s m).srg = s.srg := rfl
@[simp] theorem lmap_setMode (m : Mode) : (setMode s m).lmap = s.lmap := rfl
@[simp] theorem fse_setMode (m : Mode) : (setMode s m).fse = s.fse := rfl
@[simp] theorem tbc_setMode (m : Mode) : (setMode s m).tbc = s.tbc := rfl
@[simp] theorem mkd_setMode (m : Mode) : (setMode s m).mkd = s.mkd := rfl
@[simp] theorem bsv_setMode (m : Mode) : (setMode s m).bsv = s.bsv := rfl
@[simp] theorem rsu_setMode (m : Mode) : (setMode s m).rsu = s.rsu := rfl
@[simp] theorem clu_setMode (m : Mode) : (setMode s m).clu = s.clu := rfl
@[simp] theorem mvc_setMode (m : Mode) : (setMode s m).mvc = s.mvc := rfl
@[simp] theorem slc_setMode (m : Mode) : (setMode s m).slc = s.slc := rfl
@[simp] theorem pending_setMode (m : Mode) : (setMode s m).pending = s.pending := rfl
@[simp] theorem ppn_notices_setMode (m : Mode) : (setMode s m).ppn.notices = s.ppn.notices := rfl
@[simp] theorem ppn_mask_setMode (m : Mode) : (setMode s m).ppn.mask = s.ppn.mask := rfl
@[simp] theorem ppn_reply_setMode (m : Mode) : (setMode s m).ppn.reply = s.ppn.reply := rfl
@[simp] theorem ppn_stopInput_setMode (m : Mode) : (setMode s m).ppn.stopInput = s.ppn.stopInput := rfl

/-! ## setPhase -/

@[simp] theorem srg_setPhase (z : Nat) (p : Phase) : (setPhase s z p).srg = s.srg := rfl
@[simp] theorem lmap_setPhase (z : Nat) (p : Phase) : (setPhase s z p).lmap = s.lmap := rfl
@[simp] theorem fse_setPhase (z : Nat) (p : Phase) : (setPhase s z p).fse = s.fse := rfl
@[simp] theorem mkd_setPhase (z : Nat) (p : Phase) : (setPhase s z p).mkd = s.mkd := rfl
@[simp] theorem bsv_setPhase (z : Nat) (p : Phase) : (setPhase s z p).bsv = s.bsv := rfl
@[simp] theorem rsu_setPhase (z : Nat) (p : Phase) : (setPhase s z p).rsu = s.rsu := rfl
@[simp] theorem clu_setPhase (z : Nat) (p : Phase) : (setPhase s z p).clu = s.clu := rfl
@[simp] theorem mvc_setPhase (z : Nat) (p : Phase) : (setPhase s z p).mvc = s.mvc := rfl
@[simp] theorem slc_setPhase (z : Nat) (p : Phase) : (setPhase s z p).slc = s.slc := rfl
@[simp] theorem ppn_setPhase (z : Nat) (p : Phase) : (setPhase s z p).ppn = s.ppn := rfl
@[simp] theorem pending_setPhase (z : Nat) (p : Phase) : (setPhase s z p).pending = s.pending := rfl
@[simp] theorem tbc_tables_setPhase (z : Nat) (p : Phase) : (setPhase s z p).tbc.tables = s.tbc.tables := rfl
@[simp] theorem record_setPhase (z : Nat) (p : Phase) (j : Nat) : (setPhase s z p).record j = s.record j := rfl
@[simp] theorem slot_setPhase (z : Nat) (p : Phase) (j : Nat) : (setPhase s z p).slot j = s.slot j := rfl
@[simp] theorem bed_setPhase (z : Nat) (p : Phase) (j : Nat) : (setPhase s z p).bed j = s.bed j := rfl
@[simp] theorem hook_setPhase (z : Nat) (p : Phase) (j : Nat) : (setPhase s z p).hook j = s.hook j := rfl
@[simp] theorem table_setPhase (z : Nat) (p : Phase) (j : Nat) : (setPhase s z p).table j = s.table j := rfl
@[simp] theorem marks_setPhase (z : Nat) (p : Phase) (j : Nat) : (setPhase s z p).marks j = s.marks j := rfl
@[simp] theorem burn_setPhase (z : Nat) (p : Phase) (j : Nat) : (setPhase s z p).burn j = s.burn j := rfl
@[simp] theorem grantHeld_setPhase (z : Nat) (p : Phase) (j : Nat) :
    (setPhase s z p).grantHeld j = s.grantHeld j :=
    rfl
@[simp] theorem monitor_setPhase (z : Nat) (p : Phase) (j : Nat) : (setPhase s z p).monitor j = s.monitor j := rfl
@[simp] theorem torch_setPhase (z : Nat) (p : Phase) (j : Nat) : (setPhase s z p).torch j = s.torch j := rfl
@[simp] theorem channel_setPhase (z : Nat) (p : Phase) (j : Nat) : (setPhase s z p).channel j = s.channel j := rfl
@[simp] theorem axis_setPhase (z : Nat) (p : Phase) (j : Nat) : (setPhase s z p).axis j = s.axis j := rfl
@[simp] theorem hoist_setPhase (z : Nat) (p : Phase) (j : Nat) : (setPhase s z p).hoist j = s.hoist j := rfl
@[simp] theorem crane_setPhase (z : Nat) (p : Phase) (j : Nat) : (setPhase s z p).crane j = s.crane j := rfl
@[simp] theorem pair_setPhase (z : Nat) (p : Phase) (j : Nat) : (setPhase s z p).pair j = s.pair j := rfl
@[simp] theorem intruders_setPhase (z : Nat) (p : Phase) (j : Nat) :
    (setPhase s z p).intruders j = s.intruders j :=
    rfl
@[simp] theorem queue_setPhase (z : Nat) (p : Phase) (j : Nat) : (setPhase s z p).queue j = s.queue j := rfl
@[simp] theorem endedMove_setPhase (z : Nat) (p : Phase) (j : Nat) :
    (setPhase s z p).endedMove j = s.endedMove j :=
    rfl
@[simp] theorem station_setPhase (z : Nat) (p : Phase) (j : Nat) : (setPhase s z p).station j = s.station j := rfl
@[simp] theorem notice_setPhase (z : Nat) (p : Phase) (j : Nat) : (setPhase s z p).notice j = s.notice j := rfl
@[simp] theorem sampled_setPhase (z : Nat) (p : Phase) (j : Nat) : (setPhase s z p).sampled j = s.sampled j := rfl
@[simp] theorem piece?_setPhase (z : Nat) (p : Phase) (x : Handle) : (setPhase s z p).piece? x = s.piece? x := rfl

/-! ## setNest -/

@[simp] theorem srg_setNest (z : Nat) (n : Option Nest) : (setNest s z n).srg = s.srg := rfl
@[simp] theorem lmap_setNest (z : Nat) (n : Option Nest) : (setNest s z n).lmap = s.lmap := rfl
@[simp] theorem fse_setNest (z : Nat) (n : Option Nest) : (setNest s z n).fse = s.fse := rfl
@[simp] theorem mkd_setNest (z : Nat) (n : Option Nest) : (setNest s z n).mkd = s.mkd := rfl
@[simp] theorem bsv_setNest (z : Nat) (n : Option Nest) : (setNest s z n).bsv = s.bsv := rfl
@[simp] theorem rsu_setNest (z : Nat) (n : Option Nest) : (setNest s z n).rsu = s.rsu := rfl
@[simp] theorem clu_setNest (z : Nat) (n : Option Nest) : (setNest s z n).clu = s.clu := rfl
@[simp] theorem mvc_setNest (z : Nat) (n : Option Nest) : (setNest s z n).mvc = s.mvc := rfl
@[simp] theorem slc_setNest (z : Nat) (n : Option Nest) : (setNest s z n).slc = s.slc := rfl
@[simp] theorem ppn_setNest (z : Nat) (n : Option Nest) : (setNest s z n).ppn = s.ppn := rfl
@[simp] theorem pending_setNest (z : Nat) (n : Option Nest) : (setNest s z n).pending = s.pending := rfl
@[simp] theorem tbc_tables_setNest (z : Nat) (n : Option Nest) : (setNest s z n).tbc.tables = s.tbc.tables := rfl
@[simp] theorem record_setNest (z : Nat) (n : Option Nest) (j : Nat) : (setNest s z n).record j = s.record j := rfl
@[simp] theorem slot_setNest (z : Nat) (n : Option Nest) (j : Nat) : (setNest s z n).slot j = s.slot j := rfl
@[simp] theorem bed_setNest (z : Nat) (n : Option Nest) (j : Nat) : (setNest s z n).bed j = s.bed j := rfl
@[simp] theorem hook_setNest (z : Nat) (n : Option Nest) (j : Nat) : (setNest s z n).hook j = s.hook j := rfl
@[simp] theorem table_setNest (z : Nat) (n : Option Nest) (j : Nat) : (setNest s z n).table j = s.table j := rfl
@[simp] theorem marks_setNest (z : Nat) (n : Option Nest) (j : Nat) : (setNest s z n).marks j = s.marks j := rfl
@[simp] theorem burn_setNest (z : Nat) (n : Option Nest) (j : Nat) : (setNest s z n).burn j = s.burn j := rfl
@[simp] theorem grantHeld_setNest (z : Nat) (n : Option Nest) (j : Nat) :
    (setNest s z n).grantHeld j = s.grantHeld j :=
    rfl
@[simp] theorem monitor_setNest (z : Nat) (n : Option Nest) (j : Nat) : (setNest s z n).monitor j = s.monitor j := rfl
@[simp] theorem torch_setNest (z : Nat) (n : Option Nest) (j : Nat) : (setNest s z n).torch j = s.torch j := rfl
@[simp] theorem channel_setNest (z : Nat) (n : Option Nest) (j : Nat) : (setNest s z n).channel j = s.channel j := rfl
@[simp] theorem axis_setNest (z : Nat) (n : Option Nest) (j : Nat) : (setNest s z n).axis j = s.axis j := rfl
@[simp] theorem hoist_setNest (z : Nat) (n : Option Nest) (j : Nat) : (setNest s z n).hoist j = s.hoist j := rfl
@[simp] theorem crane_setNest (z : Nat) (n : Option Nest) (j : Nat) : (setNest s z n).crane j = s.crane j := rfl
@[simp] theorem pair_setNest (z : Nat) (n : Option Nest) (j : Nat) : (setNest s z n).pair j = s.pair j := rfl
@[simp] theorem intruders_setNest (z : Nat) (n : Option Nest) (j : Nat) :
    (setNest s z n).intruders j = s.intruders j :=
    rfl
@[simp] theorem queue_setNest (z : Nat) (n : Option Nest) (j : Nat) : (setNest s z n).queue j = s.queue j := rfl
@[simp] theorem endedMove_setNest (z : Nat) (n : Option Nest) (j : Nat) :
    (setNest s z n).endedMove j = s.endedMove j :=
    rfl
@[simp] theorem station_setNest (z : Nat) (n : Option Nest) (j : Nat) : (setNest s z n).station j = s.station j := rfl
@[simp] theorem notice_setNest (z : Nat) (n : Option Nest) (j : Nat) : (setNest s z n).notice j = s.notice j := rfl
@[simp] theorem sampled_setNest (z : Nat) (n : Option Nest) (j : Nat) : (setNest s z n).sampled j = s.sampled j := rfl
@[simp] theorem piece?_setNest (z : Nat) (n : Option Nest) (x : Handle) : (setNest s z n).piece? x = s.piece? x := rfl

/-! ## modNest -/

@[simp] theorem srg_modNest (z : Nat) (f : Nest → Nest) : (modNest s z f).srg = s.srg := rfl
@[simp] theorem lmap_modNest (z : Nat) (f : Nest → Nest) : (modNest s z f).lmap = s.lmap := rfl
@[simp] theorem fse_modNest (z : Nat) (f : Nest → Nest) : (modNest s z f).fse = s.fse := rfl
@[simp] theorem mkd_modNest (z : Nat) (f : Nest → Nest) : (modNest s z f).mkd = s.mkd := rfl
@[simp] theorem bsv_modNest (z : Nat) (f : Nest → Nest) : (modNest s z f).bsv = s.bsv := rfl
@[simp] theorem rsu_modNest (z : Nat) (f : Nest → Nest) : (modNest s z f).rsu = s.rsu := rfl
@[simp] theorem clu_modNest (z : Nat) (f : Nest → Nest) : (modNest s z f).clu = s.clu := rfl
@[simp] theorem mvc_modNest (z : Nat) (f : Nest → Nest) : (modNest s z f).mvc = s.mvc := rfl
@[simp] theorem slc_modNest (z : Nat) (f : Nest → Nest) : (modNest s z f).slc = s.slc := rfl
@[simp] theorem ppn_modNest (z : Nat) (f : Nest → Nest) : (modNest s z f).ppn = s.ppn := rfl
@[simp] theorem pending_modNest (z : Nat) (f : Nest → Nest) : (modNest s z f).pending = s.pending := rfl
@[simp] theorem tbc_tables_modNest (z : Nat) (f : Nest → Nest) : (modNest s z f).tbc.tables = s.tbc.tables := rfl
@[simp] theorem record_modNest (z : Nat) (f : Nest → Nest) (j : Nat) : (modNest s z f).record j = s.record j := rfl
@[simp] theorem slot_modNest (z : Nat) (f : Nest → Nest) (j : Nat) : (modNest s z f).slot j = s.slot j := rfl
@[simp] theorem bed_modNest (z : Nat) (f : Nest → Nest) (j : Nat) : (modNest s z f).bed j = s.bed j := rfl
@[simp] theorem hook_modNest (z : Nat) (f : Nest → Nest) (j : Nat) : (modNest s z f).hook j = s.hook j := rfl
@[simp] theorem table_modNest (z : Nat) (f : Nest → Nest) (j : Nat) : (modNest s z f).table j = s.table j := rfl
@[simp] theorem marks_modNest (z : Nat) (f : Nest → Nest) (j : Nat) : (modNest s z f).marks j = s.marks j := rfl
@[simp] theorem burn_modNest (z : Nat) (f : Nest → Nest) (j : Nat) : (modNest s z f).burn j = s.burn j := rfl
@[simp] theorem grantHeld_modNest (z : Nat) (f : Nest → Nest) (j : Nat) :
    (modNest s z f).grantHeld j = s.grantHeld j :=
    rfl
@[simp] theorem monitor_modNest (z : Nat) (f : Nest → Nest) (j : Nat) : (modNest s z f).monitor j = s.monitor j := rfl
@[simp] theorem torch_modNest (z : Nat) (f : Nest → Nest) (j : Nat) : (modNest s z f).torch j = s.torch j := rfl
@[simp] theorem channel_modNest (z : Nat) (f : Nest → Nest) (j : Nat) : (modNest s z f).channel j = s.channel j := rfl
@[simp] theorem axis_modNest (z : Nat) (f : Nest → Nest) (j : Nat) : (modNest s z f).axis j = s.axis j := rfl
@[simp] theorem hoist_modNest (z : Nat) (f : Nest → Nest) (j : Nat) : (modNest s z f).hoist j = s.hoist j := rfl
@[simp] theorem crane_modNest (z : Nat) (f : Nest → Nest) (j : Nat) : (modNest s z f).crane j = s.crane j := rfl
@[simp] theorem pair_modNest (z : Nat) (f : Nest → Nest) (j : Nat) : (modNest s z f).pair j = s.pair j := rfl
@[simp] theorem intruders_modNest (z : Nat) (f : Nest → Nest) (j : Nat) :
    (modNest s z f).intruders j = s.intruders j :=
    rfl
@[simp] theorem queue_modNest (z : Nat) (f : Nest → Nest) (j : Nat) : (modNest s z f).queue j = s.queue j := rfl
@[simp] theorem endedMove_modNest (z : Nat) (f : Nest → Nest) (j : Nat) :
    (modNest s z f).endedMove j = s.endedMove j :=
    rfl
@[simp] theorem station_modNest (z : Nat) (f : Nest → Nest) (j : Nat) : (modNest s z f).station j = s.station j := rfl
@[simp] theorem notice_modNest (z : Nat) (f : Nest → Nest) (j : Nat) : (modNest s z f).notice j = s.notice j := rfl
@[simp] theorem sampled_modNest (z : Nat) (f : Nest → Nest) (j : Nat) : (modNest s z f).sampled j = s.sampled j := rfl
@[simp] theorem piece?_modNest (z : Nat) (f : Nest → Nest) (x : Handle) : (modNest s z f).piece? x = s.piece? x := rfl

/-! ## modPart -/

@[simp] theorem srg_modPart (z i : Nat) (f : Part → Part) : (modPart s z i f).srg = s.srg := rfl
@[simp] theorem lmap_modPart (z i : Nat) (f : Part → Part) : (modPart s z i f).lmap = s.lmap := rfl
@[simp] theorem fse_modPart (z i : Nat) (f : Part → Part) : (modPart s z i f).fse = s.fse := rfl
@[simp] theorem mkd_modPart (z i : Nat) (f : Part → Part) : (modPart s z i f).mkd = s.mkd := rfl
@[simp] theorem bsv_modPart (z i : Nat) (f : Part → Part) : (modPart s z i f).bsv = s.bsv := rfl
@[simp] theorem rsu_modPart (z i : Nat) (f : Part → Part) : (modPart s z i f).rsu = s.rsu := rfl
@[simp] theorem clu_modPart (z i : Nat) (f : Part → Part) : (modPart s z i f).clu = s.clu := rfl
@[simp] theorem mvc_modPart (z i : Nat) (f : Part → Part) : (modPart s z i f).mvc = s.mvc := rfl
@[simp] theorem slc_modPart (z i : Nat) (f : Part → Part) : (modPart s z i f).slc = s.slc := rfl
@[simp] theorem ppn_modPart (z i : Nat) (f : Part → Part) : (modPart s z i f).ppn = s.ppn := rfl
@[simp] theorem pending_modPart (z i : Nat) (f : Part → Part) : (modPart s z i f).pending = s.pending := rfl
@[simp] theorem tbc_tables_modPart (z i : Nat) (f : Part → Part) : (modPart s z i f).tbc.tables = s.tbc.tables := rfl
@[simp] theorem record_modPart (z i : Nat) (f : Part → Part) (j : Nat) :
    (modPart s z i f).record j = s.record j :=
    rfl
@[simp] theorem slot_modPart (z i : Nat) (f : Part → Part) (j : Nat) : (modPart s z i f).slot j = s.slot j := rfl
@[simp] theorem bed_modPart (z i : Nat) (f : Part → Part) (j : Nat) : (modPart s z i f).bed j = s.bed j := rfl
@[simp] theorem hook_modPart (z i : Nat) (f : Part → Part) (j : Nat) : (modPart s z i f).hook j = s.hook j := rfl
@[simp] theorem table_modPart (z i : Nat) (f : Part → Part) (j : Nat) : (modPart s z i f).table j = s.table j := rfl
@[simp] theorem marks_modPart (z i : Nat) (f : Part → Part) (j : Nat) : (modPart s z i f).marks j = s.marks j := rfl
@[simp] theorem burn_modPart (z i : Nat) (f : Part → Part) (j : Nat) : (modPart s z i f).burn j = s.burn j := rfl
@[simp] theorem grantHeld_modPart (z i : Nat) (f : Part → Part) (j : Nat) :
    (modPart s z i f).grantHeld j = s.grantHeld j :=
    rfl
@[simp] theorem monitor_modPart (z i : Nat) (f : Part → Part) (j : Nat) :
    (modPart s z i f).monitor j = s.monitor j :=
    rfl
@[simp] theorem torch_modPart (z i : Nat) (f : Part → Part) (j : Nat) : (modPart s z i f).torch j = s.torch j := rfl
@[simp] theorem channel_modPart (z i : Nat) (f : Part → Part) (j : Nat) :
    (modPart s z i f).channel j = s.channel j :=
    rfl
@[simp] theorem axis_modPart (z i : Nat) (f : Part → Part) (j : Nat) : (modPart s z i f).axis j = s.axis j := rfl
@[simp] theorem hoist_modPart (z i : Nat) (f : Part → Part) (j : Nat) : (modPart s z i f).hoist j = s.hoist j := rfl
@[simp] theorem crane_modPart (z i : Nat) (f : Part → Part) (j : Nat) : (modPart s z i f).crane j = s.crane j := rfl
@[simp] theorem pair_modPart (z i : Nat) (f : Part → Part) (j : Nat) : (modPart s z i f).pair j = s.pair j := rfl
@[simp] theorem intruders_modPart (z i : Nat) (f : Part → Part) (j : Nat) :
    (modPart s z i f).intruders j = s.intruders j :=
    rfl
@[simp] theorem queue_modPart (z i : Nat) (f : Part → Part) (j : Nat) : (modPart s z i f).queue j = s.queue j := rfl
@[simp] theorem endedMove_modPart (z i : Nat) (f : Part → Part) (j : Nat) :
    (modPart s z i f).endedMove j = s.endedMove j :=
    rfl
@[simp] theorem station_modPart (z i : Nat) (f : Part → Part) (j : Nat) :
    (modPart s z i f).station j = s.station j :=
    rfl
@[simp] theorem notice_modPart (z i : Nat) (f : Part → Part) (j : Nat) :
    (modPart s z i f).notice j = s.notice j :=
    rfl
@[simp] theorem sampled_modPart (z i : Nat) (f : Part → Part) (j : Nat) :
    (modPart s z i f).sampled j = s.sampled j :=
    rfl
@[simp] theorem piece?_modPart (z i : Nat) (f : Part → Part) (x : Handle) :
    (modPart s z i f).piece? x = s.piece? x :=
    rfl

/-! ## setPiece -/

@[simp] theorem lmap_setPiece (h : Handle) (p : Piece) : (s.setPiece h p).lmap = s.lmap := rfl
@[simp] theorem fse_setPiece (h : Handle) (p : Piece) : (s.setPiece h p).fse = s.fse := rfl
@[simp] theorem tbc_setPiece (h : Handle) (p : Piece) : (s.setPiece h p).tbc = s.tbc := rfl
@[simp] theorem mkd_setPiece (h : Handle) (p : Piece) : (s.setPiece h p).mkd = s.mkd := rfl
@[simp] theorem bsv_setPiece (h : Handle) (p : Piece) : (s.setPiece h p).bsv = s.bsv := rfl
@[simp] theorem rsu_setPiece (h : Handle) (p : Piece) : (s.setPiece h p).rsu = s.rsu := rfl
@[simp] theorem clu_setPiece (h : Handle) (p : Piece) : (s.setPiece h p).clu = s.clu := rfl
@[simp] theorem mvc_setPiece (h : Handle) (p : Piece) : (s.setPiece h p).mvc = s.mvc := rfl
@[simp] theorem slc_setPiece (h : Handle) (p : Piece) : (s.setPiece h p).slc = s.slc := rfl
@[simp] theorem ppn_setPiece (h : Handle) (p : Piece) : (s.setPiece h p).ppn = s.ppn := rfl
@[simp] theorem pending_setPiece (h : Handle) (p : Piece) : (s.setPiece h p).pending = s.pending := rfl
@[simp] theorem srg_primary_setPiece (h : Handle) (p : Piece) : (s.setPiece h p).srg.primary = s.srg.primary := rfl
@[simp] theorem srg_groups_setPiece (h : Handle) (p : Piece) : (s.setPiece h p).srg.groups = s.srg.groups := rfl
@[simp] theorem srg_creation_setPiece (h : Handle) (p : Piece) : (s.setPiece h p).srg.creation = s.srg.creation := rfl
@[simp] theorem srg_remnant_setPiece (h : Handle) (p : Piece) : (s.setPiece h p).srg.remnant = s.srg.remnant := rfl
@[simp] theorem slot_setPiece (h : Handle) (p : Piece) (j : Nat) : (s.setPiece h p).slot j = s.slot j := rfl
@[simp] theorem bed_setPiece (h : Handle) (p : Piece) (j : Nat) : (s.setPiece h p).bed j = s.bed j := rfl
@[simp] theorem hook_setPiece (h : Handle) (p : Piece) (j : Nat) : (s.setPiece h p).hook j = s.hook j := rfl
@[simp] theorem table_setPiece (h : Handle) (p : Piece) (j : Nat) : (s.setPiece h p).table j = s.table j := rfl
@[simp] theorem zone_setPiece (h : Handle) (p : Piece) (j : Nat) : (s.setPiece h p).zone j = s.zone j := rfl
@[simp] theorem marks_setPiece (h : Handle) (p : Piece) (j : Nat) : (s.setPiece h p).marks j = s.marks j := rfl
@[simp] theorem burn_setPiece (h : Handle) (p : Piece) (j : Nat) : (s.setPiece h p).burn j = s.burn j := rfl
@[simp] theorem grantHeld_setPiece (h : Handle) (p : Piece) (j : Nat) :
    (s.setPiece h p).grantHeld j = s.grantHeld j :=
    rfl
@[simp] theorem monitor_setPiece (h : Handle) (p : Piece) (j : Nat) : (s.setPiece h p).monitor j = s.monitor j := rfl
@[simp] theorem torch_setPiece (h : Handle) (p : Piece) (j : Nat) : (s.setPiece h p).torch j = s.torch j := rfl
@[simp] theorem channel_setPiece (h : Handle) (p : Piece) (j : Nat) : (s.setPiece h p).channel j = s.channel j := rfl
@[simp] theorem axis_setPiece (h : Handle) (p : Piece) (j : Nat) : (s.setPiece h p).axis j = s.axis j := rfl
@[simp] theorem hoist_setPiece (h : Handle) (p : Piece) (j : Nat) : (s.setPiece h p).hoist j = s.hoist j := rfl
@[simp] theorem crane_setPiece (h : Handle) (p : Piece) (j : Nat) : (s.setPiece h p).crane j = s.crane j := rfl
@[simp] theorem pair_setPiece (h : Handle) (p : Piece) (j : Nat) : (s.setPiece h p).pair j = s.pair j := rfl
@[simp] theorem intruders_setPiece (h : Handle) (p : Piece) (j : Nat) :
    (s.setPiece h p).intruders j = s.intruders j :=
    rfl
@[simp] theorem queue_setPiece (h : Handle) (p : Piece) (j : Nat) : (s.setPiece h p).queue j = s.queue j := rfl
@[simp] theorem endedMove_setPiece (h : Handle) (p : Piece) (j : Nat) :
    (s.setPiece h p).endedMove j = s.endedMove j :=
    rfl
@[simp] theorem station_setPiece (h : Handle) (p : Piece) (j : Nat) : (s.setPiece h p).station j = s.station j := rfl
@[simp] theorem notice_setPiece (h : Handle) (p : Piece) (j : Nat) : (s.setPiece h p).notice j = s.notice j := rfl
@[simp] theorem sampled_setPiece (h : Handle) (p : Piece) (j : Nat) : (s.setPiece h p).sampled j = s.sampled j := rfl

/-! ## modPiece -/

@[simp] theorem lmap_modPiece (h : Handle) (f : Piece → Piece) :
    (s.modPiece h f).lmap = s.lmap :=
    by unfold State.modPiece; split <;> rfl
@[simp] theorem fse_modPiece (h : Handle) (f : Piece → Piece) :
    (s.modPiece h f).fse = s.fse :=
    by unfold State.modPiece; split <;> rfl
@[simp] theorem tbc_modPiece (h : Handle) (f : Piece → Piece) :
    (s.modPiece h f).tbc = s.tbc :=
    by unfold State.modPiece; split <;> rfl
@[simp] theorem mkd_modPiece (h : Handle) (f : Piece → Piece) :
    (s.modPiece h f).mkd = s.mkd :=
    by unfold State.modPiece; split <;> rfl
@[simp] theorem bsv_modPiece (h : Handle) (f : Piece → Piece) :
    (s.modPiece h f).bsv = s.bsv :=
    by unfold State.modPiece; split <;> rfl
@[simp] theorem rsu_modPiece (h : Handle) (f : Piece → Piece) :
    (s.modPiece h f).rsu = s.rsu :=
    by unfold State.modPiece; split <;> rfl
@[simp] theorem clu_modPiece (h : Handle) (f : Piece → Piece) :
    (s.modPiece h f).clu = s.clu :=
    by unfold State.modPiece; split <;> rfl
@[simp] theorem mvc_modPiece (h : Handle) (f : Piece → Piece) :
    (s.modPiece h f).mvc = s.mvc :=
    by unfold State.modPiece; split <;> rfl
@[simp] theorem slc_modPiece (h : Handle) (f : Piece → Piece) :
    (s.modPiece h f).slc = s.slc :=
    by unfold State.modPiece; split <;> rfl
@[simp] theorem ppn_modPiece (h : Handle) (f : Piece → Piece) :
    (s.modPiece h f).ppn = s.ppn :=
    by unfold State.modPiece; split <;> rfl
@[simp] theorem pending_modPiece (h : Handle) (f : Piece → Piece) :
    (s.modPiece h f).pending = s.pending :=
    by unfold State.modPiece; split <;> rfl
@[simp] theorem srg_primary_modPiece (h : Handle) (f : Piece → Piece) :
    (s.modPiece h f).srg.primary = s.srg.primary :=
    by unfold State.modPiece; split <;> rfl
@[simp] theorem srg_groups_modPiece (h : Handle) (f : Piece → Piece) :
    (s.modPiece h f).srg.groups = s.srg.groups :=
    by unfold State.modPiece; split <;> rfl
@[simp] theorem srg_creation_modPiece (h : Handle) (f : Piece → Piece) :
    (s.modPiece h f).srg.creation = s.srg.creation :=
    by unfold State.modPiece; split <;> rfl
@[simp] theorem srg_remnant_modPiece (h : Handle) (f : Piece → Piece) :
    (s.modPiece h f).srg.remnant = s.srg.remnant :=
    by unfold State.modPiece; split <;> rfl
@[simp] theorem slot_modPiece (h : Handle) (f : Piece → Piece) (j : Nat) :
    (s.modPiece h f).slot j = s.slot j :=
    by simp only [State.slot, lmap_modPiece]
@[simp] theorem bed_modPiece (h : Handle) (f : Piece → Piece) (j : Nat) :
    (s.modPiece h f).bed j = s.bed j :=
    by simp only [State.bed, lmap_modPiece]
@[simp] theorem hook_modPiece (h : Handle) (f : Piece → Piece) (j : Nat) :
    (s.modPiece h f).hook j = s.hook j :=
    by simp only [State.hook, lmap_modPiece]
@[simp] theorem table_modPiece (h : Handle) (f : Piece → Piece) (j : Nat) :
    (s.modPiece h f).table j = s.table j :=
    by simp only [State.table, tbc_modPiece]
@[simp] theorem zone_modPiece (h : Handle) (f : Piece → Piece) (j : Nat) :
    (s.modPiece h f).zone j = s.zone j :=
    by simp only [State.zone, tbc_modPiece]
@[simp] theorem marks_modPiece (h : Handle) (f : Piece → Piece) (j : Nat) :
    (s.modPiece h f).marks j = s.marks j :=
    by simp only [State.marks, mkd_modPiece]
@[simp] theorem burn_modPiece (h : Handle) (f : Piece → Piece) (j : Nat) :
    (s.modPiece h f).burn j = s.burn j :=
    by simp only [State.burn, bsv_modPiece]
@[simp] theorem grantHeld_modPiece (h : Handle) (f : Piece → Piece) (j : Nat) :
    (s.modPiece h f).grantHeld j = s.grantHeld j :=
    by simp only [State.grantHeld, bsv_modPiece]
@[simp] theorem monitor_modPiece (h : Handle) (f : Piece → Piece) (j : Nat) :
    (s.modPiece h f).monitor j = s.monitor j :=
    by simp only [State.monitor, bsv_modPiece]
@[simp] theorem torch_modPiece (h : Handle) (f : Piece → Piece) (j : Nat) :
    (s.modPiece h f).torch j = s.torch j :=
    by simp only [State.torch, bsv_modPiece]
@[simp] theorem channel_modPiece (h : Handle) (f : Piece → Piece) (j : Nat) :
    (s.modPiece h f).channel j = s.channel j :=
    by simp only [State.channel, rsu_modPiece]
@[simp] theorem axis_modPiece (h : Handle) (f : Piece → Piece) (j : Nat) :
    (s.modPiece h f).axis j = s.axis j :=
    by simp only [State.axis, rsu_modPiece]
@[simp] theorem hoist_modPiece (h : Handle) (f : Piece → Piece) (j : Nat) :
    (s.modPiece h f).hoist j = s.hoist j :=
    by simp only [State.hoist, rsu_modPiece]
@[simp] theorem crane_modPiece (h : Handle) (f : Piece → Piece) (j : Nat) :
    (s.modPiece h f).crane j = s.crane j :=
    by simp only [State.crane, clu_modPiece]
@[simp] theorem pair_modPiece (h : Handle) (f : Piece → Piece) (j : Nat) :
    (s.modPiece h f).pair j = s.pair j :=
    by simp only [State.pair, clu_modPiece]
@[simp] theorem intruders_modPiece (h : Handle) (f : Piece → Piece) (j : Nat) :
    (s.modPiece h f).intruders j = s.intruders j :=
    by simp only [State.intruders, clu_modPiece]
@[simp] theorem queue_modPiece (h : Handle) (f : Piece → Piece) (j : Nat) :
    (s.modPiece h f).queue j = s.queue j :=
    by simp only [State.queue, mvc_modPiece]
@[simp] theorem endedMove_modPiece (h : Handle) (f : Piece → Piece) (j : Nat) :
    (s.modPiece h f).endedMove j = s.endedMove j :=
    by simp only [State.endedMove, mvc_modPiece]
@[simp] theorem station_modPiece (h : Handle) (f : Piece → Piece) (j : Nat) :
    (s.modPiece h f).station j = s.station j :=
    by simp only [State.station, slc_modPiece]
@[simp] theorem notice_modPiece (h : Handle) (f : Piece → Piece) (j : Nat) :
    (s.modPiece h f).notice j = s.notice j :=
    by simp only [State.notice, ppn_modPiece]
@[simp] theorem sampled_modPiece (h : Handle) (f : Piece → Piece) (j : Nat) :
    (s.modPiece h f).sampled j = s.sampled j :=
    by simp only [State.sampled, rsu_modPiece]

/-! ## withdrawMark -/

@[simp] theorem srg_withdrawMark (t : Nat) : (withdrawMark s t).srg = s.srg := by unfold withdrawMark; split <;> rfl
@[simp] theorem lmap_withdrawMark (t : Nat) :
    (withdrawMark s t).lmap = s.lmap :=
    by unfold withdrawMark; split <;> rfl
@[simp] theorem fse_withdrawMark (t : Nat) : (withdrawMark s t).fse = s.fse := by unfold withdrawMark; split <;> rfl
@[simp] theorem bsv_withdrawMark (t : Nat) : (withdrawMark s t).bsv = s.bsv := by unfold withdrawMark; split <;> rfl
@[simp] theorem rsu_withdrawMark (t : Nat) : (withdrawMark s t).rsu = s.rsu := by unfold withdrawMark; split <;> rfl
@[simp] theorem clu_withdrawMark (t : Nat) : (withdrawMark s t).clu = s.clu := by unfold withdrawMark; split <;> rfl
@[simp] theorem mvc_withdrawMark (t : Nat) : (withdrawMark s t).mvc = s.mvc := by unfold withdrawMark; split <;> rfl
@[simp] theorem slc_withdrawMark (t : Nat) : (withdrawMark s t).slc = s.slc := by unfold withdrawMark; split <;> rfl
@[simp] theorem ppn_withdrawMark (t : Nat) : (withdrawMark s t).ppn = s.ppn := by unfold withdrawMark; split <;> rfl
@[simp] theorem pending_withdrawMark (t : Nat) :
    (withdrawMark s t).pending = s.pending :=
    by unfold withdrawMark; split <;> rfl
@[simp] theorem tbc_tables_withdrawMark (t : Nat) :
    (withdrawMark s t).tbc.tables = s.tbc.tables :=
    by unfold withdrawMark; split <;> rfl
@[simp] theorem record_withdrawMark (t : Nat) (j : Nat) :
    (withdrawMark s t).record j = s.record j :=
    by simp only [State.record, srg_withdrawMark]
@[simp] theorem slot_withdrawMark (t : Nat) (j : Nat) :
    (withdrawMark s t).slot j = s.slot j :=
    by simp only [State.slot, lmap_withdrawMark]
@[simp] theorem bed_withdrawMark (t : Nat) (j : Nat) :
    (withdrawMark s t).bed j = s.bed j :=
    by simp only [State.bed, lmap_withdrawMark]
@[simp] theorem hook_withdrawMark (t : Nat) (j : Nat) :
    (withdrawMark s t).hook j = s.hook j :=
    by simp only [State.hook, lmap_withdrawMark]
@[simp] theorem table_withdrawMark (t : Nat) (j : Nat) :
    (withdrawMark s t).table j = s.table j :=
    by simp only [State.table, tbc_tables_withdrawMark]
@[simp] theorem burn_withdrawMark (t : Nat) (j : Nat) :
    (withdrawMark s t).burn j = s.burn j :=
    by simp only [State.burn, bsv_withdrawMark]
@[simp] theorem grantHeld_withdrawMark (t : Nat) (j : Nat) :
    (withdrawMark s t).grantHeld j = s.grantHeld j :=
    by simp only [State.grantHeld, bsv_withdrawMark]
@[simp] theorem monitor_withdrawMark (t : Nat) (j : Nat) :
    (withdrawMark s t).monitor j = s.monitor j :=
    by simp only [State.monitor, bsv_withdrawMark]
@[simp] theorem torch_withdrawMark (t : Nat) (j : Nat) :
    (withdrawMark s t).torch j = s.torch j :=
    by simp only [State.torch, bsv_withdrawMark]
@[simp] theorem channel_withdrawMark (t : Nat) (j : Nat) :
    (withdrawMark s t).channel j = s.channel j :=
    by simp only [State.channel, rsu_withdrawMark]
@[simp] theorem axis_withdrawMark (t : Nat) (j : Nat) :
    (withdrawMark s t).axis j = s.axis j :=
    by simp only [State.axis, rsu_withdrawMark]
@[simp] theorem hoist_withdrawMark (t : Nat) (j : Nat) :
    (withdrawMark s t).hoist j = s.hoist j :=
    by simp only [State.hoist, rsu_withdrawMark]
@[simp] theorem crane_withdrawMark (t : Nat) (j : Nat) :
    (withdrawMark s t).crane j = s.crane j :=
    by simp only [State.crane, clu_withdrawMark]
@[simp] theorem pair_withdrawMark (t : Nat) (j : Nat) :
    (withdrawMark s t).pair j = s.pair j :=
    by simp only [State.pair, clu_withdrawMark]
@[simp] theorem intruders_withdrawMark (t : Nat) (j : Nat) :
    (withdrawMark s t).intruders j = s.intruders j :=
    by simp only [State.intruders, clu_withdrawMark]
@[simp] theorem queue_withdrawMark (t : Nat) (j : Nat) :
    (withdrawMark s t).queue j = s.queue j :=
    by simp only [State.queue, mvc_withdrawMark]
@[simp] theorem endedMove_withdrawMark (t : Nat) (j : Nat) :
    (withdrawMark s t).endedMove j = s.endedMove j :=
    by simp only [State.endedMove, mvc_withdrawMark]
@[simp] theorem station_withdrawMark (t : Nat) (j : Nat) :
    (withdrawMark s t).station j = s.station j :=
    by simp only [State.station, slc_withdrawMark]
@[simp] theorem notice_withdrawMark (t : Nat) (j : Nat) :
    (withdrawMark s t).notice j = s.notice j :=
    by simp only [State.notice, ppn_withdrawMark]
@[simp] theorem sampled_withdrawMark (t : Nat) (j : Nat) :
    (withdrawMark s t).sampled j = s.sampled j :=
    by simp only [State.sampled, rsu_withdrawMark]
@[simp] theorem piece?_withdrawMark (t : Nat) (x : Handle) :
    (withdrawMark s t).piece? x = s.piece? x :=
    by simp only [State.piece?, record_withdrawMark]

/-! ## sendReply -/

@[simp] theorem srg_sendReply (a : Nat) (r : Reply) : (sendReply s a r).srg = s.srg := rfl
@[simp] theorem lmap_sendReply (a : Nat) (r : Reply) : (sendReply s a r).lmap = s.lmap := rfl
@[simp] theorem fse_sendReply (a : Nat) (r : Reply) : (sendReply s a r).fse = s.fse := rfl
@[simp] theorem tbc_sendReply (a : Nat) (r : Reply) : (sendReply s a r).tbc = s.tbc := rfl
@[simp] theorem mkd_sendReply (a : Nat) (r : Reply) : (sendReply s a r).mkd = s.mkd := rfl
@[simp] theorem bsv_sendReply (a : Nat) (r : Reply) : (sendReply s a r).bsv = s.bsv := rfl
@[simp] theorem rsu_sendReply (a : Nat) (r : Reply) : (sendReply s a r).rsu = s.rsu := rfl
@[simp] theorem clu_sendReply (a : Nat) (r : Reply) : (sendReply s a r).clu = s.clu := rfl
@[simp] theorem mvc_sendReply (a : Nat) (r : Reply) : (sendReply s a r).mvc = s.mvc := rfl
@[simp] theorem ppn_sendReply (a : Nat) (r : Reply) : (sendReply s a r).ppn = s.ppn := rfl
@[simp] theorem pending_sendReply (a : Nat) (r : Reply) : (sendReply s a r).pending = s.pending := rfl
@[simp] theorem slc_stations_sendReply (a : Nat) (r : Reply) : (sendReply s a r).slc.stations = s.slc.stations := rfl
@[simp] theorem slc_pollList_sendReply (a : Nat) (r : Reply) : (sendReply s a r).slc.pollList = s.slc.pollList := rfl
@[simp] theorem slc_cursor_sendReply (a : Nat) (r : Reply) : (sendReply s a r).slc.cursor = s.slc.cursor := rfl
@[simp] theorem slc_bitRate_sendReply (a : Nat) (r : Reply) : (sendReply s a r).slc.bitRate = s.slc.bitRate := rfl
@[simp] theorem slc_window_sendReply (a : Nat) (r : Reply) : (sendReply s a r).slc.window = s.slc.window := rfl
@[simp] theorem slc_waiting_sendReply (a : Nat) (r : Reply) : (sendReply s a r).slc.waiting = s.slc.waiting := rfl
@[simp] theorem record_sendReply (a : Nat) (r : Reply) (j : Nat) : (sendReply s a r).record j = s.record j := rfl
@[simp] theorem slot_sendReply (a : Nat) (r : Reply) (j : Nat) : (sendReply s a r).slot j = s.slot j := rfl
@[simp] theorem bed_sendReply (a : Nat) (r : Reply) (j : Nat) : (sendReply s a r).bed j = s.bed j := rfl
@[simp] theorem hook_sendReply (a : Nat) (r : Reply) (j : Nat) : (sendReply s a r).hook j = s.hook j := rfl
@[simp] theorem table_sendReply (a : Nat) (r : Reply) (j : Nat) : (sendReply s a r).table j = s.table j := rfl
@[simp] theorem zone_sendReply (a : Nat) (r : Reply) (j : Nat) : (sendReply s a r).zone j = s.zone j := rfl
@[simp] theorem marks_sendReply (a : Nat) (r : Reply) (j : Nat) : (sendReply s a r).marks j = s.marks j := rfl
@[simp] theorem burn_sendReply (a : Nat) (r : Reply) (j : Nat) : (sendReply s a r).burn j = s.burn j := rfl
@[simp] theorem grantHeld_sendReply (a : Nat) (r : Reply) (j : Nat) :
    (sendReply s a r).grantHeld j = s.grantHeld j :=
    rfl
@[simp] theorem monitor_sendReply (a : Nat) (r : Reply) (j : Nat) : (sendReply s a r).monitor j = s.monitor j := rfl
@[simp] theorem torch_sendReply (a : Nat) (r : Reply) (j : Nat) : (sendReply s a r).torch j = s.torch j := rfl
@[simp] theorem channel_sendReply (a : Nat) (r : Reply) (j : Nat) : (sendReply s a r).channel j = s.channel j := rfl
@[simp] theorem axis_sendReply (a : Nat) (r : Reply) (j : Nat) : (sendReply s a r).axis j = s.axis j := rfl
@[simp] theorem hoist_sendReply (a : Nat) (r : Reply) (j : Nat) : (sendReply s a r).hoist j = s.hoist j := rfl
@[simp] theorem crane_sendReply (a : Nat) (r : Reply) (j : Nat) : (sendReply s a r).crane j = s.crane j := rfl
@[simp] theorem pair_sendReply (a : Nat) (r : Reply) (j : Nat) : (sendReply s a r).pair j = s.pair j := rfl
@[simp] theorem intruders_sendReply (a : Nat) (r : Reply) (j : Nat) :
    (sendReply s a r).intruders j = s.intruders j :=
    rfl
@[simp] theorem queue_sendReply (a : Nat) (r : Reply) (j : Nat) : (sendReply s a r).queue j = s.queue j := rfl
@[simp] theorem endedMove_sendReply (a : Nat) (r : Reply) (j : Nat) :
    (sendReply s a r).endedMove j = s.endedMove j :=
    rfl
@[simp] theorem station_sendReply (a : Nat) (r : Reply) (j : Nat) : (sendReply s a r).station j = s.station j := rfl
@[simp] theorem notice_sendReply (a : Nat) (r : Reply) (j : Nat) : (sendReply s a r).notice j = s.notice j := rfl
@[simp] theorem sampled_sendReply (a : Nat) (r : Reply) (j : Nat) : (sendReply s a r).sampled j = s.sampled j := rfl
@[simp] theorem piece?_sendReply (a : Nat) (r : Reply) (x : Handle) : (sendReply s a r).piece? x = s.piece? x := rfl

/-! ## endTurn -/

@[simp] theorem srg_endTurn : (endTurn s).srg = s.srg := by unfold endTurn applyWaiting; split <;> rfl
@[simp] theorem lmap_endTurn : (endTurn s).lmap = s.lmap := by unfold endTurn applyWaiting; split <;> rfl
@[simp] theorem fse_endTurn : (endTurn s).fse = s.fse := by unfold endTurn applyWaiting; split <;> rfl
@[simp] theorem tbc_endTurn : (endTurn s).tbc = s.tbc := by unfold endTurn applyWaiting; split <;> rfl
@[simp] theorem mkd_endTurn : (endTurn s).mkd = s.mkd := by unfold endTurn applyWaiting; split <;> rfl
@[simp] theorem bsv_endTurn : (endTurn s).bsv = s.bsv := by unfold endTurn applyWaiting; split <;> rfl
@[simp] theorem rsu_endTurn : (endTurn s).rsu = s.rsu := by unfold endTurn applyWaiting; split <;> rfl
@[simp] theorem clu_endTurn : (endTurn s).clu = s.clu := by unfold endTurn applyWaiting; split <;> rfl
@[simp] theorem mvc_endTurn : (endTurn s).mvc = s.mvc := by unfold endTurn applyWaiting; split <;> rfl
@[simp] theorem ppn_endTurn : (endTurn s).ppn = s.ppn := by unfold endTurn applyWaiting; split <;> rfl
@[simp] theorem pending_endTurn : (endTurn s).pending = s.pending := by unfold endTurn applyWaiting; split <;> rfl
@[simp] theorem slc_stations_endTurn :
    (endTurn s).slc.stations = s.slc.stations :=
    by unfold endTurn applyWaiting; split <;> rfl
@[simp] theorem record_endTurn (j : Nat) :
    (endTurn s).record j = s.record j :=
    by simp only [State.record, srg_endTurn]
@[simp] theorem slot_endTurn (j : Nat) : (endTurn s).slot j = s.slot j := by simp only [State.slot, lmap_endTurn]
@[simp] theorem bed_endTurn (j : Nat) : (endTurn s).bed j = s.bed j := by simp only [State.bed, lmap_endTurn]
@[simp] theorem hook_endTurn (j : Nat) : (endTurn s).hook j = s.hook j := by simp only [State.hook, lmap_endTurn]
@[simp] theorem table_endTurn (j : Nat) : (endTurn s).table j = s.table j := by simp only [State.table, tbc_endTurn]
@[simp] theorem zone_endTurn (j : Nat) : (endTurn s).zone j = s.zone j := by simp only [State.zone, tbc_endTurn]
@[simp] theorem marks_endTurn (j : Nat) : (endTurn s).marks j = s.marks j := by simp only [State.marks, mkd_endTurn]
@[simp] theorem burn_endTurn (j : Nat) : (endTurn s).burn j = s.burn j := by simp only [State.burn, bsv_endTurn]
@[simp] theorem grantHeld_endTurn (j : Nat) :
    (endTurn s).grantHeld j = s.grantHeld j :=
    by simp only [State.grantHeld, bsv_endTurn]
@[simp] theorem monitor_endTurn (j : Nat) :
    (endTurn s).monitor j = s.monitor j :=
    by simp only [State.monitor, bsv_endTurn]
@[simp] theorem torch_endTurn (j : Nat) : (endTurn s).torch j = s.torch j := by simp only [State.torch, bsv_endTurn]
@[simp] theorem channel_endTurn (j : Nat) :
    (endTurn s).channel j = s.channel j :=
    by simp only [State.channel, rsu_endTurn]
@[simp] theorem axis_endTurn (j : Nat) : (endTurn s).axis j = s.axis j := by simp only [State.axis, rsu_endTurn]
@[simp] theorem hoist_endTurn (j : Nat) : (endTurn s).hoist j = s.hoist j := by simp only [State.hoist, rsu_endTurn]
@[simp] theorem crane_endTurn (j : Nat) : (endTurn s).crane j = s.crane j := by simp only [State.crane, clu_endTurn]
@[simp] theorem pair_endTurn (j : Nat) : (endTurn s).pair j = s.pair j := by simp only [State.pair, clu_endTurn]
@[simp] theorem intruders_endTurn (j : Nat) :
    (endTurn s).intruders j = s.intruders j :=
    by simp only [State.intruders, clu_endTurn]
@[simp] theorem queue_endTurn (j : Nat) : (endTurn s).queue j = s.queue j := by simp only [State.queue, mvc_endTurn]
@[simp] theorem endedMove_endTurn (j : Nat) :
    (endTurn s).endedMove j = s.endedMove j :=
    by simp only [State.endedMove, mvc_endTurn]
@[simp] theorem station_endTurn (j : Nat) :
    (endTurn s).station j = s.station j :=
    by simp only [State.station, slc_stations_endTurn]
@[simp] theorem notice_endTurn (j : Nat) :
    (endTurn s).notice j = s.notice j :=
    by simp only [State.notice, ppn_endTurn]
@[simp] theorem sampled_endTurn (j : Nat) :
    (endTurn s).sampled j = s.sampled j :=
    by simp only [State.sampled, rsu_endTurn]
@[simp] theorem piece?_endTurn (x : Handle) :
    (endTurn s).piece? x = s.piece? x :=
    by simp only [State.piece?, record_endTurn]

/-! ## answering -/

@[simp] theorem srg_answering (a : Nat) :
    (answering s a).srg = s.srg :=
    by unfold answering; dsimp only; split <;> rfl
@[simp] theorem lmap_answering (a : Nat) :
    (answering s a).lmap = s.lmap :=
    by unfold answering; dsimp only; split <;> rfl
@[simp] theorem fse_answering (a : Nat) :
    (answering s a).fse = s.fse :=
    by unfold answering; dsimp only; split <;> rfl
@[simp] theorem tbc_answering (a : Nat) :
    (answering s a).tbc = s.tbc :=
    by unfold answering; dsimp only; split <;> rfl
@[simp] theorem mkd_answering (a : Nat) :
    (answering s a).mkd = s.mkd :=
    by unfold answering; dsimp only; split <;> rfl
@[simp] theorem bsv_answering (a : Nat) :
    (answering s a).bsv = s.bsv :=
    by unfold answering; dsimp only; split <;> rfl
@[simp] theorem rsu_answering (a : Nat) :
    (answering s a).rsu = s.rsu :=
    by unfold answering; dsimp only; split <;> rfl
@[simp] theorem clu_answering (a : Nat) :
    (answering s a).clu = s.clu :=
    by unfold answering; dsimp only; split <;> rfl
@[simp] theorem mvc_answering (a : Nat) :
    (answering s a).mvc = s.mvc :=
    by unfold answering; dsimp only; split <;> rfl
@[simp] theorem pending_answering (a : Nat) :
    (answering s a).pending = s.pending :=
    by unfold answering; dsimp only; split <;> rfl
@[simp] theorem slc_pollList_answering (a : Nat) :
    (answering s a).slc.pollList = s.slc.pollList :=
    by unfold answering; dsimp only; split <;> rfl
@[simp] theorem slc_cursor_answering (a : Nat) :
    (answering s a).slc.cursor = s.slc.cursor :=
    by unfold answering; dsimp only; split <;> rfl
@[simp] theorem slc_bitRate_answering (a : Nat) :
    (answering s a).slc.bitRate = s.slc.bitRate :=
    by unfold answering; dsimp only; split <;> rfl
@[simp] theorem slc_window_answering (a : Nat) :
    (answering s a).slc.window = s.slc.window :=
    by unfold answering; dsimp only; split <;> rfl
@[simp] theorem slc_waiting_answering (a : Nat) :
    (answering s a).slc.waiting = s.slc.waiting :=
    by unfold answering; dsimp only; split <;> rfl
@[simp] theorem slc_turn_answering (a : Nat) :
    (answering s a).slc.turn = s.slc.turn :=
    by unfold answering; dsimp only; split <;> rfl
@[simp] theorem ppn_reply_answering (a : Nat) :
    (answering s a).ppn.reply = s.ppn.reply :=
    by unfold answering; dsimp only; split <;> rfl
@[simp] theorem ppn_mask_answering (a : Nat) :
    (answering s a).ppn.mask = s.ppn.mask :=
    by unfold answering; dsimp only; split <;> rfl
@[simp] theorem ppn_mode_answering (a : Nat) :
    (answering s a).ppn.mode = s.ppn.mode :=
    by unfold answering; dsimp only; split <;> rfl
@[simp] theorem ppn_stopInput_answering (a : Nat) :
    (answering s a).ppn.stopInput = s.ppn.stopInput :=
    by unfold answering; dsimp only; split <;> rfl
@[simp] theorem record_answering (a : Nat) (j : Nat) :
    (answering s a).record j = s.record j :=
    by simp only [State.record, srg_answering]
@[simp] theorem slot_answering (a : Nat) (j : Nat) :
    (answering s a).slot j = s.slot j :=
    by simp only [State.slot, lmap_answering]
@[simp] theorem bed_answering (a : Nat) (j : Nat) :
    (answering s a).bed j = s.bed j :=
    by simp only [State.bed, lmap_answering]
@[simp] theorem hook_answering (a : Nat) (j : Nat) :
    (answering s a).hook j = s.hook j :=
    by simp only [State.hook, lmap_answering]
@[simp] theorem table_answering (a : Nat) (j : Nat) :
    (answering s a).table j = s.table j :=
    by simp only [State.table, tbc_answering]
@[simp] theorem zone_answering (a : Nat) (j : Nat) :
    (answering s a).zone j = s.zone j :=
    by simp only [State.zone, tbc_answering]
@[simp] theorem marks_answering (a : Nat) (j : Nat) :
    (answering s a).marks j = s.marks j :=
    by simp only [State.marks, mkd_answering]
@[simp] theorem burn_answering (a : Nat) (j : Nat) :
    (answering s a).burn j = s.burn j :=
    by simp only [State.burn, bsv_answering]
@[simp] theorem grantHeld_answering (a : Nat) (j : Nat) :
    (answering s a).grantHeld j = s.grantHeld j :=
    by simp only [State.grantHeld, bsv_answering]
@[simp] theorem monitor_answering (a : Nat) (j : Nat) :
    (answering s a).monitor j = s.monitor j :=
    by simp only [State.monitor, bsv_answering]
@[simp] theorem torch_answering (a : Nat) (j : Nat) :
    (answering s a).torch j = s.torch j :=
    by simp only [State.torch, bsv_answering]
@[simp] theorem channel_answering (a : Nat) (j : Nat) :
    (answering s a).channel j = s.channel j :=
    by simp only [State.channel, rsu_answering]
@[simp] theorem axis_answering (a : Nat) (j : Nat) :
    (answering s a).axis j = s.axis j :=
    by simp only [State.axis, rsu_answering]
@[simp] theorem hoist_answering (a : Nat) (j : Nat) :
    (answering s a).hoist j = s.hoist j :=
    by simp only [State.hoist, rsu_answering]
@[simp] theorem crane_answering (a : Nat) (j : Nat) :
    (answering s a).crane j = s.crane j :=
    by simp only [State.crane, clu_answering]
@[simp] theorem pair_answering (a : Nat) (j : Nat) :
    (answering s a).pair j = s.pair j :=
    by simp only [State.pair, clu_answering]
@[simp] theorem intruders_answering (a : Nat) (j : Nat) :
    (answering s a).intruders j = s.intruders j :=
    by simp only [State.intruders, clu_answering]
@[simp] theorem queue_answering (a : Nat) (j : Nat) :
    (answering s a).queue j = s.queue j :=
    by simp only [State.queue, mvc_answering]
@[simp] theorem endedMove_answering (a : Nat) (j : Nat) :
    (answering s a).endedMove j = s.endedMove j :=
    by simp only [State.endedMove, mvc_answering]
@[simp] theorem sampled_answering (a : Nat) (j : Nat) :
    (answering s a).sampled j = s.sampled j :=
    by simp only [State.sampled, rsu_answering]
@[simp] theorem piece?_answering (a : Nat) (x : Handle) :
    (answering s a).piece? x = s.piece? x :=
    by simp only [State.piece?, record_answering]

/-! ## joinPlace -/

@[simp] theorem srg_joinPlace (pl : Place) (h : Handle) (t : Nat) :
    (joinPlace s pl h t).srg = s.srg :=
    by cases pl <;> rfl
@[simp] theorem fse_joinPlace (pl : Place) (h : Handle) (t : Nat) :
    (joinPlace s pl h t).fse = s.fse :=
    by cases pl <;> rfl
@[simp] theorem tbc_joinPlace (pl : Place) (h : Handle) (t : Nat) :
    (joinPlace s pl h t).tbc = s.tbc :=
    by cases pl <;> rfl
@[simp] theorem mkd_joinPlace (pl : Place) (h : Handle) (t : Nat) :
    (joinPlace s pl h t).mkd = s.mkd :=
    by cases pl <;> rfl
@[simp] theorem bsv_joinPlace (pl : Place) (h : Handle) (t : Nat) :
    (joinPlace s pl h t).bsv = s.bsv :=
    by cases pl <;> rfl
@[simp] theorem rsu_joinPlace (pl : Place) (h : Handle) (t : Nat) :
    (joinPlace s pl h t).rsu = s.rsu :=
    by cases pl <;> rfl
@[simp] theorem clu_joinPlace (pl : Place) (h : Handle) (t : Nat) :
    (joinPlace s pl h t).clu = s.clu :=
    by cases pl <;> rfl
@[simp] theorem mvc_joinPlace (pl : Place) (h : Handle) (t : Nat) :
    (joinPlace s pl h t).mvc = s.mvc :=
    by cases pl <;> rfl
@[simp] theorem slc_joinPlace (pl : Place) (h : Handle) (t : Nat) :
    (joinPlace s pl h t).slc = s.slc :=
    by cases pl <;> rfl
@[simp] theorem ppn_joinPlace (pl : Place) (h : Handle) (t : Nat) :
    (joinPlace s pl h t).ppn = s.ppn :=
    by cases pl <;> rfl
@[simp] theorem pending_joinPlace (pl : Place) (h : Handle) (t : Nat) :
    (joinPlace s pl h t).pending = s.pending :=
    by cases pl <;> rfl
@[simp] theorem lmap_recvX_joinPlace (pl : Place) (h : Handle) (t : Nat) :
    (joinPlace s pl h t).lmap.recvX = s.lmap.recvX :=
    by cases pl <;> rfl
@[simp] theorem lmap_recvY_joinPlace (pl : Place) (h : Handle) (t : Nat) :
    (joinPlace s pl h t).lmap.recvY = s.lmap.recvY :=
    by cases pl <;> rfl
@[simp] theorem record_joinPlace (pl : Place) (h : Handle) (t : Nat) (j : Nat) :
    (joinPlace s pl h t).record j = s.record j :=
    by simp only [State.record, srg_joinPlace]
@[simp] theorem table_joinPlace (pl : Place) (h : Handle) (t : Nat) (j : Nat) :
    (joinPlace s pl h t).table j = s.table j :=
    by simp only [State.table, tbc_joinPlace]
@[simp] theorem zone_joinPlace (pl : Place) (h : Handle) (t : Nat) (j : Nat) :
    (joinPlace s pl h t).zone j = s.zone j :=
    by simp only [State.zone, tbc_joinPlace]
@[simp] theorem marks_joinPlace (pl : Place) (h : Handle) (t : Nat) (j : Nat) :
    (joinPlace s pl h t).marks j = s.marks j :=
    by simp only [State.marks, mkd_joinPlace]
@[simp] theorem burn_joinPlace (pl : Place) (h : Handle) (t : Nat) (j : Nat) :
    (joinPlace s pl h t).burn j = s.burn j :=
    by simp only [State.burn, bsv_joinPlace]
@[simp] theorem grantHeld_joinPlace (pl : Place) (h : Handle) (t : Nat) (j : Nat) :
    (joinPlace s pl h t).grantHeld j = s.grantHeld j :=
    by simp only [State.grantHeld, bsv_joinPlace]
@[simp] theorem monitor_joinPlace (pl : Place) (h : Handle) (t : Nat) (j : Nat) :
    (joinPlace s pl h t).monitor j = s.monitor j :=
    by simp only [State.monitor, bsv_joinPlace]
@[simp] theorem torch_joinPlace (pl : Place) (h : Handle) (t : Nat) (j : Nat) :
    (joinPlace s pl h t).torch j = s.torch j :=
    by simp only [State.torch, bsv_joinPlace]
@[simp] theorem channel_joinPlace (pl : Place) (h : Handle) (t : Nat) (j : Nat) :
    (joinPlace s pl h t).channel j = s.channel j :=
    by simp only [State.channel, rsu_joinPlace]
@[simp] theorem axis_joinPlace (pl : Place) (h : Handle) (t : Nat) (j : Nat) :
    (joinPlace s pl h t).axis j = s.axis j :=
    by simp only [State.axis, rsu_joinPlace]
@[simp] theorem hoist_joinPlace (pl : Place) (h : Handle) (t : Nat) (j : Nat) :
    (joinPlace s pl h t).hoist j = s.hoist j :=
    by simp only [State.hoist, rsu_joinPlace]
@[simp] theorem crane_joinPlace (pl : Place) (h : Handle) (t : Nat) (j : Nat) :
    (joinPlace s pl h t).crane j = s.crane j :=
    by simp only [State.crane, clu_joinPlace]
@[simp] theorem pair_joinPlace (pl : Place) (h : Handle) (t : Nat) (j : Nat) :
    (joinPlace s pl h t).pair j = s.pair j :=
    by simp only [State.pair, clu_joinPlace]
@[simp] theorem intruders_joinPlace (pl : Place) (h : Handle) (t : Nat) (j : Nat) :
    (joinPlace s pl h t).intruders j = s.intruders j :=
    by simp only [State.intruders, clu_joinPlace]
@[simp] theorem queue_joinPlace (pl : Place) (h : Handle) (t : Nat) (j : Nat) :
    (joinPlace s pl h t).queue j = s.queue j :=
    by simp only [State.queue, mvc_joinPlace]
@[simp] theorem endedMove_joinPlace (pl : Place) (h : Handle) (t : Nat) (j : Nat) :
    (joinPlace s pl h t).endedMove j = s.endedMove j :=
    by simp only [State.endedMove, mvc_joinPlace]
@[simp] theorem station_joinPlace (pl : Place) (h : Handle) (t : Nat) (j : Nat) :
    (joinPlace s pl h t).station j = s.station j :=
    by simp only [State.station, slc_joinPlace]
@[simp] theorem notice_joinPlace (pl : Place) (h : Handle) (t : Nat) (j : Nat) :
    (joinPlace s pl h t).notice j = s.notice j :=
    by simp only [State.notice, ppn_joinPlace]
@[simp] theorem sampled_joinPlace (pl : Place) (h : Handle) (t : Nat) (j : Nat) :
    (joinPlace s pl h t).sampled j = s.sampled j :=
    by simp only [State.sampled, rsu_joinPlace]
@[simp] theorem piece?_joinPlace (pl : Place) (h : Handle) (t : Nat) (x : Handle) :
    (joinPlace s pl h t).piece? x = s.piece? x :=
    by simp only [State.piece?, record_joinPlace]

/-! ## leavePlace -/

@[simp] theorem srg_leavePlace (pl : Place) (h : Handle) (t : Nat) :
    (leavePlace s pl h t).srg = s.srg :=
    by cases pl <;> rfl
@[simp] theorem fse_leavePlace (pl : Place) (h : Handle) (t : Nat) :
    (leavePlace s pl h t).fse = s.fse :=
    by cases pl <;> rfl
@[simp] theorem tbc_leavePlace (pl : Place) (h : Handle) (t : Nat) :
    (leavePlace s pl h t).tbc = s.tbc :=
    by cases pl <;> rfl
@[simp] theorem mkd_leavePlace (pl : Place) (h : Handle) (t : Nat) :
    (leavePlace s pl h t).mkd = s.mkd :=
    by cases pl <;> rfl
@[simp] theorem bsv_leavePlace (pl : Place) (h : Handle) (t : Nat) :
    (leavePlace s pl h t).bsv = s.bsv :=
    by cases pl <;> rfl
@[simp] theorem rsu_leavePlace (pl : Place) (h : Handle) (t : Nat) :
    (leavePlace s pl h t).rsu = s.rsu :=
    by cases pl <;> rfl
@[simp] theorem clu_leavePlace (pl : Place) (h : Handle) (t : Nat) :
    (leavePlace s pl h t).clu = s.clu :=
    by cases pl <;> rfl
@[simp] theorem mvc_leavePlace (pl : Place) (h : Handle) (t : Nat) :
    (leavePlace s pl h t).mvc = s.mvc :=
    by cases pl <;> rfl
@[simp] theorem slc_leavePlace (pl : Place) (h : Handle) (t : Nat) :
    (leavePlace s pl h t).slc = s.slc :=
    by cases pl <;> rfl
@[simp] theorem ppn_leavePlace (pl : Place) (h : Handle) (t : Nat) :
    (leavePlace s pl h t).ppn = s.ppn :=
    by cases pl <;> rfl
@[simp] theorem pending_leavePlace (pl : Place) (h : Handle) (t : Nat) :
    (leavePlace s pl h t).pending = s.pending :=
    by cases pl <;> rfl
@[simp] theorem lmap_recvX_leavePlace (pl : Place) (h : Handle) (t : Nat) :
    (leavePlace s pl h t).lmap.recvX = s.lmap.recvX :=
    by cases pl <;> rfl
@[simp] theorem lmap_recvY_leavePlace (pl : Place) (h : Handle) (t : Nat) :
    (leavePlace s pl h t).lmap.recvY = s.lmap.recvY :=
    by cases pl <;> rfl
@[simp] theorem record_leavePlace (pl : Place) (h : Handle) (t : Nat) (j : Nat) :
    (leavePlace s pl h t).record j = s.record j :=
    by simp only [State.record, srg_leavePlace]
@[simp] theorem table_leavePlace (pl : Place) (h : Handle) (t : Nat) (j : Nat) :
    (leavePlace s pl h t).table j = s.table j :=
    by simp only [State.table, tbc_leavePlace]
@[simp] theorem zone_leavePlace (pl : Place) (h : Handle) (t : Nat) (j : Nat) :
    (leavePlace s pl h t).zone j = s.zone j :=
    by simp only [State.zone, tbc_leavePlace]
@[simp] theorem marks_leavePlace (pl : Place) (h : Handle) (t : Nat) (j : Nat) :
    (leavePlace s pl h t).marks j = s.marks j :=
    by simp only [State.marks, mkd_leavePlace]
@[simp] theorem burn_leavePlace (pl : Place) (h : Handle) (t : Nat) (j : Nat) :
    (leavePlace s pl h t).burn j = s.burn j :=
    by simp only [State.burn, bsv_leavePlace]
@[simp] theorem grantHeld_leavePlace (pl : Place) (h : Handle) (t : Nat) (j : Nat) :
    (leavePlace s pl h t).grantHeld j = s.grantHeld j :=
    by simp only [State.grantHeld, bsv_leavePlace]
@[simp] theorem monitor_leavePlace (pl : Place) (h : Handle) (t : Nat) (j : Nat) :
    (leavePlace s pl h t).monitor j = s.monitor j :=
    by simp only [State.monitor, bsv_leavePlace]
@[simp] theorem torch_leavePlace (pl : Place) (h : Handle) (t : Nat) (j : Nat) :
    (leavePlace s pl h t).torch j = s.torch j :=
    by simp only [State.torch, bsv_leavePlace]
@[simp] theorem channel_leavePlace (pl : Place) (h : Handle) (t : Nat) (j : Nat) :
    (leavePlace s pl h t).channel j = s.channel j :=
    by simp only [State.channel, rsu_leavePlace]
@[simp] theorem axis_leavePlace (pl : Place) (h : Handle) (t : Nat) (j : Nat) :
    (leavePlace s pl h t).axis j = s.axis j :=
    by simp only [State.axis, rsu_leavePlace]
@[simp] theorem hoist_leavePlace (pl : Place) (h : Handle) (t : Nat) (j : Nat) :
    (leavePlace s pl h t).hoist j = s.hoist j :=
    by simp only [State.hoist, rsu_leavePlace]
@[simp] theorem crane_leavePlace (pl : Place) (h : Handle) (t : Nat) (j : Nat) :
    (leavePlace s pl h t).crane j = s.crane j :=
    by simp only [State.crane, clu_leavePlace]
@[simp] theorem pair_leavePlace (pl : Place) (h : Handle) (t : Nat) (j : Nat) :
    (leavePlace s pl h t).pair j = s.pair j :=
    by simp only [State.pair, clu_leavePlace]
@[simp] theorem intruders_leavePlace (pl : Place) (h : Handle) (t : Nat) (j : Nat) :
    (leavePlace s pl h t).intruders j = s.intruders j :=
    by simp only [State.intruders, clu_leavePlace]
@[simp] theorem queue_leavePlace (pl : Place) (h : Handle) (t : Nat) (j : Nat) :
    (leavePlace s pl h t).queue j = s.queue j :=
    by simp only [State.queue, mvc_leavePlace]
@[simp] theorem endedMove_leavePlace (pl : Place) (h : Handle) (t : Nat) (j : Nat) :
    (leavePlace s pl h t).endedMove j = s.endedMove j :=
    by simp only [State.endedMove, mvc_leavePlace]
@[simp] theorem station_leavePlace (pl : Place) (h : Handle) (t : Nat) (j : Nat) :
    (leavePlace s pl h t).station j = s.station j :=
    by simp only [State.station, slc_leavePlace]
@[simp] theorem notice_leavePlace (pl : Place) (h : Handle) (t : Nat) (j : Nat) :
    (leavePlace s pl h t).notice j = s.notice j :=
    by simp only [State.notice, ppn_leavePlace]
@[simp] theorem sampled_leavePlace (pl : Place) (h : Handle) (t : Nat) (j : Nat) :
    (leavePlace s pl h t).sampled j = s.sampled j :=
    by simp only [State.sampled, rsu_leavePlace]
@[simp] theorem piece?_leavePlace (pl : Place) (h : Handle) (t : Nat) (x : Handle) :
    (leavePlace s pl h t).piece? x = s.piece? x :=
    by simp only [State.piece?, record_leavePlace]

/-- A delete keeps the records and the counters. -/
theorem dirDelete_keeps (g : Srg) (k : Key) :
    (dirDelete g k).records = g.records ∧ (dirDelete g k).creation = g.creation ∧
      (dirDelete g k).remnant = g.remnant := by
  unfold dirDelete; dsimp only; repeat' split
  all_goals simp [setDirEntry, setSpillGroup]

/-! ## retire -/

@[simp] theorem fse_retire (h : Handle) :
    (retire s h).fse = s.fse :=
    by unfold retire; split <;> simp [dirDelete_keeps]
@[simp] theorem tbc_retire (h : Handle) :
    (retire s h).tbc = s.tbc :=
    by unfold retire; split <;> simp [dirDelete_keeps]
@[simp] theorem mkd_retire (h : Handle) :
    (retire s h).mkd = s.mkd :=
    by unfold retire; split <;> simp [dirDelete_keeps]
@[simp] theorem bsv_retire (h : Handle) :
    (retire s h).bsv = s.bsv :=
    by unfold retire; split <;> simp [dirDelete_keeps]
@[simp] theorem rsu_retire (h : Handle) :
    (retire s h).rsu = s.rsu :=
    by unfold retire; split <;> simp [dirDelete_keeps]
@[simp] theorem clu_retire (h : Handle) :
    (retire s h).clu = s.clu :=
    by unfold retire; split <;> simp [dirDelete_keeps]
@[simp] theorem mvc_retire (h : Handle) :
    (retire s h).mvc = s.mvc :=
    by unfold retire; split <;> simp [dirDelete_keeps]
@[simp] theorem slc_retire (h : Handle) :
    (retire s h).slc = s.slc :=
    by unfold retire; split <;> simp [dirDelete_keeps]
@[simp] theorem ppn_retire (h : Handle) :
    (retire s h).ppn = s.ppn :=
    by unfold retire; split <;> simp [dirDelete_keeps]
@[simp] theorem pending_retire (h : Handle) :
    (retire s h).pending = s.pending :=
    by unfold retire; split <;> simp [dirDelete_keeps]
@[simp] theorem srg_creation_retire (h : Handle) :
    (retire s h).srg.creation = s.srg.creation :=
    by unfold retire; split <;> simp [dirDelete_keeps]
@[simp] theorem srg_remnant_retire (h : Handle) :
    (retire s h).srg.remnant = s.srg.remnant :=
    by unfold retire; split <;> simp [dirDelete_keeps]
@[simp] theorem lmap_recvX_retire (h : Handle) :
    (retire s h).lmap.recvX = s.lmap.recvX :=
    by unfold retire; split <;> simp [dirDelete_keeps]
@[simp] theorem lmap_recvY_retire (h : Handle) :
    (retire s h).lmap.recvY = s.lmap.recvY :=
    by unfold retire; split <;> simp [dirDelete_keeps]

/-! ## activate -/

@[simp] theorem lmap_activate (z : Nat) : (activate s z).lmap = s.lmap := by unfold activate; split <;> simp
@[simp] theorem fse_activate (z : Nat) : (activate s z).fse = s.fse := by unfold activate; split <;> simp
@[simp] theorem mkd_activate (z : Nat) : (activate s z).mkd = s.mkd := by unfold activate; split <;> simp
@[simp] theorem bsv_activate (z : Nat) : (activate s z).bsv = s.bsv := by unfold activate; split <;> simp
@[simp] theorem rsu_activate (z : Nat) : (activate s z).rsu = s.rsu := by unfold activate; split <;> simp
@[simp] theorem clu_activate (z : Nat) : (activate s z).clu = s.clu := by unfold activate; split <;> simp
@[simp] theorem mvc_activate (z : Nat) : (activate s z).mvc = s.mvc := by unfold activate; split <;> simp
@[simp] theorem slc_activate (z : Nat) : (activate s z).slc = s.slc := by unfold activate; split <;> simp
@[simp] theorem ppn_activate (z : Nat) : (activate s z).ppn = s.ppn := by unfold activate; split <;> simp
@[simp] theorem pending_activate (z : Nat) : (activate s z).pending = s.pending := by unfold activate; split <;> simp
@[simp] theorem srg_primary_activate (z : Nat) :
    (activate s z).srg.primary = s.srg.primary :=
    by unfold activate; split <;> simp
@[simp] theorem srg_groups_activate (z : Nat) :
    (activate s z).srg.groups = s.srg.groups :=
    by unfold activate; split <;> simp
@[simp] theorem srg_creation_activate (z : Nat) :
    (activate s z).srg.creation = s.srg.creation :=
    by unfold activate; split <;> simp
@[simp] theorem srg_remnant_activate (z : Nat) :
    (activate s z).srg.remnant = s.srg.remnant :=
    by unfold activate; split <;> simp

/-! ## switchTo -/

@[simp] theorem lmap_switchTo (z : Nat) : (switchTo s z).lmap = s.lmap := by unfold switchTo; simp
@[simp] theorem fse_switchTo (z : Nat) : (switchTo s z).fse = s.fse := by unfold switchTo; simp
@[simp] theorem mkd_switchTo (z : Nat) : (switchTo s z).mkd = s.mkd := by unfold switchTo; simp
@[simp] theorem bsv_switchTo (z : Nat) : (switchTo s z).bsv = s.bsv := by unfold switchTo; simp
@[simp] theorem rsu_switchTo (z : Nat) : (switchTo s z).rsu = s.rsu := by unfold switchTo; simp
@[simp] theorem clu_switchTo (z : Nat) : (switchTo s z).clu = s.clu := by unfold switchTo; simp
@[simp] theorem mvc_switchTo (z : Nat) : (switchTo s z).mvc = s.mvc := by unfold switchTo; simp
@[simp] theorem slc_switchTo (z : Nat) : (switchTo s z).slc = s.slc := by unfold switchTo; simp
@[simp] theorem pending_switchTo (z : Nat) : (switchTo s z).pending = s.pending := by unfold switchTo; simp
@[simp] theorem srg_primary_switchTo (z : Nat) :
    (switchTo s z).srg.primary = s.srg.primary :=
    by unfold switchTo; simp
@[simp] theorem srg_groups_switchTo (z : Nat) : (switchTo s z).srg.groups = s.srg.groups := by unfold switchTo; simp
@[simp] theorem srg_creation_switchTo (z : Nat) :
    (switchTo s z).srg.creation = s.srg.creation :=
    by unfold switchTo; simp
@[simp] theorem srg_remnant_switchTo (z : Nat) :
    (switchTo s z).srg.remnant = s.srg.remnant :=
    by unfold switchTo; simp
@[simp] theorem ppn_reply_switchTo (z : Nat) : (switchTo s z).ppn.reply = s.ppn.reply := by unfold switchTo; simp
@[simp] theorem ppn_mask_switchTo (z : Nat) : (switchTo s z).ppn.mask = s.ppn.mask := by unfold switchTo; simp
@[simp] theorem ppn_mode_switchTo (z : Nat) : (switchTo s z).ppn.mode = s.ppn.mode := by unfold switchTo; simp
@[simp] theorem ppn_stopInput_switchTo (z : Nat) :
    (switchTo s z).ppn.stopInput = s.ppn.stopInput :=
    by unfold switchTo; simp

/-! ## pendingStart -/

@[simp] theorem lmap_pendingStart (t : Nat) : (pendingStart s t).lmap = s.lmap := by
  unfold pendingStart; repeat' split
  all_goals simp
@[simp] theorem fse_pendingStart (t : Nat) : (pendingStart s t).fse = s.fse := by
  unfold pendingStart; repeat' split
  all_goals simp
@[simp] theorem mkd_pendingStart (t : Nat) : (pendingStart s t).mkd = s.mkd := by
  unfold pendingStart; repeat' split
  all_goals simp
@[simp] theorem bsv_pendingStart (t : Nat) : (pendingStart s t).bsv = s.bsv := by
  unfold pendingStart; repeat' split
  all_goals simp
@[simp] theorem rsu_pendingStart (t : Nat) : (pendingStart s t).rsu = s.rsu := by
  unfold pendingStart; repeat' split
  all_goals simp
@[simp] theorem clu_pendingStart (t : Nat) : (pendingStart s t).clu = s.clu := by
  unfold pendingStart; repeat' split
  all_goals simp
@[simp] theorem mvc_pendingStart (t : Nat) : (pendingStart s t).mvc = s.mvc := by
  unfold pendingStart; repeat' split
  all_goals simp
@[simp] theorem slc_pendingStart (t : Nat) : (pendingStart s t).slc = s.slc := by
  unfold pendingStart; repeat' split
  all_goals simp
@[simp] theorem pending_pendingStart (t : Nat) : (pendingStart s t).pending = s.pending := by
  unfold pendingStart; repeat' split
  all_goals simp
@[simp] theorem srg_primary_pendingStart (t : Nat) : (pendingStart s t).srg.primary = s.srg.primary := by
  unfold pendingStart; repeat' split
  all_goals simp
@[simp] theorem srg_groups_pendingStart (t : Nat) : (pendingStart s t).srg.groups = s.srg.groups := by
  unfold pendingStart; repeat' split
  all_goals simp
@[simp] theorem srg_creation_pendingStart (t : Nat) : (pendingStart s t).srg.creation = s.srg.creation := by
  unfold pendingStart; repeat' split
  all_goals simp
@[simp] theorem srg_remnant_pendingStart (t : Nat) : (pendingStart s t).srg.remnant = s.srg.remnant := by
  unfold pendingStart; repeat' split
  all_goals simp
@[simp] theorem ppn_reply_pendingStart (t : Nat) : (pendingStart s t).ppn.reply = s.ppn.reply := by
  unfold pendingStart; repeat' split
  all_goals simp
@[simp] theorem ppn_mask_pendingStart (t : Nat) : (pendingStart s t).ppn.mask = s.ppn.mask := by
  unfold pendingStart; repeat' split
  all_goals simp
@[simp] theorem ppn_mode_pendingStart (t : Nat) : (pendingStart s t).ppn.mode = s.ppn.mode := by
  unfold pendingStart; repeat' split
  all_goals simp
@[simp] theorem ppn_stopInput_pendingStart (t : Nat) : (pendingStart s t).ppn.stopInput = s.ppn.stopInput := by
  unfold pendingStart; repeat' split
  all_goals simp

/-! ## monitorTold -/

@[simp] theorem srg_monitorTold (t : Nat) :
    (monitorTold s t).srg = s.srg :=
    by unfold monitorTold; dsimp only; split <;> rfl
@[simp] theorem lmap_monitorTold (t : Nat) :
    (monitorTold s t).lmap = s.lmap :=
    by unfold monitorTold; dsimp only; split <;> rfl
@[simp] theorem fse_monitorTold (t : Nat) :
    (monitorTold s t).fse = s.fse :=
    by unfold monitorTold; dsimp only; split <;> rfl
@[simp] theorem tbc_monitorTold (t : Nat) :
    (monitorTold s t).tbc = s.tbc :=
    by unfold monitorTold; dsimp only; split <;> rfl
@[simp] theorem mkd_monitorTold (t : Nat) :
    (monitorTold s t).mkd = s.mkd :=
    by unfold monitorTold; dsimp only; split <;> rfl
@[simp] theorem rsu_monitorTold (t : Nat) :
    (monitorTold s t).rsu = s.rsu :=
    by unfold monitorTold; dsimp only; split <;> rfl
@[simp] theorem clu_monitorTold (t : Nat) :
    (monitorTold s t).clu = s.clu :=
    by unfold monitorTold; dsimp only; split <;> rfl
@[simp] theorem mvc_monitorTold (t : Nat) :
    (monitorTold s t).mvc = s.mvc :=
    by unfold monitorTold; dsimp only; split <;> rfl
@[simp] theorem slc_monitorTold (t : Nat) :
    (monitorTold s t).slc = s.slc :=
    by unfold monitorTold; dsimp only; split <;> rfl
@[simp] theorem ppn_monitorTold (t : Nat) :
    (monitorTold s t).ppn = s.ppn :=
    by unfold monitorTold; dsimp only; split <;> rfl
@[simp] theorem pending_monitorTold (t : Nat) :
    (monitorTold s t).pending = s.pending :=
    by unfold monitorTold; dsimp only; split <;> rfl
@[simp] theorem bsv_burns_monitorTold (t : Nat) :
    (monitorTold s t).bsv.burns = s.bsv.burns :=
    by unfold monitorTold; dsimp only; split <;> rfl
@[simp] theorem bsv_grantHeld_monitorTold (t : Nat) :
    (monitorTold s t).bsv.grantHeld = s.bsv.grantHeld :=
    by unfold monitorTold; dsimp only; split <;> rfl
@[simp] theorem bsv_torches_monitorTold (t : Nat) :
    (monitorTold s t).bsv.torches = s.bsv.torches :=
    by unfold monitorTold; dsimp only; split <;> rfl
@[simp] theorem bsv_pierceMin_monitorTold (t : Nat) :
    (monitorTold s t).bsv.pierceMin = s.bsv.pierceMin :=
    by unfold monitorTold; dsimp only; split <;> rfl
@[simp] theorem bsv_burnLimit_monitorTold (t : Nat) :
    (monitorTold s t).bsv.burnLimit = s.bsv.burnLimit :=
    by unfold monitorTold; dsimp only; split <;> rfl

/-! ## endGrant -/

@[simp] theorem srg_endGrant (t : Nat) (g : Grant) (e : GrantEnd) :
    (endGrant s t g e).srg = s.srg :=
    by unfold endGrant; simp
@[simp] theorem lmap_endGrant (t : Nat) (g : Grant) (e : GrantEnd) :
    (endGrant s t g e).lmap = s.lmap :=
    by unfold endGrant; simp
@[simp] theorem fse_endGrant (t : Nat) (g : Grant) (e : GrantEnd) :
    (endGrant s t g e).fse = s.fse :=
    by unfold endGrant; simp
@[simp] theorem tbc_endGrant (t : Nat) (g : Grant) (e : GrantEnd) :
    (endGrant s t g e).tbc = s.tbc :=
    by unfold endGrant; simp
@[simp] theorem mkd_endGrant (t : Nat) (g : Grant) (e : GrantEnd) :
    (endGrant s t g e).mkd = s.mkd :=
    by unfold endGrant; simp
@[simp] theorem rsu_endGrant (t : Nat) (g : Grant) (e : GrantEnd) :
    (endGrant s t g e).rsu = s.rsu :=
    by unfold endGrant; simp
@[simp] theorem clu_endGrant (t : Nat) (g : Grant) (e : GrantEnd) :
    (endGrant s t g e).clu = s.clu :=
    by unfold endGrant; simp
@[simp] theorem mvc_endGrant (t : Nat) (g : Grant) (e : GrantEnd) :
    (endGrant s t g e).mvc = s.mvc :=
    by unfold endGrant; simp
@[simp] theorem slc_endGrant (t : Nat) (g : Grant) (e : GrantEnd) :
    (endGrant s t g e).slc = s.slc :=
    by unfold endGrant; simp
@[simp] theorem ppn_endGrant (t : Nat) (g : Grant) (e : GrantEnd) :
    (endGrant s t g e).ppn = s.ppn :=
    by unfold endGrant; simp
@[simp] theorem pending_endGrant (t : Nat) (g : Grant) (e : GrantEnd) :
    (endGrant s t g e).pending = s.pending :=
    by unfold endGrant; simp
@[simp] theorem bsv_torches_endGrant (t : Nat) (g : Grant) (e : GrantEnd) :
    (endGrant s t g e).bsv.torches = s.bsv.torches :=
    by unfold endGrant; simp
@[simp] theorem bsv_pierceMin_endGrant (t : Nat) (g : Grant) (e : GrantEnd) :
    (endGrant s t g e).bsv.pierceMin = s.bsv.pierceMin :=
    by unfold endGrant; simp
@[simp] theorem bsv_burnLimit_endGrant (t : Nat) (g : Grant) (e : GrantEnd) :
    (endGrant s t g e).bsv.burnLimit = s.bsv.burnLimit :=
    by unfold endGrant; simp

/-! ## revoke -/

@[simp] theorem srg_revoke (t : Nat) (c : Cause) : (revoke s t c).srg = s.srg := by
  unfold revoke; split
  · rfl
  · cases c <;> simp
@[simp] theorem lmap_revoke (t : Nat) (c : Cause) : (revoke s t c).lmap = s.lmap := by
  unfold revoke; split
  · rfl
  · cases c <;> simp
@[simp] theorem fse_revoke (t : Nat) (c : Cause) : (revoke s t c).fse = s.fse := by
  unfold revoke; split
  · rfl
  · cases c <;> simp
@[simp] theorem mkd_revoke (t : Nat) (c : Cause) : (revoke s t c).mkd = s.mkd := by
  unfold revoke; split
  · rfl
  · cases c <;> simp
@[simp] theorem rsu_revoke (t : Nat) (c : Cause) : (revoke s t c).rsu = s.rsu := by
  unfold revoke; split
  · rfl
  · cases c <;> simp
@[simp] theorem clu_revoke (t : Nat) (c : Cause) : (revoke s t c).clu = s.clu := by
  unfold revoke; split
  · rfl
  · cases c <;> simp
@[simp] theorem mvc_revoke (t : Nat) (c : Cause) : (revoke s t c).mvc = s.mvc := by
  unfold revoke; split
  · rfl
  · cases c <;> simp
@[simp] theorem slc_revoke (t : Nat) (c : Cause) : (revoke s t c).slc = s.slc := by
  unfold revoke; split
  · rfl
  · cases c <;> simp
@[simp] theorem pending_revoke (t : Nat) (c : Cause) : (revoke s t c).pending = s.pending := by
  unfold revoke; split
  · rfl
  · cases c <;> simp
@[simp] theorem tbc_tables_revoke (t : Nat) (c : Cause) : (revoke s t c).tbc.tables = s.tbc.tables := by
  unfold revoke; split
  · rfl
  · cases c <;> simp
@[simp] theorem bsv_torches_revoke (t : Nat) (c : Cause) : (revoke s t c).bsv.torches = s.bsv.torches := by
  unfold revoke; split
  · rfl
  · cases c <;> simp
@[simp] theorem bsv_pierceMin_revoke (t : Nat) (c : Cause) : (revoke s t c).bsv.pierceMin = s.bsv.pierceMin := by
  unfold revoke; split
  · rfl
  · cases c <;> simp
@[simp] theorem bsv_burnLimit_revoke (t : Nat) (c : Cause) : (revoke s t c).bsv.burnLimit = s.bsv.burnLimit := by
  unfold revoke; split
  · rfl
  · cases c <;> simp
@[simp] theorem ppn_reply_revoke (t : Nat) (c : Cause) : (revoke s t c).ppn.reply = s.ppn.reply := by
  unfold revoke; split
  · rfl
  · cases c <;> simp
@[simp] theorem ppn_mask_revoke (t : Nat) (c : Cause) : (revoke s t c).ppn.mask = s.ppn.mask := by
  unfold revoke; split
  · rfl
  · cases c <;> simp
@[simp] theorem ppn_mode_revoke (t : Nat) (c : Cause) : (revoke s t c).ppn.mode = s.ppn.mode := by
  unfold revoke; split
  · rfl
  · cases c <;> simp
@[simp] theorem ppn_stopInput_revoke (t : Nat) (c : Cause) : (revoke s t c).ppn.stopInput = s.ppn.stopInput := by
  unfold revoke; split
  · rfl
  · cases c <;> simp

/-! ## skipOne -/

@[simp] theorem srg_skipOne (z i : Nat) : (skipOne s z i).srg = s.srg := by
  unfold skipOne; dsimp only; repeat' split
  all_goals simp
@[simp] theorem lmap_skipOne (z i : Nat) : (skipOne s z i).lmap = s.lmap := by
  unfold skipOne; dsimp only; repeat' split
  all_goals simp
@[simp] theorem fse_skipOne (z i : Nat) : (skipOne s z i).fse = s.fse := by
  unfold skipOne; dsimp only; repeat' split
  all_goals simp
@[simp] theorem bsv_skipOne (z i : Nat) : (skipOne s z i).bsv = s.bsv := by
  unfold skipOne; dsimp only; repeat' split
  all_goals simp
@[simp] theorem rsu_skipOne (z i : Nat) : (skipOne s z i).rsu = s.rsu := by
  unfold skipOne; dsimp only; repeat' split
  all_goals simp
@[simp] theorem clu_skipOne (z i : Nat) : (skipOne s z i).clu = s.clu := by
  unfold skipOne; dsimp only; repeat' split
  all_goals simp
@[simp] theorem mvc_skipOne (z i : Nat) : (skipOne s z i).mvc = s.mvc := by
  unfold skipOne; dsimp only; repeat' split
  all_goals simp
@[simp] theorem slc_skipOne (z i : Nat) : (skipOne s z i).slc = s.slc := by
  unfold skipOne; dsimp only; repeat' split
  all_goals simp
@[simp] theorem ppn_skipOne (z i : Nat) : (skipOne s z i).ppn = s.ppn := by
  unfold skipOne; dsimp only; repeat' split
  all_goals simp
@[simp] theorem pending_skipOne (z i : Nat) : (skipOne s z i).pending = s.pending := by
  unfold skipOne; dsimp only; repeat' split
  all_goals simp
@[simp] theorem tbc_tables_skipOne (z i : Nat) : (skipOne s z i).tbc.tables = s.tbc.tables := by
  unfold skipOne; dsimp only; repeat' split
  all_goals simp

/-! ## modMounted -/

@[simp] theorem srg_modMounted (t : Nat) (f : Torch → Torch) :
    (modMounted s t f).srg = s.srg :=
    by unfold modMounted; split <;> simp
@[simp] theorem lmap_modMounted (t : Nat) (f : Torch → Torch) :
    (modMounted s t f).lmap = s.lmap :=
    by unfold modMounted; split <;> simp
@[simp] theorem fse_modMounted (t : Nat) (f : Torch → Torch) :
    (modMounted s t f).fse = s.fse :=
    by unfold modMounted; split <;> simp
@[simp] theorem tbc_modMounted (t : Nat) (f : Torch → Torch) :
    (modMounted s t f).tbc = s.tbc :=
    by unfold modMounted; split <;> simp
@[simp] theorem mkd_modMounted (t : Nat) (f : Torch → Torch) :
    (modMounted s t f).mkd = s.mkd :=
    by unfold modMounted; split <;> simp
@[simp] theorem rsu_modMounted (t : Nat) (f : Torch → Torch) :
    (modMounted s t f).rsu = s.rsu :=
    by unfold modMounted; split <;> simp
@[simp] theorem clu_modMounted (t : Nat) (f : Torch → Torch) :
    (modMounted s t f).clu = s.clu :=
    by unfold modMounted; split <;> simp
@[simp] theorem mvc_modMounted (t : Nat) (f : Torch → Torch) :
    (modMounted s t f).mvc = s.mvc :=
    by unfold modMounted; split <;> simp
@[simp] theorem slc_modMounted (t : Nat) (f : Torch → Torch) :
    (modMounted s t f).slc = s.slc :=
    by unfold modMounted; split <;> simp
@[simp] theorem ppn_modMounted (t : Nat) (f : Torch → Torch) :
    (modMounted s t f).ppn = s.ppn :=
    by unfold modMounted; split <;> simp
@[simp] theorem pending_modMounted (t : Nat) (f : Torch → Torch) :
    (modMounted s t f).pending = s.pending :=
    by unfold modMounted; split <;> simp
@[simp] theorem bsv_burns_modMounted (t : Nat) (f : Torch → Torch) :
    (modMounted s t f).bsv.burns = s.bsv.burns :=
    by unfold modMounted; split <;> simp
@[simp] theorem bsv_grantHeld_modMounted (t : Nat) (f : Torch → Torch) :
    (modMounted s t f).bsv.grantHeld = s.bsv.grantHeld :=
    by unfold modMounted; split <;> simp
@[simp] theorem bsv_monitors_modMounted (t : Nat) (f : Torch → Torch) :
    (modMounted s t f).bsv.monitors = s.bsv.monitors :=
    by unfold modMounted; split <;> simp
@[simp] theorem bsv_pierceMin_modMounted (t : Nat) (f : Torch → Torch) :
    (modMounted s t f).bsv.pierceMin = s.bsv.pierceMin :=
    by unfold modMounted; split <;> simp
@[simp] theorem bsv_burnLimit_modMounted (t : Nat) (f : Torch → Torch) :
    (modMounted s t f).bsv.burnLimit = s.bsv.burnLimit :=
    by unfold modMounted; split <;> simp

/-! ## addArcUnits -/

@[simp] theorem srg_addArcUnits (t n : Nat) :
    (addArcUnits s t n).srg = s.srg :=
    by unfold addArcUnits; dsimp only; split <;> simp
@[simp] theorem lmap_addArcUnits (t n : Nat) :
    (addArcUnits s t n).lmap = s.lmap :=
    by unfold addArcUnits; dsimp only; split <;> simp
@[simp] theorem fse_addArcUnits (t n : Nat) :
    (addArcUnits s t n).fse = s.fse :=
    by unfold addArcUnits; dsimp only; split <;> simp
@[simp] theorem mkd_addArcUnits (t n : Nat) :
    (addArcUnits s t n).mkd = s.mkd :=
    by unfold addArcUnits; dsimp only; split <;> simp
@[simp] theorem rsu_addArcUnits (t n : Nat) :
    (addArcUnits s t n).rsu = s.rsu :=
    by unfold addArcUnits; dsimp only; split <;> simp
@[simp] theorem clu_addArcUnits (t n : Nat) :
    (addArcUnits s t n).clu = s.clu :=
    by unfold addArcUnits; dsimp only; split <;> simp
@[simp] theorem mvc_addArcUnits (t n : Nat) :
    (addArcUnits s t n).mvc = s.mvc :=
    by unfold addArcUnits; dsimp only; split <;> simp
@[simp] theorem slc_addArcUnits (t n : Nat) :
    (addArcUnits s t n).slc = s.slc :=
    by unfold addArcUnits; dsimp only; split <;> simp
@[simp] theorem ppn_addArcUnits (t n : Nat) :
    (addArcUnits s t n).ppn = s.ppn :=
    by unfold addArcUnits; dsimp only; split <;> simp
@[simp] theorem pending_addArcUnits (t n : Nat) :
    (addArcUnits s t n).pending = s.pending :=
    by unfold addArcUnits; dsimp only; split <;> simp
@[simp] theorem tbc_tables_addArcUnits (t n : Nat) :
    (addArcUnits s t n).tbc.tables = s.tbc.tables :=
    by unfold addArcUnits; dsimp only; split <;> simp
@[simp] theorem bsv_grantHeld_addArcUnits (t n : Nat) :
    (addArcUnits s t n).bsv.grantHeld = s.bsv.grantHeld :=
    by unfold addArcUnits; dsimp only; split <;> simp
@[simp] theorem bsv_monitors_addArcUnits (t n : Nat) :
    (addArcUnits s t n).bsv.monitors = s.bsv.monitors :=
    by unfold addArcUnits; dsimp only; split <;> simp
@[simp] theorem bsv_pierceMin_addArcUnits (t n : Nat) :
    (addArcUnits s t n).bsv.pierceMin = s.bsv.pierceMin :=
    by unfold addArcUnits; dsimp only; split <;> simp
@[simp] theorem bsv_burnLimit_addArcUnits (t n : Nat) :
    (addArcUnits s t n).bsv.burnLimit = s.bsv.burnLimit :=
    by unfold addArcUnits; dsimp only; split <;> simp

/-! ## failedPierce -/

@[simp] theorem srg_failedPierce (t : Nat) (g : Grant) :
    (failedPierce s t g).srg = s.srg :=
    by unfold failedPierce; dsimp only; split <;> simp
@[simp] theorem lmap_failedPierce (t : Nat) (g : Grant) :
    (failedPierce s t g).lmap = s.lmap :=
    by unfold failedPierce; dsimp only; split <;> simp
@[simp] theorem fse_failedPierce (t : Nat) (g : Grant) :
    (failedPierce s t g).fse = s.fse :=
    by unfold failedPierce; dsimp only; split <;> simp
@[simp] theorem mkd_failedPierce (t : Nat) (g : Grant) :
    (failedPierce s t g).mkd = s.mkd :=
    by unfold failedPierce; dsimp only; split <;> simp
@[simp] theorem rsu_failedPierce (t : Nat) (g : Grant) :
    (failedPierce s t g).rsu = s.rsu :=
    by unfold failedPierce; dsimp only; split <;> simp
@[simp] theorem clu_failedPierce (t : Nat) (g : Grant) :
    (failedPierce s t g).clu = s.clu :=
    by unfold failedPierce; dsimp only; split <;> simp
@[simp] theorem mvc_failedPierce (t : Nat) (g : Grant) :
    (failedPierce s t g).mvc = s.mvc :=
    by unfold failedPierce; dsimp only; split <;> simp
@[simp] theorem slc_failedPierce (t : Nat) (g : Grant) :
    (failedPierce s t g).slc = s.slc :=
    by unfold failedPierce; dsimp only; split <;> simp
@[simp] theorem pending_failedPierce (t : Nat) (g : Grant) :
    (failedPierce s t g).pending = s.pending :=
    by unfold failedPierce; dsimp only; split <;> simp
@[simp] theorem tbc_tables_failedPierce (t : Nat) (g : Grant) :
    (failedPierce s t g).tbc.tables = s.tbc.tables :=
    by unfold failedPierce; dsimp only; split <;> simp
@[simp] theorem bsv_pierceMin_failedPierce (t : Nat) (g : Grant) :
    (failedPierce s t g).bsv.pierceMin = s.bsv.pierceMin :=
    by unfold failedPierce; dsimp only; split <;> simp
@[simp] theorem bsv_burnLimit_failedPierce (t : Nat) (g : Grant) :
    (failedPierce s t g).bsv.burnLimit = s.bsv.burnLimit :=
    by unfold failedPierce; dsimp only; split <;> simp
@[simp] theorem ppn_reply_failedPierce (t : Nat) (g : Grant) :
    (failedPierce s t g).ppn.reply = s.ppn.reply :=
    by unfold failedPierce; dsimp only; split <;> simp
@[simp] theorem ppn_mask_failedPierce (t : Nat) (g : Grant) :
    (failedPierce s t g).ppn.mask = s.ppn.mask :=
    by unfold failedPierce; dsimp only; split <;> simp
@[simp] theorem ppn_mode_failedPierce (t : Nat) (g : Grant) :
    (failedPierce s t g).ppn.mode = s.ppn.mode :=
    by unfold failedPierce; dsimp only; split <;> simp
@[simp] theorem ppn_stopInput_failedPierce (t : Nat) (g : Grant) :
    (failedPierce s t g).ppn.stopInput = s.ppn.stopInput :=
    by unfold failedPierce; dsimp only; split <;> simp

/-! ## wearCheck -/

@[simp] theorem srg_wearCheck (t : Nat) : (wearCheck s t).srg = s.srg := by
  unfold wearCheck; dsimp only; repeat' split
  all_goals simp
@[simp] theorem lmap_wearCheck (t : Nat) : (wearCheck s t).lmap = s.lmap := by
  unfold wearCheck; dsimp only; repeat' split
  all_goals simp
@[simp] theorem fse_wearCheck (t : Nat) : (wearCheck s t).fse = s.fse := by
  unfold wearCheck; dsimp only; repeat' split
  all_goals simp
@[simp] theorem tbc_wearCheck (t : Nat) : (wearCheck s t).tbc = s.tbc := by
  unfold wearCheck; dsimp only; repeat' split
  all_goals simp
@[simp] theorem mkd_wearCheck (t : Nat) : (wearCheck s t).mkd = s.mkd := by
  unfold wearCheck; dsimp only; repeat' split
  all_goals simp
@[simp] theorem rsu_wearCheck (t : Nat) : (wearCheck s t).rsu = s.rsu := by
  unfold wearCheck; dsimp only; repeat' split
  all_goals simp
@[simp] theorem clu_wearCheck (t : Nat) : (wearCheck s t).clu = s.clu := by
  unfold wearCheck; dsimp only; repeat' split
  all_goals simp
@[simp] theorem mvc_wearCheck (t : Nat) : (wearCheck s t).mvc = s.mvc := by
  unfold wearCheck; dsimp only; repeat' split
  all_goals simp
@[simp] theorem slc_wearCheck (t : Nat) : (wearCheck s t).slc = s.slc := by
  unfold wearCheck; dsimp only; repeat' split
  all_goals simp
@[simp] theorem pending_wearCheck (t : Nat) : (wearCheck s t).pending = s.pending := by
  unfold wearCheck; dsimp only; repeat' split
  all_goals simp
@[simp] theorem bsv_burns_wearCheck (t : Nat) : (wearCheck s t).bsv.burns = s.bsv.burns := by
  unfold wearCheck; dsimp only; repeat' split
  all_goals simp
@[simp] theorem bsv_grantHeld_wearCheck (t : Nat) : (wearCheck s t).bsv.grantHeld = s.bsv.grantHeld := by
  unfold wearCheck; dsimp only; repeat' split
  all_goals simp
@[simp] theorem bsv_monitors_wearCheck (t : Nat) : (wearCheck s t).bsv.monitors = s.bsv.monitors := by
  unfold wearCheck; dsimp only; repeat' split
  all_goals simp
@[simp] theorem bsv_pierceMin_wearCheck (t : Nat) : (wearCheck s t).bsv.pierceMin = s.bsv.pierceMin := by
  unfold wearCheck; dsimp only; repeat' split
  all_goals simp
@[simp] theorem bsv_burnLimit_wearCheck (t : Nat) : (wearCheck s t).bsv.burnLimit = s.bsv.burnLimit := by
  unfold wearCheck; dsimp only; repeat' split
  all_goals simp
@[simp] theorem ppn_reply_wearCheck (t : Nat) : (wearCheck s t).ppn.reply = s.ppn.reply := by
  unfold wearCheck; dsimp only; repeat' split
  all_goals simp
@[simp] theorem ppn_mask_wearCheck (t : Nat) : (wearCheck s t).ppn.mask = s.ppn.mask := by
  unfold wearCheck; dsimp only; repeat' split
  all_goals simp
@[simp] theorem ppn_mode_wearCheck (t : Nat) : (wearCheck s t).ppn.mode = s.ppn.mode := by
  unfold wearCheck; dsimp only; repeat' split
  all_goals simp
@[simp] theorem ppn_stopInput_wearCheck (t : Nat) : (wearCheck s t).ppn.stopInput = s.ppn.stopInput := by
  unfold wearCheck; dsimp only; repeat' split
  all_goals simp

/-! ## regrantPermissives -/

@[simp] theorem srg_regrantPermissives (c : Nat) : (regrantPermissives s c).srg = s.srg := rfl
@[simp] theorem lmap_regrantPermissives (c : Nat) : (regrantPermissives s c).lmap = s.lmap := rfl
@[simp] theorem fse_regrantPermissives (c : Nat) : (regrantPermissives s c).fse = s.fse := rfl
@[simp] theorem tbc_regrantPermissives (c : Nat) : (regrantPermissives s c).tbc = s.tbc := rfl
@[simp] theorem mkd_regrantPermissives (c : Nat) : (regrantPermissives s c).mkd = s.mkd := rfl
@[simp] theorem bsv_regrantPermissives (c : Nat) : (regrantPermissives s c).bsv = s.bsv := rfl
@[simp] theorem rsu_regrantPermissives (c : Nat) : (regrantPermissives s c).rsu = s.rsu := rfl
@[simp] theorem mvc_regrantPermissives (c : Nat) : (regrantPermissives s c).mvc = s.mvc := rfl
@[simp] theorem slc_regrantPermissives (c : Nat) : (regrantPermissives s c).slc = s.slc := rfl
@[simp] theorem ppn_regrantPermissives (c : Nat) : (regrantPermissives s c).ppn = s.ppn := rfl
@[simp] theorem pending_regrantPermissives (c : Nat) : (regrantPermissives s c).pending = s.pending := rfl
@[simp] theorem clu_pairs_regrantPermissives (c : Nat) : (regrantPermissives s c).clu.pairs = s.clu.pairs := rfl
@[simp] theorem clu_intruders_regrantPermissives (c : Nat) :
    (regrantPermissives s c).clu.intruders = s.clu.intruders :=
    rfl
@[simp] theorem clu_runway_regrantPermissives (c : Nat) : (regrantPermissives s c).clu.runway = s.clu.runway := rfl
@[simp] theorem clu_runwayNext_regrantPermissives (c : Nat) :
    (regrantPermissives s c).clu.runwayNext = s.clu.runwayNext :=
    rfl

/-! ## evaluateGrant -/

@[simp] theorem srg_evaluateGrant : (evaluateGrant s).srg = s.srg := rfl
@[simp] theorem lmap_evaluateGrant : (evaluateGrant s).lmap = s.lmap := rfl
@[simp] theorem fse_evaluateGrant : (evaluateGrant s).fse = s.fse := rfl
@[simp] theorem tbc_evaluateGrant : (evaluateGrant s).tbc = s.tbc := rfl
@[simp] theorem mkd_evaluateGrant : (evaluateGrant s).mkd = s.mkd := rfl
@[simp] theorem bsv_evaluateGrant : (evaluateGrant s).bsv = s.bsv := rfl
@[simp] theorem rsu_evaluateGrant : (evaluateGrant s).rsu = s.rsu := rfl
@[simp] theorem mvc_evaluateGrant : (evaluateGrant s).mvc = s.mvc := rfl
@[simp] theorem slc_evaluateGrant : (evaluateGrant s).slc = s.slc := rfl
@[simp] theorem ppn_evaluateGrant : (evaluateGrant s).ppn = s.ppn := rfl
@[simp] theorem pending_evaluateGrant : (evaluateGrant s).pending = s.pending := rfl
@[simp] theorem clu_pairs_evaluateGrant : (evaluateGrant s).clu.pairs = s.clu.pairs := rfl
@[simp] theorem clu_intruders_evaluateGrant : (evaluateGrant s).clu.intruders = s.clu.intruders := rfl
@[simp] theorem clu_runway_evaluateGrant : (evaluateGrant s).clu.runway = s.clu.runway := rfl
@[simp] theorem clu_runwayNext_evaluateGrant : (evaluateGrant s).clu.runwayNext = s.clu.runwayNext := rfl

/-! ## stopPermissives -/

@[simp] theorem srg_stopPermissives : (stopPermissives s).srg = s.srg := rfl
@[simp] theorem lmap_stopPermissives : (stopPermissives s).lmap = s.lmap := rfl
@[simp] theorem fse_stopPermissives : (stopPermissives s).fse = s.fse := rfl
@[simp] theorem tbc_stopPermissives : (stopPermissives s).tbc = s.tbc := rfl
@[simp] theorem mkd_stopPermissives : (stopPermissives s).mkd = s.mkd := rfl
@[simp] theorem bsv_stopPermissives : (stopPermissives s).bsv = s.bsv := rfl
@[simp] theorem rsu_stopPermissives : (stopPermissives s).rsu = s.rsu := rfl
@[simp] theorem mvc_stopPermissives : (stopPermissives s).mvc = s.mvc := rfl
@[simp] theorem slc_stopPermissives : (stopPermissives s).slc = s.slc := rfl
@[simp] theorem ppn_stopPermissives : (stopPermissives s).ppn = s.ppn := rfl
@[simp] theorem pending_stopPermissives : (stopPermissives s).pending = s.pending := rfl
@[simp] theorem clu_pairs_stopPermissives : (stopPermissives s).clu.pairs = s.clu.pairs := rfl
@[simp] theorem clu_intruders_stopPermissives : (stopPermissives s).clu.intruders = s.clu.intruders := rfl
@[simp] theorem clu_runway_stopPermissives : (stopPermissives s).clu.runway = s.clu.runway := rfl
@[simp] theorem clu_runwayNext_stopPermissives : (stopPermissives s).clu.runwayNext = s.clu.runwayNext := rfl

/-! ## makeGrant -/

@[simp] theorem srg_makeGrant (t : Nat) (r : PartRef) (b : Bool) :
    (makeGrant s t r b).srg = s.srg :=
    by unfold makeGrant; simp
@[simp] theorem lmap_makeGrant (t : Nat) (r : PartRef) (b : Bool) :
    (makeGrant s t r b).lmap = s.lmap :=
    by unfold makeGrant; simp
@[simp] theorem fse_makeGrant (t : Nat) (r : PartRef) (b : Bool) :
    (makeGrant s t r b).fse = s.fse :=
    by unfold makeGrant; simp
@[simp] theorem mkd_makeGrant (t : Nat) (r : PartRef) (b : Bool) :
    (makeGrant s t r b).mkd = s.mkd :=
    by unfold makeGrant; simp
@[simp] theorem rsu_makeGrant (t : Nat) (r : PartRef) (b : Bool) :
    (makeGrant s t r b).rsu = s.rsu :=
    by unfold makeGrant; simp
@[simp] theorem mvc_makeGrant (t : Nat) (r : PartRef) (b : Bool) :
    (makeGrant s t r b).mvc = s.mvc :=
    by unfold makeGrant; simp
@[simp] theorem slc_makeGrant (t : Nat) (r : PartRef) (b : Bool) :
    (makeGrant s t r b).slc = s.slc :=
    by unfold makeGrant; simp
@[simp] theorem ppn_makeGrant (t : Nat) (r : PartRef) (b : Bool) :
    (makeGrant s t r b).ppn = s.ppn :=
    by unfold makeGrant; simp
@[simp] theorem pending_makeGrant (t : Nat) (r : PartRef) (b : Bool) :
    (makeGrant s t r b).pending = s.pending :=
    by unfold makeGrant; simp
@[simp] theorem tbc_tables_makeGrant (t : Nat) (r : PartRef) (b : Bool) :
    (makeGrant s t r b).tbc.tables = s.tbc.tables :=
    by unfold makeGrant; simp
@[simp] theorem bsv_monitors_makeGrant (t : Nat) (r : PartRef) (b : Bool) :
    (makeGrant s t r b).bsv.monitors = s.bsv.monitors :=
    by unfold makeGrant; simp
@[simp] theorem bsv_torches_makeGrant (t : Nat) (r : PartRef) (b : Bool) :
    (makeGrant s t r b).bsv.torches = s.bsv.torches :=
    by unfold makeGrant; simp
@[simp] theorem bsv_pierceMin_makeGrant (t : Nat) (r : PartRef) (b : Bool) :
    (makeGrant s t r b).bsv.pierceMin = s.bsv.pierceMin :=
    by unfold makeGrant; simp
@[simp] theorem bsv_burnLimit_makeGrant (t : Nat) (r : PartRef) (b : Bool) :
    (makeGrant s t r b).bsv.burnLimit = s.bsv.burnLimit :=
    by unfold makeGrant; simp
@[simp] theorem clu_pairs_makeGrant (t : Nat) (r : PartRef) (b : Bool) :
    (makeGrant s t r b).clu.pairs = s.clu.pairs :=
    by unfold makeGrant; simp
@[simp] theorem clu_intruders_makeGrant (t : Nat) (r : PartRef) (b : Bool) :
    (makeGrant s t r b).clu.intruders = s.clu.intruders :=
    by unfold makeGrant; simp
@[simp] theorem clu_runway_makeGrant (t : Nat) (r : PartRef) (b : Bool) :
    (makeGrant s t r b).clu.runway = s.clu.runway :=
    by unfold makeGrant; simp
@[simp] theorem clu_runwayNext_makeGrant (t : Nat) (r : PartRef) (b : Bool) :
    (makeGrant s t r b).clu.runwayNext = s.clu.runwayNext :=
    by unfold makeGrant; simp

/-! ## modMove -/

@[simp] theorem srg_modMove (c id : Nat) (f : Move → Move) : (modMove s c id f).srg = s.srg := rfl
@[simp] theorem lmap_modMove (c id : Nat) (f : Move → Move) : (modMove s c id f).lmap = s.lmap := rfl
@[simp] theorem fse_modMove (c id : Nat) (f : Move → Move) : (modMove s c id f).fse = s.fse := rfl
@[simp] theorem tbc_modMove (c id : Nat) (f : Move → Move) : (modMove s c id f).tbc = s.tbc := rfl
@[simp] theorem mkd_modMove (c id : Nat) (f : Move → Move) : (modMove s c id f).mkd = s.mkd := rfl
@[simp] theorem bsv_modMove (c id : Nat) (f : Move → Move) : (modMove s c id f).bsv = s.bsv := rfl
@[simp] theorem rsu_modMove (c id : Nat) (f : Move → Move) : (modMove s c id f).rsu = s.rsu := rfl
@[simp] theorem clu_modMove (c id : Nat) (f : Move → Move) : (modMove s c id f).clu = s.clu := rfl
@[simp] theorem slc_modMove (c id : Nat) (f : Move → Move) : (modMove s c id f).slc = s.slc := rfl
@[simp] theorem ppn_modMove (c id : Nat) (f : Move → Move) : (modMove s c id f).ppn = s.ppn := rfl
@[simp] theorem pending_modMove (c id : Nat) (f : Move → Move) : (modMove s c id f).pending = s.pending := rfl
@[simp] theorem mvc_ended_modMove (c id : Nat) (f : Move → Move) : (modMove s c id f).mvc.ended = s.mvc.ended := rfl
@[simp] theorem mvc_nextId_modMove (c id : Nat) (f : Move → Move) :
    (modMove s c id f).mvc.nextId = s.mvc.nextId :=
    rfl

/-! ## dropMove -/

@[simp] theorem srg_dropMove (c id : Nat) : (dropMove s c id).srg = s.srg := rfl
@[simp] theorem lmap_dropMove (c id : Nat) : (dropMove s c id).lmap = s.lmap := rfl
@[simp] theorem fse_dropMove (c id : Nat) : (dropMove s c id).fse = s.fse := rfl
@[simp] theorem tbc_dropMove (c id : Nat) : (dropMove s c id).tbc = s.tbc := rfl
@[simp] theorem mkd_dropMove (c id : Nat) : (dropMove s c id).mkd = s.mkd := rfl
@[simp] theorem bsv_dropMove (c id : Nat) : (dropMove s c id).bsv = s.bsv := rfl
@[simp] theorem rsu_dropMove (c id : Nat) : (dropMove s c id).rsu = s.rsu := rfl
@[simp] theorem clu_dropMove (c id : Nat) : (dropMove s c id).clu = s.clu := rfl
@[simp] theorem slc_dropMove (c id : Nat) : (dropMove s c id).slc = s.slc := rfl
@[simp] theorem ppn_dropMove (c id : Nat) : (dropMove s c id).ppn = s.ppn := rfl
@[simp] theorem pending_dropMove (c id : Nat) : (dropMove s c id).pending = s.pending := rfl
@[simp] theorem mvc_ended_dropMove (c id : Nat) : (dropMove s c id).mvc.ended = s.mvc.ended := rfl
@[simp] theorem mvc_nextId_dropMove (c id : Nat) : (dropMove s c id).mvc.nextId = s.mvc.nextId := rfl

/-! ## lockSource -/

@[simp] theorem srg_lockSource (pl : Place) : (lockSource s pl).srg = s.srg := by cases pl <;> rfl
@[simp] theorem fse_lockSource (pl : Place) : (lockSource s pl).fse = s.fse := by cases pl <;> rfl
@[simp] theorem tbc_lockSource (pl : Place) : (lockSource s pl).tbc = s.tbc := by cases pl <;> rfl
@[simp] theorem mkd_lockSource (pl : Place) : (lockSource s pl).mkd = s.mkd := by cases pl <;> rfl
@[simp] theorem bsv_lockSource (pl : Place) : (lockSource s pl).bsv = s.bsv := by cases pl <;> rfl
@[simp] theorem rsu_lockSource (pl : Place) : (lockSource s pl).rsu = s.rsu := by cases pl <;> rfl
@[simp] theorem clu_lockSource (pl : Place) : (lockSource s pl).clu = s.clu := by cases pl <;> rfl
@[simp] theorem mvc_lockSource (pl : Place) : (lockSource s pl).mvc = s.mvc := by cases pl <;> rfl
@[simp] theorem slc_lockSource (pl : Place) : (lockSource s pl).slc = s.slc := by cases pl <;> rfl
@[simp] theorem ppn_lockSource (pl : Place) : (lockSource s pl).ppn = s.ppn := by cases pl <;> rfl
@[simp] theorem pending_lockSource (pl : Place) : (lockSource s pl).pending = s.pending := by cases pl <;> rfl
@[simp] theorem lmap_receiving_lockSource (pl : Place) :
    (lockSource s pl).lmap.receiving = s.lmap.receiving :=
    by cases pl <;> rfl
@[simp] theorem lmap_beds_lockSource (pl : Place) : (lockSource s pl).lmap.beds = s.lmap.beds := by cases pl <;> rfl
@[simp] theorem lmap_hooks_lockSource (pl : Place) :
    (lockSource s pl).lmap.hooks = s.lmap.hooks :=
    by cases pl <;> rfl
@[simp] theorem lmap_recvX_lockSource (pl : Place) :
    (lockSource s pl).lmap.recvX = s.lmap.recvX :=
    by cases pl <;> rfl
@[simp] theorem lmap_recvY_lockSource (pl : Place) :
    (lockSource s pl).lmap.recvY = s.lmap.recvY :=
    by cases pl <;> rfl

/-! ## unlockSource -/

@[simp] theorem srg_unlockSource (pl : Place) : (unlockSource s pl).srg = s.srg := by cases pl <;> rfl
@[simp] theorem fse_unlockSource (pl : Place) : (unlockSource s pl).fse = s.fse := by cases pl <;> rfl
@[simp] theorem tbc_unlockSource (pl : Place) : (unlockSource s pl).tbc = s.tbc := by cases pl <;> rfl
@[simp] theorem mkd_unlockSource (pl : Place) : (unlockSource s pl).mkd = s.mkd := by cases pl <;> rfl
@[simp] theorem bsv_unlockSource (pl : Place) : (unlockSource s pl).bsv = s.bsv := by cases pl <;> rfl
@[simp] theorem rsu_unlockSource (pl : Place) : (unlockSource s pl).rsu = s.rsu := by cases pl <;> rfl
@[simp] theorem clu_unlockSource (pl : Place) : (unlockSource s pl).clu = s.clu := by cases pl <;> rfl
@[simp] theorem mvc_unlockSource (pl : Place) : (unlockSource s pl).mvc = s.mvc := by cases pl <;> rfl
@[simp] theorem slc_unlockSource (pl : Place) : (unlockSource s pl).slc = s.slc := by cases pl <;> rfl
@[simp] theorem ppn_unlockSource (pl : Place) : (unlockSource s pl).ppn = s.ppn := by cases pl <;> rfl
@[simp] theorem pending_unlockSource (pl : Place) : (unlockSource s pl).pending = s.pending := by cases pl <;> rfl
@[simp] theorem lmap_receiving_unlockSource (pl : Place) :
    (unlockSource s pl).lmap.receiving = s.lmap.receiving :=
    by cases pl <;> rfl
@[simp] theorem lmap_beds_unlockSource (pl : Place) :
    (unlockSource s pl).lmap.beds = s.lmap.beds :=
    by cases pl <;> rfl
@[simp] theorem lmap_hooks_unlockSource (pl : Place) :
    (unlockSource s pl).lmap.hooks = s.lmap.hooks :=
    by cases pl <;> rfl
@[simp] theorem lmap_recvX_unlockSource (pl : Place) :
    (unlockSource s pl).lmap.recvX = s.lmap.recvX :=
    by cases pl <;> rfl
@[simp] theorem lmap_recvY_unlockSource (pl : Place) :
    (unlockSource s pl).lmap.recvY = s.lmap.recvY :=
    by cases pl <;> rfl

/-! ## reserveDest -/

@[simp] theorem srg_reserveDest (id t : Nat) (d : Dest) : (reserveDest s id t d).srg = s.srg := by cases d <;> rfl
@[simp] theorem fse_reserveDest (id t : Nat) (d : Dest) : (reserveDest s id t d).fse = s.fse := by cases d <;> rfl
@[simp] theorem mkd_reserveDest (id t : Nat) (d : Dest) : (reserveDest s id t d).mkd = s.mkd := by cases d <;> rfl
@[simp] theorem bsv_reserveDest (id t : Nat) (d : Dest) : (reserveDest s id t d).bsv = s.bsv := by cases d <;> rfl
@[simp] theorem rsu_reserveDest (id t : Nat) (d : Dest) : (reserveDest s id t d).rsu = s.rsu := by cases d <;> rfl
@[simp] theorem clu_reserveDest (id t : Nat) (d : Dest) : (reserveDest s id t d).clu = s.clu := by cases d <;> rfl
@[simp] theorem mvc_reserveDest (id t : Nat) (d : Dest) : (reserveDest s id t d).mvc = s.mvc := by cases d <;> rfl
@[simp] theorem slc_reserveDest (id t : Nat) (d : Dest) : (reserveDest s id t d).slc = s.slc := by cases d <;> rfl
@[simp] theorem ppn_reserveDest (id t : Nat) (d : Dest) : (reserveDest s id t d).ppn = s.ppn := by cases d <;> rfl
@[simp] theorem pending_reserveDest (id t : Nat) (d : Dest) :
    (reserveDest s id t d).pending = s.pending :=
    by cases d <;> rfl
@[simp] theorem lmap_receiving_reserveDest (id t : Nat) (d : Dest) :
    (reserveDest s id t d).lmap.receiving = s.lmap.receiving :=
    by cases d <;> rfl
@[simp] theorem lmap_beds_reserveDest (id t : Nat) (d : Dest) :
    (reserveDest s id t d).lmap.beds = s.lmap.beds :=
    by cases d <;> rfl
@[simp] theorem lmap_hooks_reserveDest (id t : Nat) (d : Dest) :
    (reserveDest s id t d).lmap.hooks = s.lmap.hooks :=
    by cases d <;> rfl
@[simp] theorem lmap_recvX_reserveDest (id t : Nat) (d : Dest) :
    (reserveDest s id t d).lmap.recvX = s.lmap.recvX :=
    by cases d <;> rfl
@[simp] theorem lmap_recvY_reserveDest (id t : Nat) (d : Dest) :
    (reserveDest s id t d).lmap.recvY = s.lmap.recvY :=
    by cases d <;> rfl
@[simp] theorem tbc_tables_reserveDest (id t : Nat) (d : Dest) :
    (reserveDest s id t d).tbc.tables = s.tbc.tables :=
    by cases d <;> rfl

/-! ## releaseDest -/

@[simp] theorem srg_releaseDest (t : Nat) (d : Option Dest) :
    (releaseDest s t d).srg = s.srg :=
    by unfold releaseDest; split <;> rfl
@[simp] theorem fse_releaseDest (t : Nat) (d : Option Dest) :
    (releaseDest s t d).fse = s.fse :=
    by unfold releaseDest; split <;> rfl
@[simp] theorem mkd_releaseDest (t : Nat) (d : Option Dest) :
    (releaseDest s t d).mkd = s.mkd :=
    by unfold releaseDest; split <;> rfl
@[simp] theorem bsv_releaseDest (t : Nat) (d : Option Dest) :
    (releaseDest s t d).bsv = s.bsv :=
    by unfold releaseDest; split <;> rfl
@[simp] theorem rsu_releaseDest (t : Nat) (d : Option Dest) :
    (releaseDest s t d).rsu = s.rsu :=
    by unfold releaseDest; split <;> rfl
@[simp] theorem clu_releaseDest (t : Nat) (d : Option Dest) :
    (releaseDest s t d).clu = s.clu :=
    by unfold releaseDest; split <;> rfl
@[simp] theorem mvc_releaseDest (t : Nat) (d : Option Dest) :
    (releaseDest s t d).mvc = s.mvc :=
    by unfold releaseDest; split <;> rfl
@[simp] theorem slc_releaseDest (t : Nat) (d : Option Dest) :
    (releaseDest s t d).slc = s.slc :=
    by unfold releaseDest; split <;> rfl
@[simp] theorem ppn_releaseDest (t : Nat) (d : Option Dest) :
    (releaseDest s t d).ppn = s.ppn :=
    by unfold releaseDest; split <;> rfl
@[simp] theorem pending_releaseDest (t : Nat) (d : Option Dest) :
    (releaseDest s t d).pending = s.pending :=
    by unfold releaseDest; split <;> rfl
@[simp] theorem lmap_receiving_releaseDest (t : Nat) (d : Option Dest) :
    (releaseDest s t d).lmap.receiving = s.lmap.receiving :=
    by unfold releaseDest; split <;> rfl
@[simp] theorem lmap_beds_releaseDest (t : Nat) (d : Option Dest) :
    (releaseDest s t d).lmap.beds = s.lmap.beds :=
    by unfold releaseDest; split <;> rfl
@[simp] theorem lmap_hooks_releaseDest (t : Nat) (d : Option Dest) :
    (releaseDest s t d).lmap.hooks = s.lmap.hooks :=
    by unfold releaseDest; split <;> rfl
@[simp] theorem lmap_recvX_releaseDest (t : Nat) (d : Option Dest) :
    (releaseDest s t d).lmap.recvX = s.lmap.recvX :=
    by unfold releaseDest; split <;> rfl
@[simp] theorem lmap_recvY_releaseDest (t : Nat) (d : Option Dest) :
    (releaseDest s t d).lmap.recvY = s.lmap.recvY :=
    by unfold releaseDest; split <;> rfl
@[simp] theorem tbc_tables_releaseDest (t : Nat) (d : Option Dest) :
    (releaseDest s t d).tbc.tables = s.tbc.tables :=
    by unfold releaseDest; split <;> rfl

/-! ## createRemnant -/

/-- A creation of a remnant keeps what a write of the registry and a joining keep. -/
theorem createRemnant_keeps {β : Type} (f : State → β)
    (hg : ∀ (s : State) g, f { s with srg := g } = f s) (hj : ∀ s pl h t, f (joinPlace s pl h t) = f s)
    (s : State) (heat : List Nat) (p : Piece) : f (createRemnant s heat p).2 = f s := by
  have hc : ∀ (s : State) i p h t, createAt s i p = .ok (h, t) → f t = f s := by
    intro s i p h t e
    unfold createAt at e; dsimp only at e
    split at e
    · cases e
    · injection e with e; injection e with _ e; subst e
      rw [hj]; exact (hg _ _).trans (hg _ _)
  unfold createRemnant
  split
  · rfl
  · split
    · rfl
    · dsimp only; split
      · exact hg _ _
      · rename_i e; exact (hg _ _).trans (hc _ _ _ _ _ e)

@[simp] theorem fse_createRemnant (heat : List Nat) (p : Piece) :
    (createRemnant s heat p).2.fse = s.fse :=
    createRemnant_keeps (fun s => s.fse) (fun _ _ => rfl) (fun _ _ _ _ => by simp) s heat p
@[simp] theorem tbc_createRemnant (heat : List Nat) (p : Piece) :
    (createRemnant s heat p).2.tbc = s.tbc :=
    createRemnant_keeps (fun s => s.tbc) (fun _ _ => rfl) (fun _ _ _ _ => by simp) s heat p
@[simp] theorem mkd_createRemnant (heat : List Nat) (p : Piece) :
    (createRemnant s heat p).2.mkd = s.mkd :=
    createRemnant_keeps (fun s => s.mkd) (fun _ _ => rfl) (fun _ _ _ _ => by simp) s heat p
@[simp] theorem bsv_createRemnant (heat : List Nat) (p : Piece) :
    (createRemnant s heat p).2.bsv = s.bsv :=
    createRemnant_keeps (fun s => s.bsv) (fun _ _ => rfl) (fun _ _ _ _ => by simp) s heat p
@[simp] theorem rsu_createRemnant (heat : List Nat) (p : Piece) :
    (createRemnant s heat p).2.rsu = s.rsu :=
    createRemnant_keeps (fun s => s.rsu) (fun _ _ => rfl) (fun _ _ _ _ => by simp) s heat p
@[simp] theorem clu_createRemnant (heat : List Nat) (p : Piece) :
    (createRemnant s heat p).2.clu = s.clu :=
    createRemnant_keeps (fun s => s.clu) (fun _ _ => rfl) (fun _ _ _ _ => by simp) s heat p
@[simp] theorem mvc_createRemnant (heat : List Nat) (p : Piece) :
    (createRemnant s heat p).2.mvc = s.mvc :=
    createRemnant_keeps (fun s => s.mvc) (fun _ _ => rfl) (fun _ _ _ _ => by simp) s heat p
@[simp] theorem slc_createRemnant (heat : List Nat) (p : Piece) :
    (createRemnant s heat p).2.slc = s.slc :=
    createRemnant_keeps (fun s => s.slc) (fun _ _ => rfl) (fun _ _ _ _ => by simp) s heat p
@[simp] theorem ppn_createRemnant (heat : List Nat) (p : Piece) :
    (createRemnant s heat p).2.ppn = s.ppn :=
    createRemnant_keeps (fun s => s.ppn) (fun _ _ => rfl) (fun _ _ _ _ => by simp) s heat p
@[simp] theorem pending_createRemnant (heat : List Nat) (p : Piece) :
    (createRemnant s heat p).2.pending = s.pending :=
    createRemnant_keeps (fun s => s.pending) (fun _ _ => rfl) (fun _ _ _ _ => by simp) s heat p
@[simp] theorem lmap_recvX_createRemnant (heat : List Nat) (p : Piece) :
    (createRemnant s heat p).2.lmap.recvX = s.lmap.recvX :=
    createRemnant_keeps (fun s => s.lmap.recvX) (fun _ _ => rfl) (fun _ _ _ _ => by simp) s heat p
@[simp] theorem lmap_recvY_createRemnant (heat : List Nat) (p : Piece) :
    (createRemnant s heat p).2.lmap.recvY = s.lmap.recvY :=
    createRemnant_keeps (fun s => s.lmap.recvY) (fun _ _ => rfl) (fun _ _ _ _ => by simp) s heat p

/-! ## createRemnants -/

/-- Making the remnants of a close keeps what a creation and a notice keep. -/
theorem createRemnants_keeps {β : Type} (f : State → β)
    (hc : ∀ s heat p, f (createRemnant s heat p).2 = f s) (hr : ∀ s u k, f (raise s u k) = f s)
    (s : State) (p : Piece) (z : Nat) (ds : List Decl) : f (createRemnants s p z ds).1 = f s := by
  induction ds generalizing s with
  | nil => rfl
  | cons d ds ih =>
    have h := hc s p.key.heat (remnantOf p d.arg z)
    unfold createRemnants
    split <;> (rename_i e; rw [e] at h; simp_all)

@[simp] theorem fse_createRemnants (p : Piece) (z : Nat) (ds : List Decl) :
    (createRemnants s p z ds).1.fse = s.fse :=
    createRemnants_keeps (fun s => s.fse) (fun _ _ _ => by simp) (fun _ _ _ => rfl) s p z ds
@[simp] theorem tbc_createRemnants (p : Piece) (z : Nat) (ds : List Decl) :
    (createRemnants s p z ds).1.tbc = s.tbc :=
    createRemnants_keeps (fun s => s.tbc) (fun _ _ _ => by simp) (fun _ _ _ => rfl) s p z ds
@[simp] theorem mkd_createRemnants (p : Piece) (z : Nat) (ds : List Decl) :
    (createRemnants s p z ds).1.mkd = s.mkd :=
    createRemnants_keeps (fun s => s.mkd) (fun _ _ _ => by simp) (fun _ _ _ => rfl) s p z ds
@[simp] theorem bsv_createRemnants (p : Piece) (z : Nat) (ds : List Decl) :
    (createRemnants s p z ds).1.bsv = s.bsv :=
    createRemnants_keeps (fun s => s.bsv) (fun _ _ _ => by simp) (fun _ _ _ => rfl) s p z ds
@[simp] theorem rsu_createRemnants (p : Piece) (z : Nat) (ds : List Decl) :
    (createRemnants s p z ds).1.rsu = s.rsu :=
    createRemnants_keeps (fun s => s.rsu) (fun _ _ _ => by simp) (fun _ _ _ => rfl) s p z ds
@[simp] theorem clu_createRemnants (p : Piece) (z : Nat) (ds : List Decl) :
    (createRemnants s p z ds).1.clu = s.clu :=
    createRemnants_keeps (fun s => s.clu) (fun _ _ _ => by simp) (fun _ _ _ => rfl) s p z ds
@[simp] theorem mvc_createRemnants (p : Piece) (z : Nat) (ds : List Decl) :
    (createRemnants s p z ds).1.mvc = s.mvc :=
    createRemnants_keeps (fun s => s.mvc) (fun _ _ _ => by simp) (fun _ _ _ => rfl) s p z ds
@[simp] theorem slc_createRemnants (p : Piece) (z : Nat) (ds : List Decl) :
    (createRemnants s p z ds).1.slc = s.slc :=
    createRemnants_keeps (fun s => s.slc) (fun _ _ _ => by simp) (fun _ _ _ => rfl) s p z ds
@[simp] theorem pending_createRemnants (p : Piece) (z : Nat) (ds : List Decl) :
    (createRemnants s p z ds).1.pending = s.pending :=
    createRemnants_keeps (fun s => s.pending) (fun _ _ _ => by simp) (fun _ _ _ => rfl) s p z ds
@[simp] theorem lmap_recvX_createRemnants (p : Piece) (z : Nat) (ds : List Decl) :
    (createRemnants s p z ds).1.lmap.recvX = s.lmap.recvX :=
    createRemnants_keeps (fun s => s.lmap.recvX) (fun _ _ _ => by simp) (fun _ _ _ => rfl) s p z ds
@[simp] theorem lmap_recvY_createRemnants (p : Piece) (z : Nat) (ds : List Decl) :
    (createRemnants s p z ds).1.lmap.recvY = s.lmap.recvY :=
    createRemnants_keeps (fun s => s.lmap.recvY) (fun _ _ _ => by simp) (fun _ _ _ => rfl) s p z ds
@[simp] theorem ppn_reply_createRemnants (p : Piece) (z : Nat) (ds : List Decl) :
    (createRemnants s p z ds).1.ppn.reply = s.ppn.reply :=
    createRemnants_keeps (fun s => s.ppn.reply) (fun _ _ _ => by simp) (fun _ _ _ => rfl) s p z ds
@[simp] theorem ppn_mask_createRemnants (p : Piece) (z : Nat) (ds : List Decl) :
    (createRemnants s p z ds).1.ppn.mask = s.ppn.mask :=
    createRemnants_keeps (fun s => s.ppn.mask) (fun _ _ _ => by simp) (fun _ _ _ => rfl) s p z ds
@[simp] theorem ppn_mode_createRemnants (p : Piece) (z : Nat) (ds : List Decl) :
    (createRemnants s p z ds).1.ppn.mode = s.ppn.mode :=
    createRemnants_keeps (fun s => s.ppn.mode) (fun _ _ _ => by simp) (fun _ _ _ => rfl) s p z ds
@[simp] theorem ppn_stopInput_createRemnants (p : Piece) (z : Nat) (ds : List Decl) :
    (createRemnants s p z ds).1.ppn.stopInput = s.ppn.stopInput :=
    createRemnants_keeps (fun s => s.ppn.stopInput) (fun _ _ _ => by simp) (fun _ _ _ => rfl) s p z ds

/-! ## chainStep -/

@[simp] theorem lmap_chainStep (z : Nat) : (chainStep s z).lmap = s.lmap := by unfold chainStep; split <;> simp
@[simp] theorem fse_chainStep (z : Nat) : (chainStep s z).fse = s.fse := by unfold chainStep; split <;> simp
@[simp] theorem mkd_chainStep (z : Nat) : (chainStep s z).mkd = s.mkd := by unfold chainStep; split <;> simp
@[simp] theorem bsv_chainStep (z : Nat) : (chainStep s z).bsv = s.bsv := by unfold chainStep; split <;> simp
@[simp] theorem rsu_chainStep (z : Nat) : (chainStep s z).rsu = s.rsu := by unfold chainStep; split <;> simp
@[simp] theorem clu_chainStep (z : Nat) : (chainStep s z).clu = s.clu := by unfold chainStep; split <;> simp
@[simp] theorem mvc_chainStep (z : Nat) : (chainStep s z).mvc = s.mvc := by unfold chainStep; split <;> simp
@[simp] theorem slc_chainStep (z : Nat) : (chainStep s z).slc = s.slc := by unfold chainStep; split <;> simp
@[simp] theorem pending_chainStep (z : Nat) :
    (chainStep s z).pending = s.pending :=
    by unfold chainStep; split <;> simp
@[simp] theorem srg_primary_chainStep (z : Nat) :
    (chainStep s z).srg.primary = s.srg.primary :=
    by unfold chainStep; split <;> simp
@[simp] theorem srg_groups_chainStep (z : Nat) :
    (chainStep s z).srg.groups = s.srg.groups :=
    by unfold chainStep; split <;> simp
@[simp] theorem srg_creation_chainStep (z : Nat) :
    (chainStep s z).srg.creation = s.srg.creation :=
    by unfold chainStep; split <;> simp
@[simp] theorem srg_remnant_chainStep (z : Nat) :
    (chainStep s z).srg.remnant = s.srg.remnant :=
    by unfold chainStep; split <;> simp
@[simp] theorem ppn_reply_chainStep (z : Nat) :
    (chainStep s z).ppn.reply = s.ppn.reply :=
    by unfold chainStep; split <;> simp
@[simp] theorem ppn_mask_chainStep (z : Nat) :
    (chainStep s z).ppn.mask = s.ppn.mask :=
    by unfold chainStep; split <;> simp
@[simp] theorem ppn_mode_chainStep (z : Nat) :
    (chainStep s z).ppn.mode = s.ppn.mode :=
    by unfold chainStep; split <;> simp
@[simp] theorem ppn_stopInput_chainStep (z : Nat) :
    (chainStep s z).ppn.stopInput = s.ppn.stopInput :=
    by unfold chainStep; split <;> simp

/-! ## closeNest -/

@[simp] theorem fse_closeNest (z : Nat) : (closeNest s z).fse = s.fse := by
  unfold closeNest; dsimp only; repeat' split
  all_goals simp
@[simp] theorem mkd_closeNest (z : Nat) : (closeNest s z).mkd = s.mkd := by
  unfold closeNest; dsimp only; repeat' split
  all_goals simp
@[simp] theorem bsv_closeNest (z : Nat) : (closeNest s z).bsv = s.bsv := by
  unfold closeNest; dsimp only; repeat' split
  all_goals simp
@[simp] theorem rsu_closeNest (z : Nat) : (closeNest s z).rsu = s.rsu := by
  unfold closeNest; dsimp only; repeat' split
  all_goals simp
@[simp] theorem clu_closeNest (z : Nat) : (closeNest s z).clu = s.clu := by
  unfold closeNest; dsimp only; repeat' split
  all_goals simp
@[simp] theorem mvc_closeNest (z : Nat) : (closeNest s z).mvc = s.mvc := by
  unfold closeNest; dsimp only; repeat' split
  all_goals simp
@[simp] theorem slc_closeNest (z : Nat) : (closeNest s z).slc = s.slc := by
  unfold closeNest; dsimp only; repeat' split
  all_goals simp
@[simp] theorem pending_closeNest (z : Nat) : (closeNest s z).pending = s.pending := by
  unfold closeNest; dsimp only; repeat' split
  all_goals simp
@[simp] theorem lmap_recvX_closeNest (z : Nat) : (closeNest s z).lmap.recvX = s.lmap.recvX := by
  unfold closeNest; dsimp only; repeat' split
  all_goals simp
@[simp] theorem lmap_recvY_closeNest (z : Nat) : (closeNest s z).lmap.recvY = s.lmap.recvY := by
  unfold closeNest; dsimp only; repeat' split
  all_goals simp
@[simp] theorem ppn_reply_closeNest (z : Nat) : (closeNest s z).ppn.reply = s.ppn.reply := by
  unfold closeNest; dsimp only; repeat' split
  all_goals simp
@[simp] theorem ppn_mask_closeNest (z : Nat) : (closeNest s z).ppn.mask = s.ppn.mask := by
  unfold closeNest; dsimp only; repeat' split
  all_goals simp
@[simp] theorem ppn_mode_closeNest (z : Nat) : (closeNest s z).ppn.mode = s.ppn.mode := by
  unfold closeNest; dsimp only; repeat' split
  all_goals simp
@[simp] theorem ppn_stopInput_closeNest (z : Nat) : (closeNest s z).ppn.stopInput = s.ppn.stopInput := by
  unfold closeNest; dsimp only; repeat' split
  all_goals simp

/-! ## closeIfFinal -/

@[simp] theorem fse_closeIfFinal (z : Nat) : (closeIfFinal s z).fse = s.fse := by
  unfold closeIfFinal; repeat' split
  all_goals simp
@[simp] theorem mkd_closeIfFinal (z : Nat) : (closeIfFinal s z).mkd = s.mkd := by
  unfold closeIfFinal; repeat' split
  all_goals simp
@[simp] theorem bsv_closeIfFinal (z : Nat) : (closeIfFinal s z).bsv = s.bsv := by
  unfold closeIfFinal; repeat' split
  all_goals simp
@[simp] theorem rsu_closeIfFinal (z : Nat) : (closeIfFinal s z).rsu = s.rsu := by
  unfold closeIfFinal; repeat' split
  all_goals simp
@[simp] theorem clu_closeIfFinal (z : Nat) : (closeIfFinal s z).clu = s.clu := by
  unfold closeIfFinal; repeat' split
  all_goals simp
@[simp] theorem mvc_closeIfFinal (z : Nat) : (closeIfFinal s z).mvc = s.mvc := by
  unfold closeIfFinal; repeat' split
  all_goals simp
@[simp] theorem slc_closeIfFinal (z : Nat) : (closeIfFinal s z).slc = s.slc := by
  unfold closeIfFinal; repeat' split
  all_goals simp
@[simp] theorem pending_closeIfFinal (z : Nat) : (closeIfFinal s z).pending = s.pending := by
  unfold closeIfFinal; repeat' split
  all_goals simp
@[simp] theorem lmap_recvX_closeIfFinal (z : Nat) : (closeIfFinal s z).lmap.recvX = s.lmap.recvX := by
  unfold closeIfFinal; repeat' split
  all_goals simp
@[simp] theorem lmap_recvY_closeIfFinal (z : Nat) : (closeIfFinal s z).lmap.recvY = s.lmap.recvY := by
  unfold closeIfFinal; repeat' split
  all_goals simp
@[simp] theorem ppn_reply_closeIfFinal (z : Nat) : (closeIfFinal s z).ppn.reply = s.ppn.reply := by
  unfold closeIfFinal; repeat' split
  all_goals simp
@[simp] theorem ppn_mask_closeIfFinal (z : Nat) : (closeIfFinal s z).ppn.mask = s.ppn.mask := by
  unfold closeIfFinal; repeat' split
  all_goals simp
@[simp] theorem ppn_mode_closeIfFinal (z : Nat) : (closeIfFinal s z).ppn.mode = s.ppn.mode := by
  unfold closeIfFinal; repeat' split
  all_goals simp
@[simp] theorem ppn_stopInput_closeIfFinal (z : Nat) : (closeIfFinal s z).ppn.stopInput = s.ppn.stopInput := by
  unfold closeIfFinal; repeat' split
  all_goals simp

end Sys2Proof.Machine
end

