-- ==== Sys2Proof/Laws/Answers.lean ====
section
/-! SUPPORT. What the checks and envelopes of requests answer: handles, nests, ranges, the host's reply buffer and a
station's turn. -/

namespace Sys2Proof.Machine

variable {s : State}

/-! ## Ranges -/

theorem inRange_iff {lo hi n : Nat} : inRange lo hi n = true ↔ lo ≤ n ∧ n ≤ hi := by simp [inRange]

theorem heatChar_iff {c : Nat} :
    heatChar c = true ↔ (65 ≤ c ∧ c ≤ 90) ∨ (48 ≤ c ∧ c ≤ 57) ∨ c = 45 := by
  simp [heatChar, inRange, or_assoc]

theorem heatOk_iff {l : List Nat} : heatOk l = true ↔ l.length = 8 ∧ ∀ c ∈ l, heatChar c = true := by simp [heatOk]

theorem steelOk_iff {g t : Nat} : steelOk g t = true ↔ g ≤ 63 ∧ 30 ≤ t ∧ t ≤ 1000 := by simp [steelOk, inRange]

theorem outlineOk_iff {l w : Nat} :
    outlineOk l w = true ↔ (1000 ≤ l ∧ l ≤ 18000) ∧ 500 ≤ w ∧ w ≤ 4800 := by simp [outlineOk, inRange]

theorem hallPoint_iff {x y : Nat} : hallPoint x y = true ↔ x ≤ 400000 ∧ y ≤ 60000 := by
  simp only [hallPoint, Bool.and_eq_true, decide_eq_true_eq]; exact Iff.rfl

@[simp] theorem ctorIdx_bedA : Bed.ctorIdx .a = 0 := rfl
@[simp] theorem ctorIdx_bedB : Bed.ctorIdx .b = 1 := rfl

theorem bedOf_isSome {n : Nat} : (bedOf n).isSome = true ↔ n ≤ 1 := by
  match n with
  | 0 => simp [bedOf]
  | 1 => simp [bedOf]
  | n + 2 => simp [bedOf]

theorem slotArg?_eq {a : SlotArg} (hb : a.bay ≤ 9) (hs : a.slot ≤ 15) : slotArg? a = some (16 * a.bay + a.slot) := by
  simp [slotArg?]; omega

theorem slotArg?_none {a : SlotArg} (h : 9 < a.bay ∨ 15 < a.slot) : slotArg? a = none := by
  simp [slotArg?]; omega

theorem zoneArg?_eq {z : ZoneArg} (ht : z.table ≤ 5) (hb : z.bed ≤ 1) : zoneArg? z = some (2 * z.table + z.bed) := by
  obtain ⟨t, b⟩ := z
  match b with
  | 0 => simp only at ht; simp [zoneArg?, bedOf, zoneOf]; omega
  | 1 => simp only at ht; simp [zoneArg?, bedOf, zoneOf]; omega
  | b + 2 => simp at hb

theorem zoneArg?_none {z : ZoneArg} (h : 5 < z.table ∨ 1 < z.bed) : zoneArg? z = none := by
  obtain ⟨t, b⟩ := z
  match b with
  | 0 => simp_all [zoneArg?]; omega
  | 1 => simp_all [zoneArg?]; omega
  | b + 2 => simp [zoneArg?, bedOf]

/-- The zone a request names: its table, its bed, and its number among the twelve. -/
theorem zoneArg?_some {z : ZoneArg} {k : Nat} (h : zoneArg? z = some k) :
    z.table < 6 ∧ k < 12 ∧ zoneTable k = z.table ∧ k = 2 * z.table + z.bed ∧ z.bed ≤ 1 := by
  by_cases ht : z.table ≤ 5
  · by_cases hb : z.bed ≤ 1
    · rw [zoneArg?_eq ht hb] at h
      injection h with h; subst h
      exact ⟨by omega, by omega, by unfold zoneTable; omega, rfl, hb⟩
    · rw [zoneArg?_none (by omega)] at h; cases h
  · rw [zoneArg?_none (by omega)] at h; cases h

@[simp] theorem zoneTable_zoneOf (t : Nat) (x : Bed) : zoneTable (zoneOf t x) = t := by
  cases x <;> (simp [zoneTable, zoneOf]; try omega)

@[simp] theorem zoneBed_zoneOf (t : Nat) (x : Bed) : zoneBed (zoneOf t x) = x := by
  cases x <;> simp [zoneBed, zoneOf]

theorem zoneOf_zoneBed (z : Nat) : zoneOf (zoneTable z) (zoneBed z) = z := by
  unfold zoneOf zoneTable zoneBed
  split <;> (simp; omega)

/-! ## Handles -/

theorem checkHandle_names {h : Handle} {p : Piece} (n : s.names h p) : checkHandle s h = .ok p := by
  obtain ⟨hi, hr⟩ := n
  simp [checkHandle, hr, Nat.not_le.2 hi]

theorem piece?_names {h : Handle} {p : Piece} (n : s.names h p) : s.piece? h = some p := by
  simp [State.piece?, n.2]

/-- The handle passes its checks exactly when it names a live piece (R2). -/
theorem checkHandle_ok {h : Handle} {p : Piece} : checkHandle s h = .ok p ↔ s.names h p := by
  refine ⟨fun e => ?_, checkHandle_names⟩
  unfold checkHandle at e
  split at e
  · cases e
  · split at e
    · cases e
    · rename_i hi hg
      split at e
      · cases e
      · rename_i hl
        injection e with e; subst e
        refine ⟨by omega, ?_⟩
        generalize hr : s.record h.index = r at *
        obtain ⟨g, l⟩ := r
        simp_all

theorem piece?_eq_some {h : Handle} {p : Piece} : s.piece? h = some p ↔ s.record h.index = ⟨h.gen, some p⟩ := by
  unfold State.piece?
  generalize s.record h.index = r
  obtain ⟨g, l⟩ := r
  by_cases e : g = h.gen <;> simp [e]

@[simp] theorem piece?_setRecord (s : State) (i : Nat) (r : PieceRecord) (h : Handle) :
    (s.setRecord i r).piece? h =
      if h.index = i then (if r.gen = h.gen then r.live else none) else s.piece? h := by
  unfold State.piece?
  simp only [State.record_setRecord]
  split <;> rfl

@[simp] theorem setPiece_eq (s : State) (h : Handle) (p : Piece) : s.setPiece h p = s.setRecord h.index ⟨h.gen, some p⟩ :=
  rfl

theorem modPiece_eq {h : Handle} {p : Piece} (f : Piece → Piece) (e : s.piece? h = some p) :
    s.modPiece h f = s.setRecord h.index ⟨h.gen, some (f p)⟩ := by simp [State.modPiece, e]

/-! ## Nests -/

theorem checkNest_holds {z : ZoneArg} {k : Nat} {n : Nest} (h : s.holdsNest z k n) :
    checkNest s z n.id = .ok (k, n) := by simp [checkNest, h.1, h.2]

/-- The nest checks of R63 pass exactly when the zone holds the nest of the id. -/
theorem checkNest_ok {z : ZoneArg} {id k : Nat} {n : Nest} :
    checkNest s z id = .ok (k, n) ↔ s.holdsNest z k n ∧ n.id = id := by
  refine ⟨fun e => ?_, fun ⟨h, e⟩ => e ▸ checkNest_holds h⟩
  unfold checkNest at e
  split at e
  · cases e
  · split at e
    · cases e
    · split at e
      · simp only [Except.ok.injEq, Prod.mk.injEq] at e
        obtain ⟨rfl, rfl⟩ := e
        exact ⟨⟨by assumption, by assumption⟩, by assumption⟩
      · cases e

/-! ## Envelopes -/

@[simp] theorem hostAnswer_eq (k : ReqKind) (a : Ans) : hostAnswer k a = .next (a.st.replied k a.status a.record) := rfl

@[simp] theorem refuse_st (s : State) (st : Status) : (refuse s st).st = s := rfl
@[simp] theorem refuse_status (s : State) (st : Status) : (refuse s st).status = st := rfl
@[simp] theorem refuse_record (s : State) (st : Status) : (refuse s st).record = .none := rfl
@[simp] theorem okWith_st (s : State) (r : ReplyRecord) : (okWith s r).st = s := rfl
@[simp] theorem okWith_status (s : State) (r : ReplyRecord) : (okWith s r).status = .ok := rfl
@[simp] theorem okWith_record (s : State) (r : ReplyRecord) : (okWith s r).record = r := rfl

theorem awaited_serves {a u : Nat} {r : Role} (h : s.serves a r u) : awaited s = some a := by simp [awaited, h.1]

/-- A station request that passes the checks of R178 is carried out on the state in which the station is answering, and
its answer is the REPLY of the turn. -/
theorem stationRequest_serves {a u : Nat} {r : Role} {k : ReqKind} {unit : Option Nat} {body : State → Ans}
    (h : s.serves a r u) (hr : roleAllows r k = true) (hu : unit.any (· ≠ u) = false) :
    stationRequest k unit body s =
      .next (sendReply (body (answering s a)).st a
        ⟨(body (answering s a)).status, k.code, (body (answering s a)).record⟩) := by
  simp only [stationRequest, awaited_serves h, h.2, hr, hu]; simp

/-- A station that answers changes its entry and may raise a notice; every other block, and the hall mode, stand. -/
theorem answering_blocks (s : State) (a : Nat) : ∃ l n, answering s a = { s with slc := l, ppn := n } ∧
    n.mode = s.ppn.mode ∧ n.mask = s.ppn.mask ∧ n.stopInput = s.ppn.stopInput ∧ n.reply = s.ppn.reply := by
  unfold answering; dsimp only; split
  · exact ⟨_, _, rfl, rfl, rfl, rfl, rfl⟩
  · exact ⟨_, _, rfl, rfl, rfl, rfl, rfl⟩

@[simp] theorem pieceView_answering (s : State) (a : Nat) (h : Handle) (p : Piece) :
    pieceView (answering s a) h p = pieceView s h p := by obtain ⟨_, _, e, _⟩ := answering_blocks s a; rw [e]; rfl

@[simp] theorem placeCentre_answering (s : State) (a : Nat) (pl : Place) :
    placeCentre (answering s a) pl = placeCentre s pl := by obtain ⟨_, _, e, _⟩ := answering_blocks s a; rw [e]; rfl

@[simp] theorem positionCheck_answering (s : State) (a c : Nat) (p : Nat × Nat) :
    positionCheck (answering s a) c p = positionCheck s c p := by obtain ⟨_, _, e, _⟩ := answering_blocks s a; rw [e]; rfl

@[simp] theorem takeView_answering (s : State) (a c : Nat) (m : Move) :
    takeView (answering s a) c m = takeView s c m := by obtain ⟨_, _, e, _⟩ := answering_blocks s a; rw [e]; rfl

@[simp] theorem headBlocked_answering (s : State) (a : Nat) (m : Move) (p : Piece) :
    headBlocked (answering s a) m p = headBlocked s m p := by obtain ⟨_, _, e, _⟩ := answering_blocks s a; rw [e]; rfl

@[simp] theorem viewOf_answering (s : State) (a : Nat) (h : Handle) :
    viewOf (answering s a) h = viewOf s h := by obtain ⟨_, _, e, _⟩ := answering_blocks s a; rw [e]; rfl

@[simp] theorem mountedTorch_answering' (s : State) (a t : Nat) :
    mountedTorch (answering s a) t = mountedTorch s t := by obtain ⟨_, _, e, _⟩ := answering_blocks s a; rw [e]; rfl

/-- The record that shows a piece, where the handle names one. -/
theorem pieceRecord_eq {h : Handle} {p : Piece} (e : s.piece? h = some p) :
    pieceRecord s h = .piece (pieceView s h p) := by simp [pieceRecord, e]

/-! ## Starting a nest -/

/-- A ready nest meets the start conditions (R70). -/
theorem startOk_of_ready {z : Nat} {n : Nest} {p : Piece} (h : ReadyToStart s z n p) : startOk s z = true := by
  obtain ⟨hn, hs, ha, hm, hp, hb, hi, hv, hw⟩ := h
  simp [startOk, hn, hs, ha, hm, hp, hb, hi, State.piece?, hv.2, hw]

/-- A nest that is not STAGED does not start (R70). -/
theorem startOk_of_not_staged {z : Nat} {n : Nest} (hn : (s.zone z).nest = some n) (hs : n.state ≠ .staged) :
    startOk s z = false := by
  simp [startOk, hn, hs]

/-- The activation of a ready nest (R71). -/
theorem activate_of_ready {z : Nat} {n : Nest} {p : Piece} (h : ReadyToStart s z n p) : activate s z = started s z n p := by
  obtain ⟨hn, -, -, -, -, -, -, hv, -⟩ := h
  simp [activate, hn, started, State.modPiece, State.setPiece, State.piece?, hv.2]

/-- The activation of a ready nest by the chain (R76, R78). -/
theorem switchTo_of_ready {z : Nat} {n : Nest} {p : Piece} (h : ReadyToStart s z n p) : switchTo s z = switched s z n p := by
  simp [switchTo, switched, activate_of_ready h, started]

/-- The chain step of a close leaves the table alone where nothing is to start (R76). -/
theorem chainStep_stands {z : Nat} (h : (s.table (zoneTable z)).chain = false ∨ startOk s (otherZone z) = false) :
    chainStep s z = s := by
  rcases h with h | h <;> simp [chainStep, h]

/-- The chain step of a close starts the other zone's ready nest (R76). -/
theorem chainStep_of_ready {z : Nat} {n : Nest} {p : Piece} (hc : (s.table (zoneTable z)).chain = true)
    (h : ReadyToStart s (otherZone z) n p) : chainStep s z = switched s (otherZone z) n p := by
  simp [chainStep, hc, startOk_of_ready h, switchTo_of_ready h]

/-- The pending start check leaves a table alone that is active, not chained, or has no nest to start (R78). -/
theorem pendingStart_stands {t : Nat} (h : (s.table t).chain = false ∨ (s.table t).active ≠ none ∨
    (startOk s (2 * t) = false ∧ startOk s (2 * t + 1) = false)) : pendingStart s t = s := by
  unfold pendingStart
  rcases h with h | h | ⟨h1, h2⟩
  · simp [h]
  · cases e : (s.table t).active <;> simp_all
  · simp [zoneOf, h1, h2]

/-- The pending start check starts the ready nest of zone A (R78). -/
theorem pendingStart_of_ready_a {t : Nat} {n : Nest} {p : Piece} (hc : (s.table t).chain = true)
    (h : ReadyToStart s (2 * t) n p) : pendingStart s t = switched s (2 * t) n p := by
  have ha : (s.table t).active = none := by simpa [zoneTable] using h.2.2.1
  simp [pendingStart, hc, ha, zoneOf, startOk_of_ready h, switchTo_of_ready h]

/-- The pending start check starts the ready nest of zone B where zone A has none to start (R78). -/
theorem pendingStart_of_ready_b {t : Nat} {n : Nest} {p : Piece} (hc : (s.table t).chain = true)
    (hf : startOk s (2 * t) = false) (h : ReadyToStart s (2 * t + 1) n p) :
    pendingStart s t = switched s (2 * t + 1) n p := by
  have ht : zoneTable (2 * t + 1) = t := by simp [zoneTable]; omega
  have ha : (s.table t).active = none := by simpa [ht] using h.2.2.1
  simp [pendingStart, hc, ha, zoneOf, hf, startOk_of_ready h, switchTo_of_ready h]

/-! ## What holds back the head of a queue (R161) -/

/-- The source is a slot with an inbound reservation. -/
theorem headBlocked_inbound {m : Move} {p : Piece} {n : Nat} (hp : p.place = .slot n) (hi : 0 < (s.slot n).inCount) :
    headBlocked s m p = some (.occupied, .sourceInbound) := by
  simp [headBlocked, hp, hi]

/-- The piece lies under another. -/
theorem headBlocked_buried {m : Move} {p : Piece} {n : Nat} (hp : p.place = .slot n) (hi : (s.slot n).inCount = 0)
    (hd : 0 < pieceDepth s m.piece p) : headBlocked s m p = some (.buried, .notOnTop) := by
  simp [headBlocked, hp, hi, hd]

/-- Once the source lets the piece go, the room of a destination slot decides. -/
theorem headBlocked_to_slot {m : Move} {p : Piece} {n : Nat} (hd : m.dest = some (.slot n))
    (hc : ∀ k, p.place = .slot k → (s.slot k).inCount = 0 ∧ pieceDepth s m.piece p = 0) :
    headBlocked s m p = (roomTest s n p.thickness).map fun e => (e, .slotRoom) := by
  cases hp : p.place with
  | slot k => simp [headBlocked, hp, hc k hp, hd]
  | _ => simp [headBlocked, hp, hd]

/-- Once the source lets the piece go, the phase of a destination zone decides. -/
theorem headBlocked_to_zone {m : Move} {p : Piece} {z : Nat} (hd : m.dest = some (.zone z))
    (hc : ∀ k, p.place = .slot k → (s.slot k).inCount = 0 ∧ pieceDepth s m.piece p = 0) :
    headBlocked s m p = if (s.zone z).phase = .clear then none else some (.occupied, .zoneClear) := by
  cases hp : p.place with
  | slot k => simp [headBlocked, hp, hc k hp, hd]
  | _ => simp [headBlocked, hp, hd]

/-! ## Validity (R132, R136) -/

/-- A STALE axis whose read fails stays STALE, whatever the limit. -/
theorem validityOf_stays_stale (limit missed : Nat) (a : Axis) (e : ReadResult) :
    validityOf limit .stale (.error e) (takeRead a missed (.error e)) = .stale := by
  simp [validityOf, readGood]

/-- A good read with no missed tick makes the axis VALID. -/
theorem validityOf_good (limit : Nat) (before : Validity) (a : Axis) (v : Int) :
    validityOf limit before (.ok v) (takeRead a 0 (.ok v)) = .valid := by
  simp [validityOf, validityByAge, readGood, takeRead]

/-- What homing makes of the validity of an H axis (R124, R130). -/
theorem validityAtHoming_unhomed (limit : Nat) {a : Axis} (h : a.validity = .unhomed) :
    validityAtHoming limit a = validityByAge limit a := if_pos h

theorem validityAtHoming_stands (limit : Nat) {a : Axis} (h : a.validity ≠ .unhomed) :
    validityAtHoming limit a = a.validity := if_neg h

/-- The validity by age, case by case. -/
theorem validityByAge_iff (limit : Nat) (a : Axis) :
    (validityByAge limit a = .valid ↔ a.good = true ∧ a.age = 0) ∧
    (validityByAge limit a = .held ↔ a.good = true ∧ 0 < a.age ∧ a.age < limit) ∧
    (validityByAge limit a = .valid ∨ validityByAge limit a = .held ∨ validityByAge limit a = .stale) := by
  unfold validityByAge
  by_cases hg : a.good = true <;> by_cases h0 : a.age = 0 <;> by_cases hl : a.age < limit <;> simp [hg, h0, hl]; omega

/-! ## Free records -/

/-- The lowest-numbered free record (R2). -/
theorem freeRecord_eq_some {i : Nat} (h : i < 2048) (hf : (s.record i).live = none)
    (hb : ∀ j, j < i → (s.record j).live ≠ none) : freeRecord s = some i := by
  unfold freeRecord
  refine firstFrom_some.2 ⟨Nat.zero_le _, by simpa [Config.pieceRecords] using h, by simp [hf], fun j _ hj => ?_⟩
  have := hb j hj
  cases e : (s.record j).live <;> simp_all

theorem freeRecord_eq_none (h : ∀ i, i < 2048 → (s.record i).live ≠ none) : freeRecord s = none := by
  unfold freeRecord
  refine firstFrom_none.2 fun j _ hj => ?_
  have := h j (by simpa [Config.pieceRecords] using hj)
  cases e : (s.record j).live <;> simp_all

theorem freeRecord_some_live {i : Nat} (h : freeRecord s = some i) : i < 2048 ∧ (s.record i).live = none := by
  unfold freeRecord at h
  obtain ⟨_, h1, h2, _⟩ := firstFrom_some.1 h
  exact ⟨by simpa [Config.pieceRecords] using h1, by simpa using h2⟩

end Sys2Proof.Machine
end

