-- ==== Sys2Proof/Laws/Canonical.lean ====
section
/-! SUPPORT. The canonical form of the banks (log 35): every write and every shared operation of the state keeps it, and
what it gives for reading lists. -/

namespace Sys2Proof.Machine

variable {s : State}

/-! ## Writes -/

theorem Canonical.setRecord (h : Canonical s) (k : Nat) (v : PieceRecord) : Canonical (s.setRecord k v) := by
  simp_all [Canonical, State.setRecord, bankWf_bankSet]
theorem Canonical.setSlot (h : Canonical s) (k : Nat) (v : Slot) : Canonical (s.setSlot k v) := by
  simp_all [Canonical, State.setSlot, bankWf_bankSet]
theorem Canonical.setBed (h : Canonical s) (k : Nat) (v : BedRec) : Canonical (s.setBed k v) := by
  simp_all [Canonical, State.setBed, bankWf_bankSet]
theorem Canonical.setHook (h : Canonical s) (k : Nat) (v : Option Handle) : Canonical (s.setHook k v) := by
  simp_all [Canonical, State.setHook, bankWf_bankSet]
theorem Canonical.setTable (h : Canonical s) (k : Nat) (v : Table) : Canonical (s.setTable k v) := by
  simp_all [Canonical, State.setTable, bankWf_bankSet]
theorem Canonical.setZone (h : Canonical s) (k : Nat) (v : Zone) : Canonical (s.setZone k v) := by
  simp_all [Canonical, State.setZone, bankWf_bankSet]
theorem Canonical.setMarks (h : Canonical s) (k : Nat) (v : Marks) : Canonical (s.setMarks k v) := by
  simp_all [Canonical, State.setMarks, bankWf_bankSet]
theorem Canonical.setBurn (h : Canonical s) (k : Nat) (v : Burn) : Canonical (s.setBurn k v) := by
  simp_all [Canonical, State.setBurn, bankWf_bankSet]
theorem Canonical.setGrantHeld (h : Canonical s) (k : Nat) (v : Bool) : Canonical (s.setGrantHeld k v) := by
  simp_all [Canonical, State.setGrantHeld, bankWf_bankSet]
theorem Canonical.setMonitor (h : Canonical s) (k : Nat) (v : Monitor) : Canonical (s.setMonitor k v) := by
  simp_all [Canonical, State.setMonitor, bankWf_bankSet]
theorem Canonical.setTorch (h : Canonical s) (k : Nat) (v : Torch) : Canonical (s.setTorch k v) := by
  simp_all [Canonical, State.setTorch, bankWf_bankSet]
theorem Canonical.setChannel (h : Canonical s) (k : Nat) (v : Channel) : Canonical (s.setChannel k v) := by
  simp_all [Canonical, State.setChannel, bankWf_bankSet]
theorem Canonical.setAxis (h : Canonical s) (k : Nat) (v : Axis) : Canonical (s.setAxis k v) := by
  simp_all [Canonical, State.setAxis, bankWf_bankSet]
theorem Canonical.setHoist (h : Canonical s) (k : Nat) (v : Hoist) : Canonical (s.setHoist k v) := by
  simp_all [Canonical, State.setHoist, bankWf_bankSet]
theorem Canonical.setCrane (h : Canonical s) (k : Nat) (v : CraneClear) : Canonical (s.setCrane k v) := by
  simp_all [Canonical, State.setCrane, bankWf_bankSet]
theorem Canonical.setPair (h : Canonical s) (k : Nat) (v : Pair) : Canonical (s.setPair k v) := by
  simp_all [Canonical, State.setPair, bankWf_bankSet]
theorem Canonical.setIntruders (h : Canonical s) (k : Nat) (v : List Nat) : Canonical (s.setIntruders k v) := by
  simp_all [Canonical, State.setIntruders, bankWf_bankSet]
theorem Canonical.setQueue (h : Canonical s) (k : Nat) (v : List Move) : Canonical (s.setQueue k v) := by
  simp_all [Canonical, State.setQueue, bankWf_bankSet]
theorem Canonical.setEndedMove (h : Canonical s) (k : Nat) (v : Option EndedMove) : Canonical (s.setEndedMove k v) := by
  simp_all [Canonical, State.setEndedMove, bankWf_bankSet]
theorem Canonical.setStation (h : Canonical s) (k : Nat) (v : Station) : Canonical (s.setStation k v) := by
  simp_all [Canonical, State.setStation, bankWf_bankSet]
theorem Canonical.setNotice (h : Canonical s) (k : Nat) (v : Option Bool) : Canonical (s.setNotice k v) := by
  simp_all [Canonical, State.setNotice, bankWf_bankSet]

/-! ## Blocks written without a bank -/

theorem Canonical.replied (h : Canonical s) (k : ReqKind) (st : Status) (r : ReplyRecord) :
    Canonical (s.replied k st r) := h

theorem Canonical.sendReply (h : Canonical s) (a : Nat) (r : Reply) : Canonical (sendReply s a r) := h

theorem Canonical.pending (h : Canonical s) (q : List Instr) : Canonical { s with pending := q } := h

theorem Canonical.ofSrg (h : Canonical s) (g : Srg) (h1 : bankWf (fun _ => PieceRecord.reset) g.records = true)
    (h2 : bankWf (fun _ => DirEntry.empty) g.primary = true) (h3 : bankWf (fun _ => SpillGroup.reset) g.groups = true) :
    Canonical { s with srg := g } := by simp_all [Canonical]

/-! ## The directory -/

theorem bankWf_setDirEntry {g : Srg} (i : Nat) (e : DirEntry) (h : bankWf (fun _ => DirEntry.empty) g.primary = true) :
    bankWf (fun _ => DirEntry.empty) (setDirEntry g i e).primary = true := bankWf_bankSet _ i e h

theorem bankWf_setSpillGroup {g : Srg} (n : Nat) (v : SpillGroup)
    (h : bankWf (fun _ => SpillGroup.reset) g.groups = true) :
    bankWf (fun _ => SpillGroup.reset) (setSpillGroup g n v).groups = true := bankWf_bankSet _ n v h

@[simp] theorem groups_setDirEntry (g : Srg) (i : Nat) (e : DirEntry) : (setDirEntry g i e).groups = g.groups := rfl
@[simp] theorem primary_setSpillGroup (g : Srg) (n : Nat) (v : SpillGroup) :
    (setSpillGroup g n v).primary = g.primary := rfl

theorem bankWf_dirInsert {g g' : Srg} {k : Key} {x : Handle} (e : dirInsert g k x = .ok g')
    (h2 : bankWf (fun _ => DirEntry.empty) g.primary = true) (h3 : bankWf (fun _ => SpillGroup.reset) g.groups = true) :
    g'.records = g.records ∧ g'.creation = g.creation ∧ g'.remnant = g.remnant ∧
      bankWf (fun _ => DirEntry.empty) g'.primary = true ∧ bankWf (fun _ => SpillGroup.reset) g'.groups = true := by
  unfold dirInsert at e
  split at e
  · injection e with e; subst e; exact ⟨rfl, rfl, rfl, bankWf_setDirEntry _ _ h2, h3⟩
  · split at e
    · cases e
    · split at e
      · cases e
      · injection e with e; subst e; exact ⟨rfl, rfl, rfl, bankWf_setDirEntry _ _ h2, by rw [groups_setDirEntry]; exact bankWf_setSpillGroup _ _ h3⟩
  · split at e
    · cases e
    · split at e
      · cases e
      · injection e with e; subst e; exact ⟨rfl, rfl, rfl, h2, bankWf_setSpillGroup _ _ h3⟩

theorem bankWf_dirDelete {g : Srg} (k : Key) (h2 : bankWf (fun _ => DirEntry.empty) g.primary = true)
    (h3 : bankWf (fun _ => SpillGroup.reset) g.groups = true) :
    bankWf (fun _ => DirEntry.empty) (dirDelete g k).primary = true ∧
      bankWf (fun _ => SpillGroup.reset) (dirDelete g k).groups = true := by
  unfold dirDelete
  split
  · exact ⟨h2, h3⟩
  · split
    · exact ⟨bankWf_setDirEntry _ _ h2, h3⟩
    · exact ⟨h2, h3⟩
  · dsimp only; split
    · exact ⟨bankWf_setDirEntry _ _ h2, by rw [groups_setDirEntry]; exact bankWf_setSpillGroup _ _ h3⟩
    · exact ⟨h2, bankWf_setSpillGroup _ _ h3⟩

theorem Canonical.srg_parts (h : Canonical s) : bankWf (fun _ => PieceRecord.reset) s.srg.records = true ∧
    bankWf (fun _ => DirEntry.empty) s.srg.primary = true ∧ bankWf (fun _ => SpillGroup.reset) s.srg.groups = true := h.1

/-! ## Notices -/

theorem Canonical.raise (h : Canonical s) (u : NoticeUnit) (k : NoticeKind) : Canonical (raise s u k) := h.setNotice _ _

theorem Canonical.notices (h : Canonical s) : bankWf (fun _ => (none : Option Bool)) s.ppn.notices = true := by
  unfold Canonical at h; tauto

theorem Canonical.unitRead (h : Canonical s) (u : NoticeUnit) : Canonical (unitRead s u) := by
  simp_all [Canonical, Sys2Proof.Machine.unitRead, bankWf_filter]

theorem Canonical.markSeen (h : Canonical s) : Canonical (markSeen s) := by
  simp_all [Canonical, Sys2Proof.Machine.markSeen, bankWf_bankMap]

/-! ## Shared operations -/

theorem Canonical.modPiece (h : Canonical s) (x : Handle) (f : Piece → Piece) : Canonical (s.modPiece x f) := by
  unfold State.modPiece; split
  · exact h.setRecord _ _
  · exact h

theorem Canonical.joinPlace (h : Canonical s) (pl : Place) (x : Handle) (t : Nat) : Canonical (joinPlace s pl x t) := by
  cases pl
  · exact h
  · exact h.setSlot _ _
  · exact h.setBed _ _
  · exact h.setHook _ _

theorem Canonical.leavePlace (h : Canonical s) (pl : Place) (x : Handle) (t : Nat) : Canonical (leavePlace s pl x t) := by
  cases pl
  · exact h
  · exact h.setSlot _ _
  · exact h.setBed _ _
  · exact h.setHook _ _

theorem Canonical.createAt (h : Canonical s) {i : Nat} {p : Piece} {x : Handle} {t : State}
    (e : createAt s i p = .ok (x, t)) : Canonical t := by
  unfold Sys2Proof.Machine.createAt at e; dsimp only at e
  split at e
  · cases e
  · rename_i g hg
    injection e with e; injection e with _ e; subst e
    obtain ⟨e1, _, _, e2, e3⟩ := bankWf_dirInsert hg h.1.2.1 h.1.2.2
    exact ((h.ofSrg g (e1 ▸ h.1.1) e2 e3).setRecord _ _).joinPlace _ _ _

theorem Canonical.createRemnant (h : Canonical s) (heat : List Nat) (p : Piece) :
    Canonical (createRemnant s heat p).2 := by
  unfold Sys2Proof.Machine.createRemnant
  split
  · exact h
  · split
    · exact h
    · dsimp only; split
      · exact h.ofSrg _ h.1.1 h.1.2.1 h.1.2.2
      · rename_i e
        have c := h.createAt e
        exact c.ofSrg _ c.1.1 c.1.2.1 c.1.2.2

theorem Canonical.retire (h : Canonical s) (x : Handle) : Canonical (retire s x) := by
  unfold Sys2Proof.Machine.retire
  split
  · exact h
  · dsimp only
    refine Canonical.setRecord ?_ _ _
    rename_i p _
    have c := h.leavePlace p.place x p.thickness
    have d := bankWf_dirDelete p.key c.1.2.1 c.1.2.2
    exact c.ofSrg _ (by rw [(dirDelete_keeps _ _).1]; exact c.1.1) d.1 d.2

theorem Canonical.setNest (h : Canonical s) (z : Nat) (n : Option Nest) : Canonical (setNest s z n) := h.setZone _ _

theorem Canonical.modPart (h : Canonical s) (z i : Nat) (f : Part → Part) : Canonical (modPart s z i f) := h.setZone _ _

theorem Canonical.withdrawMark (h : Canonical s) (t : Nat) : Canonical (withdrawMark s t) := by
  unfold Sys2Proof.Machine.withdrawMark; split
  · exact h
  · exact (h.modPart _ _ _).setMarks _ _

theorem Canonical.activate (h : Canonical s) (z : Nat) : Canonical (activate s z) := by
  unfold Sys2Proof.Machine.activate; split
  · exact h
  · exact ((h.setZone _ _).modPiece _ _).setTable _ _

theorem Canonical.switchTo (h : Canonical s) (z : Nat) : Canonical (switchTo s z) :=
  ((h.activate z).setTable _ _).raise _ _

theorem Canonical.pendingStart (h : Canonical s) (t : Nat) : Canonical (pendingStart s t) := by
  unfold Sys2Proof.Machine.pendingStart
  split
  · split
    · exact h.switchTo _
    · split
      · exact h.switchTo _
      · exact h
  · exact h

/-- A fold of steps that keep the form keeps it. -/
theorem Canonical.foldl {α : Type} {f : State → α → State} (hf : ∀ t a, Canonical t → Canonical (f t a)) (l : List α)
    (h : Canonical s) : Canonical (l.foldl f s) := by
  induction l generalizing s with
  | nil => exact h
  | cons a l ih => exact ih (hf _ _ h)

theorem Canonical.createRemnants (h : Canonical s) (p : Piece) (z : Nat) (ds : List Decl) :
    Canonical (createRemnants s p z ds).1 := by
  induction ds generalizing s with
  | nil => exact h
  | cons d ds ih =>
    have c := h.createRemnant p.key.heat (remnantOf p d.arg z)
    unfold Sys2Proof.Machine.createRemnants
    split
    · rename_i e; rw [e] at c; exact ih c
    · rename_i e; rw [e] at c; exact ih (c.raise _ _)

theorem Canonical.closeNest (h : Canonical s) (z : Nat) : Canonical (closeNest s z) := by
  unfold Sys2Proof.Machine.closeNest
  split
  · exact h
  · split
    · exact h
    · dsimp only [chainStep]
      have c := fun n p d v k w => ((((h.retire n).createRemnants p z d).setZone z v).setTable k w).raise
      split
      · exact (c _ _ _ _ _ _ _ _).switchTo _
      · exact c _ _ _ _ _ _ _ _

theorem Canonical.endGrant (h : Canonical s) (t : Nat) (g : Grant) (e : GrantEnd) : Canonical (endGrant s t g e) := by
  unfold Sys2Proof.Machine.endGrant monitorTold
  dsimp only; split
  · exact (h.setBurn _ _).setGrantHeld _ _
  · exact ((h.setBurn _ _).setGrantHeld _ _).setMonitor _ _

theorem Canonical.revoke (h : Canonical s) (t : Nat) (c : Cause) : Canonical (revoke s t c) := by
  unfold Sys2Proof.Machine.revoke
  split
  · exact h
  · dsimp only
    have k := fun z i f g => (((h.modPart z i f).endGrant t g (.revoked c)).raise (.table t) .grantRevoked)
    split
    · exact (k _ _ _ _).raise _ _
    · exact (k _ _ _ _).raise _ _
    · exact k _ _ _ _

theorem Canonical.modMounted (h : Canonical s) (t : Nat) (f : Torch → Torch) : Canonical (modMounted s t f) := by
  unfold Sys2Proof.Machine.modMounted; split
  · exact h.setTorch _ _
  · exact h

theorem Canonical.evaluate (h : Canonical s) : Canonical (evaluate s) := by
  have g : ∀ t c, Canonical t → Canonical (setGap t c) := fun t c k => by
    unfold setGap; dsimp only; split
    · exact ((k.setPair _ _).raise _ _).raise _ _
    · exact k.setPair _ _
  exact ((((h.foldl (fun _ _ k => k.setCrane _ _) _).foldl g _).foldl (fun _ _ k => k.setCrane _ _) _).foldl
    (fun _ _ k => k.setIntruders _ _) _).foldl (fun _ _ k => k.setCrane _ _) _

theorem Canonical.evaluateGrant (h : Canonical s) : Canonical (evaluateGrant s) :=
  h.foldl (fun _ _ k => k.setCrane _ _) _

theorem Canonical.applyWaiting (h : Canonical s) : Canonical (applyWaiting s) := by
  unfold Sys2Proof.Machine.applyWaiting; split <;> exact h

theorem Canonical.endTurn (h : Canonical s) : Canonical (endTurn s) :=
  Canonical.applyWaiting (s := { s with slc := { s.slc with turn := none } }) h

theorem Canonical.answering (h : Canonical s) (a : Nat) : Canonical (answering s a) := by
  unfold Sys2Proof.Machine.answering; dsimp only; split
  · exact (h.setStation _ _).raise _ _
  · exact h.setStation _ _

end Sys2Proof.Machine
end

