-- ==== Sys2Proof/Laws/Wire.lean ====
section
/-! SUPPORT. How many bytes each field of a frame takes, and the bits of a list of bytes on the planning port. -/

namespace Sys2Proof.Machine

/-! ## Fields (R192, R194, R195, R198) -/

@[simp] theorem length_outNat (n v : Nat) : (outNat n v).length = n := by
  induction n generalizing v with
  | zero => rfl
  | succ n ih => simp [outNat, ih]

@[simp] theorem length_outInt (v : Int) : (outInt v).length = 4 := length_outNat ..
@[simp] theorem length_outFlag (b : Bool) : (outFlag b).length = 1 := rfl
@[simp] theorem length_outNamed? (v : Option Nat) : (outNamed? v).length = 1 := length_outNat ..
@[simp] theorem length_outNat? (n : Nat) (v : Option Nat) : (outNat? n v).length = n := length_outNat ..

/-- A field behind a flag takes one byte more than it does, present or absent. -/
theorem length_outOpt {α : Type} {n : Nat} {f : α → List Byte} (hf : ∀ x, (f x).length = n) (v : Option α) :
    (outOpt n (v.map f)).length = n + 1 := by
  cases v <;> simp [outOpt, hf] <;> omega

@[simp] theorem length_outHandle (h : Handle) : (outHandle h).length = 3 := by simp [outHandle]

theorem length_outKey {k : Key} (h : k.heat.length = 8) : (outKey k).length = 10 := by
  simp [outKey, List.length_flatMap, h]

@[simp] theorem length_outPlace (pl : Place) (pos count : Nat) : (outPlace pl pos count).length = 5 := by
  cases pl <;> simp [outPlace]

@[simp] theorem length_outRect (r : Rect) : (outRect r).length = 8 := by simp [outRect]
@[simp] theorem length_outPoint (p : Nat × Nat) : (outPoint p).length = 6 := by simp [outPoint]
@[simp] theorem length_outRef (r : PartRef) : (outRef r).length = 6 := by simp [outRef]
@[simp] theorem length_outCheck (k : PosCheck) : (outCheck k).length = 19 := by simp [outCheck]

@[simp] theorem length_outMove (c : Nat) (m : Move) : (outMove c m).length = 13 := by
  simp [outMove, length_outOpt (f := outDest) fun d => length_outPlace d.place 0 0]

@[simp] theorem length_outEnded (e : EndedMove) : (outEnded e).length = 8 := by
  unfold outEnded
  cases e.ending <;> simp [outOpt]

/-! ## Bits of the planning port (R182) -/

@[simp] theorem portBits_nil : portBits [] = [] := rfl
@[simp] theorem portBits_cons (b : Byte) (l : List Byte) : portBits (b :: l) = portByteBits b ++ portBits l := rfl
@[simp] theorem length_portByteBits (b : Byte) : (portByteBits b).length = 8 := by simp [portByteBits]

@[simp] theorem length_portBits (l : List Byte) : (portBits l).length = 8 * l.length := by
  induction l with
  | nil => rfl
  | cons b l ih => simp [ih]; omega

/-- The line is low once every bit has gone out. -/
theorem shiftedOut_nil (was : Bool) (clock : List Bool) : shiftedOut was [] clock = List.replicate clock.length false := by
  induction clock generalizing was with
  | nil => rfl
  | cons c r ih => simp [shiftedOut, ih, List.replicate_succ]

end Sys2Proof.Machine
end

