-- ==== Sys2Proof/Tests/Slice0.lean ====
section
/-! SUPPORT. Tests: the ill-formed commands that the check refuses, the worked examples of the spec, and for each statement
concrete states and operands that meet its hypotheses, clause by clause. -/

open Sys2Proof Sys2Proof.Machine

namespace Sys2Proof.Tests

set_option Elab.async false

/-! ## The check refuses -/

/-- A heat code of the worked examples: K7-40215. -/
def heatA : List Nat := [75, 55, 45, 52, 48, 50, 49, 53]
def keyA (n : Nat) : Key := ⟨heatA, n⟩
def H : Handle := ⟨5, 2⟩
def H0 : Handle := ⟨6, 0⟩
def Z : ZoneArg := ⟨2, 1⟩
def rectA : Rect := ⟨0, 0, 1000, 600⟩
def declA : DeclArg := ⟨1000, 600, [rectA], 6000⟩
def partA : PartArg := ⟨some [65], 5, 6⟩
def restoreA (k : Nat) (l : LocArg) (seq created : Nat) : RestoreArg :=
  ⟨⟨heatA, seq⟩, k, 12, 200, 1500, 800, if k = 0 then [] else [⟨0, 0, 1500, 800⟩], if k = 0 then 0 else 12000, created,
    true, l⟩
def fitA : FitArg := ⟨12, 200, 1000, 500, true, 1, some 70000, none⟩
def torchA : TorchArg := ⟨4, some 77, some 300, none⟩
def axisA : AxisArg := ⟨none, none, none, none, none, none, none, none, none⟩
def surveyA : SurveyArg := ⟨1000, 20000, 9000, 100000⟩
def craneA : CraneArg := ⟨none, none, none⟩
def runwayA : RunwayArg := ⟨none, none, none, none, none, none, none, none, none, none, none⟩

/-! Every command of these lists has an operand that no frame and no line can carry. -/

def illFormedStock : List Instr :=
  [.portBadFrame (some 256), .enrolPlate ⟨[75], 1⟩ 12 200 6000 2000, .enrolPlate (keyA 65536) 12 200 6000 2000,
    .enrolPlate (keyA 1) 256 200 6000 2000, .enrolPlate (keyA 1) 12 65536 6000 2000, .enrolPlate (keyA 1) 12 200 65536 2000,
    .enrolPlate (keyA 1) 12 200 6000 65536, .enrolRemnant ⟨256, 0⟩ heatA 12 200 declA, .enrolRemnant Z [256] 12 200 declA,
    .enrolRemnant Z heatA 12 200 { declA with len := 65536 }, .enrolRemnant Z heatA 12 200 { declA with net := 4294967296 },
    .enrolRemnant Z heatA 12 200 { declA with rects := [{ rectA with dx := 65536 }] },
    .restorePiece (restoreA 256 .receiving 1 1), .restorePiece { restoreA 0 .receiving 1 1 with net := 1 },
    .restorePiece (restoreA 1 (.other 3) 1 1), .restorePiece (restoreA 1 (.hook 256) 1 1),
    .retirePiece ⟨65536, 0⟩, .lookupKey .host ⟨heatA, 65536⟩, .readPiece .station ⟨0, 256⟩, .setHold ⟨65536, 0⟩,
    .releaseHold ⟨65536, 0⟩]

def illFormedTables : List Instr :=
  [.reservePiece H 4294967296, .unreservePiece H 4294967296, .setSlot ⟨256, 0⟩ 0 0 true, .setSlot ⟨0, 0⟩ 0 65536 true,
    .setZone Z 4294967296 0 0 0 0 0, .setReceiving 0 65536, .readSlot ⟨0, 256⟩, .fit { fitA with grade := 256 },
    .fit { fitA with depthPenalty := some 4294967296 }, .fitReserve fitA 4294967296,
    .stageNest Z 1 H [{ partA with text := some [256] }] [], .stageNest Z 1 H [{ partA with x := 65536 }] [],
    .stageNest Z 1 H (List.replicate 256 partA) [], .withdrawNest Z 4294967296, .declareRemnant Z 1 256 none,
    .startNest ⟨0, 256⟩ 1, .skipPart Z 1 256, .closeNest Z 4294967296, .setChain 256 true, .zoneCleared ⟨256, 0⟩,
    .readTable 256, .readZone .host ⟨256, 0⟩, .nextMark 256, .markDone Z 1 256, .markFailed Z 1 256, .waiveMark Z 1 256]

def illFormedField : List Instr :=
  [.nextBurn 256, .burnDone Z 1 256, .burnAbandon Z 1 256, .arcOnEdge 6, .arcOffEdge 6 0, .pierceTimeReached 6,
    .arcTimeUnit 6, .burnOvertime 6, .stuckArcTimerExpiry 6, .clearTableFault 256, .setBurnTimes (some 65536) none,
    .mountTorch 0 65536, .unmountTorch 256, .setTorch { torchA with number := 256 }, .setTorch { torchA with id := some 65536 },
    .resetTorch 65536, .readTorch 65536, .ssiDataReady 6, .readyWaitExpiry 6, .masterReadEnd 6 0 true,
    .listenFrameEnd 6 [] none, .quadratureTransition 3 true true false true, .quadratureTransition 0 true true true true,
    .indexPulse 3 true, .homeHoist 256, .setAxis 0 0 { axisA with mode := some 256 },
    .setAxis 0 0 { axisA with scale := some 2147483648 }, .calibrateAxis 0 0 { surveyA with raw1 := -2147483649 }]

def illFormedHall : List Instr :=
  [.clearOrderFault 256, .setCrane 0 { craneA with capacity := some 4294967296 }, .setCrane 256 craneA,
    .setRunway { runwayA with span := some 65536 }, .setRunway { runwayA with period := some 256 },
    .queueMove 256 H .receiving, .queueMove 0 ⟨65536, 0⟩ .receiving, .queueMove 0 H (.slot ⟨256, 0⟩), .takeMove 256,
    .picked 0 65536, .placed 0 65536, .moveAbandon 0 65536, .retargetMove 65536 .receiving, .cancelMove 65536,
    .readCrane 256, .setStation 256 none, .setStation 1 (some (256, 0)), .setPollList [256] none none,
    .setPollList [] (some 65536) none, .stationUnknownRequest 256]

theorem test_illFormedIsRefused : ∀ l ∈ [illFormedStock, illFormedTables, illFormedField, illFormedHall],
    ∀ i ∈ l, i.wellFormed = false := by decide +kernel

theorem test_wellFormedIsTaken :
    ∀ i ∈ [Instr.enrolPlate (keyA 65535) 255 65535 65535 65535, .restorePiece (restoreA 1 (.slot ⟨255, 255⟩) 1 4294967295),
      .stageNest Z 4294967295 ⟨65535, 255⟩ [partA] [declA], .setAxis 0 2 { axisA with scale := some (-2147483648) },
      .quadratureTransition 2 true true true false, .arcOnEdge 5, .masterReadEnd 5 0 true, .portBadFrame (some 255)],
      i.wellFormed = true := by decide +kernel

/-! ## Worked examples of the spec -/

theorem test_crc : Wire.crc (([49, 50, 51, 52, 53, 54, 55, 56, 57] : List Nat).map (BitVec.ofNat 8)) = 0x29B1#16 := by
  decide +kernel

theorem test_keyHash : ∀ n ∈ [93, 318, 543, 768], keyHash (keyA n) = 3126 := by decide +kernel

/-- The state a step ends in, for the tests below. -/
def nextOf (o : Host.Outcome State Fault Refusal) : State :=
  match o with
  | .next s => s
  | _ => State.reset

def okDir (e : Except Status Srg) : Srg :=
  match e with
  | .ok g => g
  | .error _ => Srg.reset

/-- A directory with the keys of the worked sequence in chapter 1, at records 40 to 43, and the two groups in use. -/
def dirOne : Srg := okDir (dirInsert { Srg.reset with groups := [(0, ⟨true, []⟩), (1, ⟨true, []⟩)] } (keyA 93) ⟨40, 2⟩)
def dirTwo : Srg := okDir (dirInsert dirOne (keyA 318) ⟨41, 0⟩)
def dirFour : Srg := okDir (dirInsert (okDir (dirInsert dirTwo (keyA 543) ⟨42, 0⟩)) (keyA 768) ⟨43, 0⟩)

theorem test_entrySpills :
    dirEntry dirOne 3126 = .direct ⟨keyA 93, ⟨40, 2⟩⟩ ∧ dirEntry dirTwo 3126 = .spill 2 ∧
    spillGroup dirTwo 2 = ⟨true, [some ⟨keyA 93, ⟨40, 2⟩⟩, some ⟨keyA 318, ⟨41, 0⟩⟩, none, none]⟩ ∧
    dirInsert dirFour (keyA 318) ⟨44, 0⟩ = .error .duplicateKey ∧
    dirInsert dirFour (keyA 32764) ⟨44, 0⟩ = .error .directoryFull := by decide +kernel

theorem test_entryReverts :
    spillGroup (dirDelete dirFour (keyA 93)) 2 = ⟨true, [none, some ⟨keyA 318, ⟨41, 0⟩⟩, some ⟨keyA 543, ⟨42, 0⟩⟩,
      some ⟨keyA 768, ⟨43, 0⟩⟩]⟩ ∧
    dirEntry (dirDelete dirTwo (keyA 93)) 3126 = .direct ⟨keyA 318, ⟨41, 0⟩⟩ ∧
    spillGroup (dirDelete dirTwo (keyA 93)) 2 = SpillGroup.reset ∧ dirEntry (dirDelete dirOne (keyA 93)) 3126 = .empty := by
  decide +kernel

/-- The example under R15: the first plate after device reset. -/
theorem test_enrolPlate :
    let t := nextOf (exec (.enrolPlate (keyA 93) 12 150 6000 2000) State.reset)
    t.srg.creation = 2 ∧ ∃ p, t.piece? ⟨0, 0⟩ = some p ∧ p.net = 120000 ∧ p.mass = 1413 ∧ p.state = .arriving ∧
      p.place = .receiving ∧ p.created = 1 := by
  exact ⟨by decide +kernel, _, rfl, by decide +kernel⟩

/-- The worked search of chapter 3: the fits and scores of its four pieces. -/
theorem test_search :
    let q : SearchRequest := ⟨12, 150, 3200, 1500, true, .any, none, 20000, 50000⟩
    let plate : Piece := newPlate (keyA 1) 12 150 6000 2000 1420
    let rem (l : List Rect) (net : Nat) : Piece := { plate with kind := .remnant, rects := l, net := net }
    let a := rem [⟨0, 0, 4000, 1600⟩, ⟨0, 0, 2500, 1200⟩] 74000
    let b := rem [⟨0, 0, 2000, 3500⟩] 70000
    fitOf q a = some (0, false) ∧ scoreOf q a 2 = 66000 ∧ fitOf q b = some (0, true) ∧ scoreOf q b 0 = 22000 ∧
      fitOf q plate = some (0, false) ∧ scoreOf q plate 0 = 122000 ∧ fitOf q (rem [⟨0, 0, 3100, 1800⟩] 55800) = none ∧
      fitOf { q with rotate := false } b = none := by decide +kernel

/-- The example under R125, and the worked conversion and calibration of chapter 7. -/
theorem test_positions :
    judgeFrame ⟨10, 0, .even, .gray, 400⟩ (bitsOf 0b10000000001 11) = .ok 1023 ∧
    judgeFrame ⟨10, 0, .even, .gray, 400⟩ (bitsOf 0b10000000000 11) = .error .parity ∧
    convert 1000000 100000 6554 = 90005 ∧ convert 99000 100006 6554 = -101 ∧ convert 1000000 100006 6554 = 90004 ∧
    surveyScale ⟨10000, 200000, 110000, 1200000⟩ = 6554 ∧ surveyOffset ⟨10000, 200000, 110000, 1200000⟩ = 100006 ∧
    convert 200000 100006 6554 = 10000 ∧ convert 1200000 100006 6554 = 110006 ∧
    surveyScale ⟨10000, 200000, 10001, 1200000⟩ = 0 := by decide +kernel

/-- The example under R143, and the wear points under R116. -/
theorem test_allowancesAndWear :
    allowanceOf Runway.reset 15 = 2250 ∧ allowanceOf Runway.reset (-7) = 0 ∧ allowance Runway.reset (-1) (some (-7)) = 1050 ∧
    allowance Runway.reset 1 none = 20000 ∧
    Torch.wear { Torch.reset 0 with starts := 310, arcTime := 45230 } = 12852 := by decide +kernel

/-- Two cranes closing, of chapter 8: what the evaluations of samples 501 to 504 make of C1's E and C2's W. -/
def closing (x1 d1 x2 d2 : Int) (on : Bool) : State :=
  let seen (x : Int) (d : Int) : CraneSample :=
    ⟨⟨x, .valid, 0⟩, ⟨5000, .valid, 0⟩, ⟨0, .valid, 0⟩, some d, some 0, true, ⟨0, true⟩⟩
  let s := { State.reset with
    ppn := { State.reset.ppn with mode := .opened },
    rsu := { State.reset.rsu with latest := ⟨501, 0, 0, [(0, seen 20000 0), (1, seen x1 d1), (2, seen x2 d2)]⟩ },
    clu := { State.reset.clu with runway := { Runway.reset with lookAhead := 4000 } } }
  let v : CraneClear := { CraneClear.reset with westIn := 6000, eastIn := 6000 }
  (s.setCrane 1 { v with pE := ⟨on, []⟩ }).setCrane 2 { v with pW := ⟨on, []⟩ }

theorem test_cranesClose :
    let pair (s : State) : Permissive × Permissive := (((evaluate s).crane 1).pE, ((evaluate s).crane 2).pW)
    pair (closing 90005 20 112400 (-10) true) = (⟨true, []⟩, ⟨true, []⟩) ∧
    pair (closing 90029 24 112390 (-10) true) = (⟨false, [.neighbour]⟩, ⟨false, [.neighbour]⟩) ∧
    pair (closing 90050 21 112380 (-10) false) = (⟨false, [.neighbour]⟩, ⟨false, [.neighbour]⟩) ∧
    pair (closing 90060 10 112380 0 false) = (⟨true, []⟩, ⟨true, []⟩) := by decide +kernel

/-- Frames of the two ports: SET_HOLD of piece 5:2, the same with a wrong CRC and with a byte too few, and the answers of a
station. -/
theorem test_frames :
    let frame (l : List Byte) : List Byte := l ++ Wire.crcBytes l
    portCommand (frame [0, 3, 8, 0, 5, 2]) = some (.setHold ⟨5, 2⟩) ∧
    portCommand [0, 3, 8, 0, 5, 2, 0, 0] = some (.portBadFrame none) ∧
    portCommand (frame [0, 2, 8, 0, 5]) = some (.portBadFrame (some 8)) ∧
    linkCommand 9 true (0x7E#8 :: frame [9, 1, 0]) = .idleAnswer ∧
    linkCommand 9 true (0x7E#8 :: frame [9, 2, 2, 52, 1]) = .takeMove 1 ∧
    linkCommand 9 false (0x7E#8 :: frame [9, 1, 0]) = .badAnswer ∧
    linkCommand 9 true [] = .replyWindowExpiry := by decide +kernel

/-- A transaction on the lines of the port: the frame of SET_HOLD as its clock and data levels, the same with a byte cut short
behind it, and one cut short alone; and the reply buffer after reset as the host takes it. -/
theorem test_portLines :
    let frame (l : List Byte) : List Byte := l ++ Wire.crcBytes l
    let clocked (l : List Bool) : List (Bool × Bool) := l.flatMap fun x => [(false, x), (true, x)]
    let clock := (List.replicate 64 [false, true]).flatten
    portTransaction (clocked (portBits (frame [0, 3, 8, 0, 5, 2]))) = some (.setHold ⟨5, 2⟩) ∧
    portTransaction (clocked (portBits (frame [0, 3, 8, 0, 5, 2]) ++ [true, true])) = some (.setHold ⟨5, 2⟩) ∧
    portTransaction (clocked [true, false]) = none ∧
    portBytes (sampledBits false (clock.zip (portDataOut State.reset clock))) = frame [0, 0, 0, 0] ++ [0, 0] := by
  decide +kernel

/-! ## States for the witnesses -/

/-- A plate of 6000 × 2000 × 20 mm, at a place, in a state, naming a move or none. -/
def plate (pl : Place) (st : PieceState) (mv : Option Nat) : Piece :=
  { newPlate (keyA 318) 12 200 6000 2000 77 with place := pl, state := st, move := mv }

def withPiece (s : State) (h : Handle) (p : Piece) : State :=
  { (s.setRecord h.index ⟨h.gen, some p⟩) with srg :=
    { okDir (dirInsert s.srg p.key h) with records := (s.setRecord h.index ⟨h.gen, some p⟩).srg.records } }

def inMode (m : Mode) (s : State) : State := { s with ppn := { s.ppn with mode := m } }

/-- An open hall in which station 9 has role and unit and is being polled. -/
def hall (r : Role) (u : Nat) (st : StationState) : State :=
  let s := inMode .opened (State.reset.setStation 9 ⟨st, some (r, u), 2⟩)
  let s := { s with slc := { s.slc with turn := some ⟨9, none⟩, pollList := [9, 3], cursor := 1 } }
  let s := s.setSlot 21 ⟨1000, 2000, true, [⟨100, 0⟩, H], 900, 1, 70, 1⟩
  let s := s.setSlot 22 ⟨1500, 2500, true, [⟨101, 0⟩], 300, 2, 500, 0⟩
  let s := s.setBed 4 ⟨[⟨102, 1⟩], 3000, 4000, 2000, 4000, 3000, 5000, true⟩
  let s := s.setBed 5 ⟨[H], 3500, 4500, 2000, 4000, 3000, 5000, true⟩
  let s := s.setZone 5 ⟨.loaded, none, none⟩
  let s := s.setCrane 1 { CraneClear.reset with capacity := 20000, west := 100, east := 200 }
  let v : CraneSample := { CraneSample.reset with x := ⟨1100, .valid, 0⟩, y := ⟨2100, .held, 1⟩ }
  { s with rsu := { s.rsu with latest := ⟨3, 0, 0, [(1, v)]⟩ } }

/-- Move 7 of the plate on crane 1, and another behind it. -/
def moveA (d : Option Dest) (st : MoveState) : Move := ⟨7, H, d, st⟩
def moveB : Move := ⟨8, ⟨101, 0⟩, some (.slot 30), .queued⟩

def moving (pl : Place) (pst : PieceState) (d : Option Dest) (st : MoveState) : State :=
  let s := withPiece ((hall .crane 1 .offline).setQueue 1 [moveA d st, moveB]) H (plate pl pst (some 7))
  let s := match pl with
    | .hook c => s.setHook c (some H)
    | .receiving => { s with lmap := { s.lmap with
        receiving := [⟨50, 0⟩, H, ⟨51, 0⟩], recvX := 1000, recvY := 2000 } }
    | _ => s
  match d with
  | some (.zone z) => s.setZone z ⟨.loading, none, some 7⟩
  | _ => s

/-- A part of nest 33, and the nest on plate H. -/
def part (m : MarkState) (b : PartBurn) (f : Nat := 0) : Part := ⟨some [65, 66], 100, 200, m, f, b, 3, 40, 1⟩
def nest (st : NestState) (ps : List Part) : Nest := ⟨33, H, st, ps, [⟨declA, none⟩]⟩
def nestPlate : Piece := { plate (.zone 5) .onTable none with reservation := some ⟨.nest, 33⟩ }

/-- Table 2 with this on its bed B (zone 5), torch 4 mounted, and a station of role `r` for it. -/
def tableTwo (r : Role) (ph : Phase) (n : Option Nest) (act : Option Bed) (chain : Bool) : State :=
  let s := withPiece (hall r 2 .offline) H nestPlate
  let s := (s.setZone 5 ⟨ph, n, none⟩).setTable 2 ⟨act, chain⟩
  s.setTorch 4 { s.torch 4 with mounted := some 2, state := .inService, starts := 10, arcTime := 1000 }

def nestCut : Nest := nest .active [part .marked .interrupted, part .pending .pending 1, part .marked .burnt]
def grantA : Grant := ⟨⟨.b, 33, 1⟩, 95, 300, 10, true⟩
def nestBurning : Nest := nest .active [part .marked .pending, part .marked .burning 1, part .marked .skipped]

/-- The table under a grant for part 1 of its nest. -/
def granted (r : Role) : State :=
  ((tableTwo r .cutting (some nestBurning) (some .b) false).setBurn 2 ⟨.granted, some grantA, none, true⟩).setGrantHeld 5 true

def arc (s : State) (a : ArcState) (stuck : Bool) : State := s.setMonitor 2 ⟨a, stuck, 70, 2⟩

/-! ## Witnesses: the machine as a whole -/

theorem canonical_granted : Canonical (granted .burn) := by
  unfold Canonical; decide +kernel

theorem witness_StepKeepsBanksCanonical :
    Canonical (granted .burn) ∧ ∃ t, step { granted .burn with pending := [.setBurnTimes none none] } = .next t :=
  ⟨canonical_granted, _, rfl⟩

theorem witness_EveryCommandGivesANextState : State.reset.pending = [] := rfl

/-- A registry of one piece. -/
def onePiece : State := { State.reset with srg := { Srg.reset with
  records := [(5, ⟨2, some (plate .receiving .arriving none)⟩)], primary := [(3126, .direct ⟨keyA 318, H⟩)] } }

theorem dirEntry_onePiece (i : Nat) :
    dirEntry onePiece.srg i = if i = 3126 then .direct ⟨keyA 318, H⟩ else .empty := by
  by_cases h : i = 3126
  · simp [h, dirEntry, onePiece, bankGet]
  · simp [h, Ne.symm h, dirEntry, onePiece, bankGet]

theorem witness_StepKeepsRegistrySound : RegistrySound onePiece := by
  have hk : keyHash (keyA 318) = 3126 := by decide +kernel
  refine ⟨⟨fun i it h => ?_, fun i n h => ?_, fun i j n h _ => ?_, fun n h => nomatch h⟩, fun k h => ?_⟩
  · rw [dirEntry_onePiece] at h
    split at h <;> simp_all
    rw [← h]; exact hk
  · rw [dirEntry_onePiece] at h
    split at h <;> simp_all
  · rw [dirEntry_onePiece] at h
    split at h <;> simp_all
  · rw [dirLookup, dirEntry_onePiece]
    constructor
    · intro e
      by_cases hh : keyHash k = 3126
      · simp only [hh, if_true] at e
        split at e
        · next ek => cases ek; cases e; exact ⟨_, rfl, rfl⟩
        · cases e
      · simp [hh] at e
    · rintro ⟨p, e, rfl⟩
      obtain ⟨i, g⟩ := h
      by_cases hi : i = 5
      · subst hi
        injection e with e1 e2
        injection e2 with e3
        subst e3 e1
        exact (by decide +kernel : (match if keyHash (keyA 318) = 3126 then DirEntry.direct ⟨keyA 318, H⟩ else .empty with
          | .empty => none
          | .direct it => if it.key = keyA 318 then some it.handle else none
          | .spill n => (spillGroup onePiece.srg n).find (keyA 318)) = some H)
      · simp [onePiece, bankGet, Ne.symm hi, PieceRecord.reset] at e

theorem witness_StepKeepsTorchSafe : BindingsOk (granted .burn) ∧ TorchSafe (granted .burn) := by
  have hs (a : Nat) : (granted .burn).station a = if a = 9 then ⟨.offline, some (.burn, 2), 2⟩ else Station.reset := by
    by_cases h : a = 9
    · subst h; rfl
    · exact (if_neg (Ne.symm h)).trans (if_neg h).symm
  have hb (t : Nat) : (granted .burn).burn t = if t = 2 then ⟨.granted, some grantA, none, true⟩ else Burn.reset := by
    by_cases h : t = 2
    · subst h; rfl
    · exact (if_neg (Ne.symm h)).trans (if_neg h).symm
  have hg (z : Nat) : (granted .burn).grantHeld z = if z = 5 then true else false := by
    by_cases h : z = 5
    · subst h; rfl
    · exact (if_neg (Ne.symm h)).trans (if_neg h).symm
  refine ⟨fun a r u h => ?_, fun t => ?_, fun z => ?_⟩
  · rw [hs] at h
    split at h
    · cases h; rfl
    · cases h
  · rw [hb]
    split
    · next h => subst h; exact ⟨by decide, by decide, fun _ => ⟨by decide, rfl⟩⟩
    · exact ⟨by decide, by decide, fun h => nomatch h⟩
  · rw [hg, hb]
    by_cases hz : z = 5
    · subst hz; exact ⟨fun _ => ⟨grantA, rfl, rfl⟩, fun _ => rfl⟩
    · constructor
      · intro h; simp [hz] at h
      · rintro ⟨g, h, e⟩
        split at h
        · next ht =>
          cases h
          rw [ht] at e
          exact absurd e.symm hz
        · cases h

/-- A crane that may travel east. -/
def eastward : State :=
  let s := inMode .opened { State.reset with rsu := { State.reset.rsu with latest := ⟨1, 0, 0,
    [(0, ⟨⟨50000, .valid, 0⟩, ⟨5000, .valid, 0⟩, ⟨0, .valid, 0⟩, some 0, some 0, true, ⟨0, true⟩⟩),
     (1, ⟨⟨150000, .valid, 0⟩, ⟨5000, .valid, 0⟩, ⟨0, .valid, 0⟩, some 0, some 0, true, ⟨0, true⟩⟩)]⟩ } }
  s.setCrane 0 { CraneClear.reset with pE := ⟨true, []⟩ }

theorem witness_StepKeepsTravelSafe : TravelSafe eastward ∧ ((eastward.crane 0).permissive .e).on = true := by
  refine ⟨fun c d h => ?_, rfl⟩
  by_cases hc : c = 0
  · subst hc
    cases d
    · exact absurd h (by decide +kernel)
    · exact ⟨by decide, by decide +kernel⟩
    · exact absurd h (by decide +kernel)
    · exact absurd h (by decide +kernel)
  · have e : eastward.crane c = CraneClear.reset := if_neg (Ne.symm hc)
    rw [e] at h
    cases d <;> exact absurd h (by decide)

/-! ## Witnesses: the registry -/

theorem bankGet_range {α : Type} (reset f : Nat → α) (n a k : Nat) :
    bankGet reset ((List.range' a n).map fun i => (i, f i)) k = if a ≤ k ∧ k < a + n then f k else reset k := by
  induction n generalizing a with
  | zero => simp [bankGet, show ¬ (a ≤ k ∧ k < a) by omega]
  | succ n ih =>
    simp only [List.range'_succ, List.map_cons, bankGet, ih]
    by_cases h : a = k
    · subst h; simp
    · by_cases h2 : a + 1 ≤ k ∧ k < a + 1 + n
      · rw [if_neg h, if_pos h2, if_pos (by omega)]
      · rw [if_neg h, if_neg h2, if_neg (by omega)]

/-- The directory of the worked sequence with every group from `a` to 511 in use. -/
def groupsFrom (a : Nat) : Srg := { dirOne with groups := (List.range' a (512 - a)).map fun n => (n, ⟨true, []⟩) }

theorem witness_InsertFindsNoGroup :
    dirEntry (groupsFrom 0) 3126 = .direct ⟨keyA 93, ⟨40, 2⟩⟩ ∧ ∀ n, n < 512 → (spillGroup (groupsFrom 0) n).inUse = true := by
  refine ⟨by decide +kernel, fun n h => ?_⟩
  simp only [spillGroup, groupsFrom, bankGet_range]
  rw [if_pos ⟨Nat.zero_le _, by omega⟩]

theorem witness_InsertFindsTheLastGroup :
    let g : Srg := { dirOne with groups := (List.range' 0 511).map fun n => (n, ⟨true, []⟩) }
    (spillGroup g 511).inUse = false ∧ ∀ m, m < 511 → (spillGroup g m).inUse = true := by
  refine ⟨by decide +kernel, fun n h => ?_⟩
  simp only [spillGroup, bankGet_range]
  rw [if_pos ⟨Nat.zero_le _, by omega⟩]

theorem witness_InsertFollowsTheTable :
    dirEntry Srg.reset (keyHash (keyA 93)) = .empty ∧
    dirEntry dirOne (keyHash (keyA 318)) = .direct ⟨keyA 93, ⟨40, 2⟩⟩ ∧ keyA 93 ≠ keyA 318 ∧
    ((spillGroup dirOne 2).inUse = false ∧ ∀ m, m < 2 → (spillGroup dirOne m).inUse = true) ∧
    dirEntry dirTwo 3126 = .spill 2 ∧ dirEntry dirFour 3126 = .spill 2 ∧
    (spillGroup dirTwo 2).slots = [some ⟨keyA 93, ⟨40, 2⟩⟩, some ⟨keyA 318, ⟨41, 0⟩⟩] ++ none :: [none] ∧
    (spillGroup dirFour 2).slots = [some ⟨keyA 93, ⟨40, 2⟩⟩, some ⟨keyA 318, ⟨41, 0⟩⟩, some ⟨keyA 543, ⟨42, 0⟩⟩,
      some ⟨keyA 768, ⟨43, 0⟩⟩] ∧ keyHash (keyA 32764) = 3126 := by decide +kernel

theorem witness_DirectoryFindsWhatItHolds :
    DirectoryShape onePiece.srg ∧ (∃ g, dirInsert onePiece.srg (keyA 93) ⟨40, 2⟩ = .ok g) ∧
      dirInsert onePiece.srg (keyA 318) ⟨40, 2⟩ = .error .duplicateKey :=
  ⟨witness_StepKeepsRegistrySound.1, ⟨_, rfl⟩, rfl⟩

/-- A directory of one SPILL entry, of the worked hash, with these slots in its group. -/
def spilled (l : List (Option DirItem)) : Srg := { Srg.reset with primary := [(3126, .spill 0)], groups := [(0, ⟨true, l⟩)] }

theorem shape_spilled {l : List (Option DirItem)} (h4 : l.length = 4)
    (h2 : 2 ≤ (SpillGroup.items ⟨true, l⟩).length) (hd : ((SpillGroup.items ⟨true, l⟩).map (·.key)).Nodup)
    (hk : ∀ it ∈ SpillGroup.items ⟨true, l⟩, keyHash it.key = 3126) : DirectoryShape (spilled l) := by
  have he (i : Nat) : dirEntry (spilled l) i = if 3126 = i then .spill 0 else .empty := by
    by_cases h : i = 3126 <;> simp [dirEntry, spilled, bankGet, h]
  have hg : spillGroup (spilled l) 0 = ⟨true, l⟩ := rfl
  refine ⟨fun i it h => ?_, fun i n h => ?_, fun i j n h h' => ?_, fun n h => ⟨3126, ?_⟩⟩
  · rw [he] at h; split at h <;> cases h
  · rw [he] at h
    split at h <;> cases h
    next e => subst e; rw [hg]; exact ⟨by decide, rfl, h4, h2, hd, hk⟩
  · rw [he] at h h'
    split at h <;> split at h' <;> simp_all
  · by_cases e : n = 0
    · subst e; rw [he]; rfl
    · simp [spilled, spillGroup, bankGet, Ne.symm e, SpillGroup.reset] at h

/-- Deletes that leave one key in the group, and three. -/
theorem witness_DeleteFreesTheGroup :
    let a : DirItem := ⟨keyA 93, ⟨40, 2⟩⟩
    let b : DirItem := ⟨keyA 318, ⟨41, 0⟩⟩
    let two := spilled [some a, none, some b, none]
    let four := spilled [some a, some b, some ⟨keyA 543, ⟨42, 0⟩⟩, some ⟨keyA 768, ⟨43, 0⟩⟩]
    (DirectoryShape two ∧ DirectoryShape four) ∧ dirEntry two (keyHash (keyA 93)) = .spill 0 ∧
    dirEntry four (keyHash (keyA 93)) = .spill 0 ∧ ((spillGroup two 0).items.filter fun it => it.key ≠ keyA 93) = [b] ∧
    2 ≤ ((spillGroup four 0).items.filter fun it => it.key ≠ keyA 93).length :=
  ⟨⟨shape_spilled rfl (by decide) (by decide) (by decide +kernel),
    shape_spilled rfl (by decide) (by decide) (by decide +kernel)⟩, by decide +kernel⟩

/-- The open hall with plate H in slot 21, and record 0 free at generation 9. -/
def stocked (st : StationState) : State :=
  let s := withPiece (hall .burn 2 st) H (plate (.slot 21) .stored none)
  { s with srg := { s.srg with records := (0, ⟨9, none⟩) :: s.srg.records } }

def plateInSlot : Piece := plate (.slot 21) .stored none

theorem witness_HandlesNameLivePieces :
    2047 < (⟨2048, 0⟩ : Handle).index ∧
    ((⟨2047, 1⟩ : Handle).index ≤ 2047 ∧ ((stocked .online).record 2047).gen ≠ 1 ∧ ((stocked .online).record 5).gen ≠ 1) ∧
    ((stocked .online).record 2047 = ⟨0, none⟩ ∧ (stocked .online).record 0 = ⟨9, none⟩) ∧
    (stocked .online).names H plateInSlot ∧ (stocked .online).serves 9 .burn 2 ∧
    (heatOk (keyA 318).heat = true ∧ heatOk heatA.tail = false ∧ (1 ≤ 1 ∧ 65535 ≤ 65535) ∧ 32767 ≠ 32768) ∧
    dirLookup (stocked .online).srg (keyA 318) = some H ∧ dirLookup (stocked .online).srg (keyA 65535) = none ∧
    (destArg? (.slot ⟨9, 15⟩) = some (.slot 159) ∧ ((stocked .online).queue 2).length < 16) ∧
    (H ∉ [(⟨100, 0⟩ : Handle)] ∧ plateInSlot.place = .slot 21 ∧
      ((stocked .online).slot 21).stack = [⟨100, 0⟩] ++ H :: []) ∧
    (H ∉ [(⟨50, 0⟩ : Handle)] ∧
      (moving .receiving .arriving none .taken).lmap.receiving = [⟨50, 0⟩] ++ H :: [⟨51, 0⟩]) := by
  unfold State.names State.serves; decide +kernel

theorem witness_EnrolPlateCreates :
    let s := stocked .online
    let ok (k : Key) (g t l w : Nat) : Prop := heatOk k.heat = true ∧ (1 ≤ k.seq ∧ k.seq ≤ 32767) ∧ g ≤ 63 ∧
      (30 ≤ t ∧ t ≤ 1000) ∧ (1000 ≤ l ∧ l ≤ 18000) ∧ 500 ≤ w ∧ w ≤ 4800
    (((inMode .stopped s).ppn.mode = .stopped ∧ s.ppn.mode ≠ .stopped) ∧
      (ok (keyA 32767) 63 1000 18000 4800 ∧ ok (keyA 1) 0 30 1000 500) ∧
      (¬ ok (keyA 32768) 63 1000 18000 4800 ∧ ¬ ok (keyA 1) 0 29 1000 500) ∧
      (s.lmap.receiving.length < 32 ∧ 32 ≤ (List.replicate 32 H).length) ∧
      ((dirLookup s.srg (keyA 318)).isSome = true ∧ dirLookup s.srg (keyA 93) = none) ∧
      ((s.record 0).live = none ∧ ∀ j, j < 0 → (s.record j).live ≠ none) ∧
      dirInsert dirFour (keyA 32764) ⟨0, 9⟩ = .error .directoryFull) ∧
    ∃ g, dirInsert s.srg (keyA 93) ⟨0, 9⟩ = .ok g :=
  ⟨by decide +kernel, _, rfl⟩

/-- A registry in which every record holds a live piece. -/
def fullRegistry : State := { State.reset with srg := { Srg.reset with
  records := (List.range' 0 2048).map fun i => (i, ⟨0, some { plate .receiving .arriving none with created := i + 1 }⟩) } }

theorem witness_NoRecordIsFree : fullRegistry.full := by
  intro i h
  simp only [State.record, fullRegistry, bankGet_range]
  rw [if_pos ⟨Nat.zero_le _, by omega⟩]
  simp

theorem witness_CreationSequence :
    (∀ i, 2048 ≤ i → ((granted .burn).record i).live = none) ∧ 1 ≤ (granted .burn).srg.creation ∧
      (granted .burn).srg.creation ≤ 4294967295 := by
  refine ⟨fun i h => ?_, by decide +kernel, by decide +kernel⟩
  have e : (granted .burn).record i = PieceRecord.reset := if_neg (show ¬ (5 : Nat) = i by omega)
  rw [e]; rfl

theorem witness_FieldsOfARemnant :
    heatOk heatA = true ∧ SteelFields 63 1000 ∧ ¬ SteelFields 64 1000 ∧ ¬ SteelFields 63 29 ∧
    RemnantFields ⟨18000, 4800, [⟨0, 0, 18000, 4800⟩], 864000⟩ ∧ RemnantFields declA ∧
    ¬ RemnantFields ⟨1000, 600, [rectA], 6001⟩ := by
  unfold SteelFields RemnantFields OutlineFields; decide +kernel

theorem witness_EnrolRemnantCreates :
    let s := (stocked .online).setZone 5 ⟨.cut, none, none⟩
    (((inMode .cold s).ppn.mode = .cold ∧ s.ppn.mode ≠ .cold ∧ zoneArg? ⟨6, 0⟩ = none ∧ zoneArg? Z = some 5) ∧
      (((stocked .online).zone 5).phase ≠ .cut ∧ (s.zone 5).phase = .cut ∧ (s.bed 5).pieces.length < 2 ∧
        2 ≤ ((s.setBed 5 { s.bed 5 with pieces := [H, H] }).bed 5).pieces.length) ∧
      s.lowestFree 0 ∧ (s.remnantKey heatA 0 = keyA 32769 ∧ dirLookup s.srg (keyA 32769) = none)) ∧
    s.drawsKey heatA (keyA 32769) ∧ ∃ g, dirInsert s.srg (keyA 32769) (s.handleAt 0) = .ok g :=
  ⟨by unfold State.lowestFree; decide +kernel,
    ⟨0, by decide, rfl, by decide +kernel, fun m h => absurd h (Nat.not_lt_zero m)⟩, _, rfl⟩

/-- The key drawn finds its entry DIRECT to another key and every group in use. -/
theorem witness_RemnantFindsTheDirectoryFull :
    let s : State := { State.reset with srg := { groupsFrom 0 with remnant := 221 } }
    s.lowestFree 0 ∧ s.drawsKey heatA (keyA 32989) ∧ dirInsert s.srg (keyA 32989) (s.handleAt 0) = .error .directoryFull := by
  refine ⟨by unfold State.lowestFree; decide +kernel,
    ⟨0, by decide, rfl, by decide +kernel, fun m h => absurd h (Nat.not_lt_zero m)⟩, by decide +kernel⟩

/-- A directory, of no run, in which every remnant key of the heat code is found. -/
def crowded : State := { State.reset with srg := { Srg.reset with
  primary := (List.range' 0 4096).map fun i => (i, .spill 0),
  groups := [(0, ⟨true, (List.range' 32769 32767).map fun n => some ⟨keyA n, H⟩⟩)] } }

theorem keyHash_lt (k : Key) : keyHash k < 4096 := by
  have h (l : List Nat) (v : Nat) (hv : v < 4096) : l.foldl (fun v b => (v * 31 + b) % Config.primaryEntries) v < 4096 := by
    induction l generalizing v with
    | nil => exact hv
    | cons b r ih => exact ih _ (Nat.mod_lt _ (by decide))
  exact h _ _ (by decide)

theorem witness_EveryRemnantKeyIsInUse : crowded.lowestFree 0 ∧ crowded.drawsNone heatA := by
  refine ⟨by unfold State.lowestFree; decide +kernel, fun j _ => ?_⟩
  have hn (j : Nat) : 1 ≤ (fun n => if n < 32767 then n + 1 else 1)^[j] crowded.srg.remnant ∧
      (fun n => if n < 32767 then n + 1 else 1)^[j] crowded.srg.remnant ≤ 32767 := by
    induction j with
    | zero => exact ⟨by decide, by decide⟩
    | succ j ih => rw [Function.iterate_succ_apply']; split <;> omega
  obtain ⟨n, e⟩ : ∃ n, n = (fun n => if n < 32767 then n + 1 else 1)^[j] crowded.srg.remnant := ⟨_, rfl⟩
  have hn' := hn j
  rw [← e] at hn'
  have hk : crowded.remnantKey heatA j = keyA (32768 + n) := by rw [e]; rfl
  have he : dirEntry crowded.srg (keyHash (keyA (32768 + n))) = .spill 0 := by
    have h := keyHash_lt (keyA (32768 + n))
    simp only [dirEntry, crowded, bankGet_range (fun _ => DirEntry.empty) fun _ => .spill 0]
    rw [if_pos ⟨Nat.zero_le _, by omega⟩]
  rw [hk, dirLookup, he]
  refine fun hf => absurd (List.findSome?_eq_none_iff.mp hf ⟨keyA (32768 + n), H⟩ ?_) (by simp)
  refine List.mem_filterMap.mpr ⟨_, ?_, rfl⟩
  exact List.mem_map.mpr ⟨32768 + n, List.mem_range'.mpr ⟨n - 1, by omega, by omega⟩, rfl⟩

/-- The hall in COLD, as RESTORE_PIECE takes it. -/
def cold : State := inMode .cold (stocked .online)

theorem witness_RestorePieceRefuses :
    let s := cold
    let at' (k : Nat) (l : LocArg) : RestoreArg := restoreA k l 93 500
    let crowd : State := { s with lmap := { s.lmap with receiving := List.replicate 32 H } }
    ((stocked .online).ppn.mode ≠ .cold ∧ s.ppn.mode = .cold ∧ placeArg? (.other 4) = none ∧
      restored { at' 0 .receiving with grade := 64 } .receiving = none) ∧
    (placeArg? .receiving = some .receiving ∧ (restored (at' 0 .receiving) .receiving).isSome = true ∧
      createdInUse s 77 = true ∧ createdInUse s 500 = false ∧ 32 ≤ crowd.lmap.receiving.length) ∧
    (placeArg? (.slot ⟨9, 15⟩) = some (.slot 159) ∧ (restored (at' 0 (.slot ⟨9, 15⟩)) (.slot 159)).isSome = true ∧
      (s.slot 159).enabled = false ∧ (s.slot 22).enabled = true) ∧
    (let t := s.setSlot 22 ⟨0, 0, true, List.replicate 12 H, 0, 0, 0, 0⟩
     12 < (t.slot 22).stack.length + (t.slot 22).inCount + 1) ∧
    (let t := s.setSlot 22 ⟨0, 0, true, [], 5801, 0, 0, 0⟩
     6000 < (t.slot 22).height + (t.slot 22).inThick + 200) ∧
    (placeArg? (.zone ⟨5, 1⟩) = some (.zone 11) ∧ (s.bed 11).configured = false ∧ (s.bed 5).configured = true ∧
      (s.bed 5).pieces ≠ [] ∧ ((s.setBed 5 { s.bed 5 with pieces := [] }).zone 5).phase ≠ .clear ∧
      (s.zone 5).inbound = none ∧ (s.zone 5).nest = none) ∧
    (placeArg? (.hook 2) = some (.hook 2) ∧ (restored (at' 0 (.hook 2)) (.hook 2)).isSome = true ∧
      (s.setHook 2 (some H)).hook 2 ≠ none ∧ s.hook 2 = none ∧ s.queue 2 = [] ∧ (s.crane 2).capacity < 1) ∧
    (let t := s.setQueue 1 (List.replicate 16 moveB)
     (t.queue 1 = moveB :: List.replicate 15 moveB ∧ moveB.state = .queued) ∧ 20000 ≤ (t.crane 1).capacity ∧
       16 ≤ (t.queue 1).length) ∧
    (s.setQueue 1 [moveA none .suspended]).queue 1 = moveA none .suspended :: [] ∧
    (s.lmap.receiving.length < 32 ∧ dirLookup s.srg (keyA 318) ≠ none ∧ dirLookup s.srg (keyA 93) = none) := by
  decide +kernel

/-- The directory refuses the key of a piece restored to an empty receiving row. -/
theorem witness_RestoreFindsTheDirectoryFull :
    let s : State := { State.reset with srg := groupsFrom 0 }
    s.ppn.mode = .cold ∧ s.lmap.receiving.length < 32 ∧ (restored (restoreA 0 .receiving 318 500) .receiving).isSome = true ∧
    createdInUse s 500 = false ∧ dirLookup s.srg (keyA 318) = none ∧ s.lowestFree 0 ∧
    dirInsert s.srg (keyA 318) (s.handleAt 0) = .error .directoryFull := by
  unfold State.lowestFree; decide +kernel

/-- A plate and a remnant within the ranges of R17, and fields beside them. -/
theorem witness_RestoredFields :
    let a := restoreA 0 .receiving 1 1
    let b := restoreA 1 .receiving 32769 4294967295
    (SteelFields a.grade a.thickness ∧ heatOk a.key.heat = true ∧ OutlineFields a.len a.wid ∧ a.kind = 0) ∧
    (b.kind = 1 ∧ RemnantFields ⟨b.len, b.wid, b.rects, b.net⟩) ∧ ¬ SteelFields 64 30 ∧ ¬ OutlineFields 999 500 := by
  unfold SteelFields OutlineFields RemnantFields OutlineFields; decide +kernel

theorem witness_RestorePieceCreates :
    let s := cold
    (s.lmap.receiving.length < 32 ∧
      ((s.slot 22).enabled = true ∧ (s.slot 22).stack.length + (s.slot 22).inCount + 1 ≤ 12 ∧
        (s.slot 22).height + (s.slot 22).inThick + 5200 ≤ 6000) ∧
      (let t := s.setBed 5 ⟨[], 0, 0, 0, 1, 0, 1, true⟩
       let t := t.setZone 5 ⟨.clear, none, none⟩
       (t.bed 5).configured = true ∧ (t.bed 5).pieces = [] ∧ (t.zone 5).inbound = none ∧ (t.zone 5).phase = .clear ∧
         (t.zone 5).nest = none) ∧
      (s.hook 1 = none ∧ s.queue 1 = [] ∧ 20000 ≤ (s.crane 1).capacity ∧ (s.queue 1).length < 16)) ∧
    dirLookup s.srg (keyA 93) = none ∧ s.lowestFree 0 ∧ ∃ g, dirInsert s.srg (keyA 93) (s.handleAt 0) = .ok g :=
  ⟨by decide +kernel, by decide +kernel, by unfold State.lowestFree; decide +kernel, _, rfl⟩

theorem witness_RetirePieceFreesTheRecord :
    let s := stocked .online
    let free := s.setSlot 21 ⟨1000, 2000, true, [⟨100, 0⟩, H], 900, 0, 0, 0⟩
    let row := withPiece (hall .burn 2 .online) H (plate .receiving .arriving none)
    s.names H plateInSlot ∧ free.names H plateInSlot ∧ row.names H (plate .receiving .arriving none) ∧
    (granted .burn).names H nestPlate ∧ nestPlate.state ≠ .stored ∧ nestPlate.state ≠ .arriving ∧
    plateInSlot.move = none ∧ (plate (.slot 21) .stored (some 7)).move ≠ none ∧
    nestPlate.reservation = some ⟨.nest, 33⟩ ∧ 0 < (s.slot 21).outCount ∧ (free.slot 21).inCount = 0 ∧
    (free.slot 21).outCount = 0 ∧ H.gen < 256 ∧ (State.reset.record H.index).gen ≠ H.gen := by
  unfold State.names; decide +kernel

theorem witness_HoldsAndReservations :
    let p := plateInSlot
    let host (n : Nat) : Piece := { p with reservation := some ⟨.host, n⟩ }
    (stocked .online).names H p ∧ (withPiece (hall .burn 2 .online) H (host 4294967295)).names H (host 4294967295) ∧
    (host 44).reservation = some ⟨.host, 44⟩ ∧ nestPlate.reservation ≠ some ⟨.host, 33⟩ ∧
    p.reservation = none ∧ p.hold = false ∧ { p with hold := true }.hold = true ∧ p.state = .stored ∧
    nestPlate.state = .onTable := by
  unfold State.names; decide +kernel

/-! ## Witnesses: locations, notices and the port -/

theorem witness_LocationsAreConfiguredAndRead :
    let s := stocked .online
    (9 < (⟨10, 0⟩ : SlotArg).bay ∧ 15 < (⟨0, 16⟩ : SlotArg).slot ∧ 400000 < 400001 ∧ 60000 < 60001) ∧
    (s.ppn.mode ≠ .cold ∧ (s.slot 159).x ≠ 400000 ∧ (s.slot 21).x = 1000 ∧ (s.slot 21).y = 2000 ∧
      cold.ppn.mode = .cold) ∧
    zoneArg? ⟨5, 1⟩ = some 11 ∧ (0 < 1 ∧ (0 ≤ 1 ∧ 1 ≤ 400000)) ∧
    (0 < (s.slot 21).outCount ∧ (s.slot 22).outCount = 0 ∧ (s.slot 23).enabled = false ∧ (s.slot 22).enabled = true) ∧
    ((s.slot 22).stack.length + (s.slot 22).inCount + 1 ≤ 12 ∧ (s.slot 22).height + (s.slot 22).inThick + 5200 ≤ 6000 ∧
      6000 < (s.slot 22).height + (s.slot 22).inThick + 5201) ∧
    (let t := s.setSlot 22 ⟨0, 0, true, List.replicate 11 H, 0, 1, 0, 0⟩
     12 < (t.slot 22).stack.length + (t.slot 22).inCount + 1) := by decide +kernel

theorem witness_NoticesSeenAndCleared :
    Canonical (granted .burn) ∧ NoticeUnit.hall.code < 12 ∧
    (let s := markSeen (raise (granted .burn) .hall .hallStopped)
     s.notice (noticeCode .hall .hallStopped) = some true ∧
       (unitRead s .hall).notice (noticeCode .hall .hallStopped) = none) :=
  ⟨canonical_granted, by decide +kernel⟩

theorem witness_UnitReadsAndFrames :
    (5 ≤ 5 ∧ 5 < 6 ∧ 2 ≤ 2 ∧ 2 < 3) ∧
    badFrameReply (some 66) = ⟨.range, 66, .none⟩ ∧ badFrameReply (some 67) = ⟨.unknownRequest, 67, .none⟩ ∧
    badFrameReply (some 55) = ⟨.unknownRequest, 55, .none⟩ ∧ badFrameReply (some 0) = ⟨.unknownRequest, 0, .none⟩ := by
  decide +kernel

/-! ## Witnesses: the search -/

def searchA : SearchRequest := ⟨12, 200, 1000, 500, true, .any, some 44, 10, 20⟩
def candidateA : Candidate := ⟨H, 5, 0, false, 77, none⟩
def candidateB : Candidate := ⟨H0, 4, 0, false, 78, none⟩
def scanning (c : Nat) (l : List Candidate) : State :=
  { stocked .online with fse := ⟨.scanning, none, false, none, some searchA, c, l, none, 10, 20⟩ }

theorem witness_FitsAndCandidates :
    let p : Piece := { plateInSlot with kind := .remnant, rects := [⟨0, 0, 999, 500⟩, ⟨0, 0, 500, 1000⟩] }
    fitOf searchA p = some (1, true) ∧ fitOf searchA plateInSlot = some (0, false) ∧
    fitOf { searchA with rotate := false } p = none ∧
    (List.replicate 4 candidateB).length ≤ 4 ∧
    (List.replicate 4 candidateB).Pairwise (fun a b => b.before a = false) ∧ ([] : List Candidate).length ≤ 4 := by
  decide +kernel

theorem witness_SearchStarts :
    let ok (a : FitArg) : Prop := a.grade ≤ 63 ∧ (30 ≤ a.thickness ∧ a.thickness ≤ 1000) ∧ (1 ≤ a.len ∧ a.len ≤ 18000) ∧
      (1 ≤ a.wid ∧ a.wid ≤ 18000) ∧ a.filter ≤ 2
    ok ⟨63, 1000, 18000, 18000, true, 2, none, none⟩ ∧ ok ⟨0, 30, 1, 1, false, 0, none, none⟩ ∧
    ¬ ok ⟨63, 1000, 18001, 1, true, 2, none, none⟩ ∧ ¬ ok ⟨63, 1000, 1, 1, true, 3, none, none⟩ ∧
    (scanning 0 []).fse.phase = .scanning ∧ (stocked .online).fse.phase ≠ .scanning ∧ (stocked .online).fse.phase = .idle ∧
    (nextOf (exec .searchCompletion (scanning 2048 []))).fse.phase = .ready := by decide +kernel

theorem witness_SearchWalksAndCompletes :
    ((scanning 2047 []).fse.cursor < 2048 ∧ ((scanning 2047 []).record 2047).live = none ∧
      ((scanning 5 []).record 5).live = some plateInSlot ∧ fitOf searchA plateInSlot = some (0, false)) ∧
    (plateInSlot.state = .stored ∧ plateInSlot.reservation = none ∧ plateInSlot.hold = false ∧ plateInSlot.move = none ∧
      plateInSlot.grade = searchA.grade ∧ plateInSlot.thickness = searchA.thickness) ∧
    nestPlate.state ≠ .stored ∧
    (let s := scanning 2048 [candidateB, candidateA]
     (survivors s searchA s.fse.candidates).map (·.handle) = [H] ∧ s.piece? H = some plateInSlot ∧
       searchA.tag = some 44 ∧ plateInSlot.place = .slot 21 ∧
       (survivors s searchA s.fse.candidates).map (·.detail) = [some ⟨keyA 318, 21, 0, 120000⟩]) ∧
    survivors (scanning 2048 []) searchA [] = [] := by decide +kernel

/-! ## Witnesses: nests and tables -/

def declOne : DeclArg := ⟨2000, 600, [⟨10, 0, 2000, 600⟩], 12000⟩
def declShort : DeclArg := ⟨999, 600, [⟨10, 0, 2000, 600⟩], 12000⟩
def nestStaged : Nest := nest .staged [part .pending .pending]
/-- Nest 33 staged on a loaded bed of an idle table, ready to start. -/
def ready (chain : Bool) : State := tableTwo .mark .loaded (some nestStaged) none chain
def cutting (r : Role) (n : Nest) : State := tableTwo r .cutting (some n) (some .b) false
/-- The loaded bed with its plate unreserved and no nest. -/
def unstaged (chain : Bool) : State :=
  (tableTwo .mark .loaded none none chain).setRecord 5 ⟨2, some { nestPlate with reservation := none }⟩

theorem witness_DeclarationsAreJudged :
    declsOk nestPlate [declA, declOne] = true ∧ declsOk nestPlate [declShort] = false ∧
    declsOk nestPlate [⟨6000, 2000, [⟨0, 0, 6000, 2000⟩], 120000⟩] = true ∧
    declsOk nestPlate [⟨6000, 2000, [⟨1, 0, 6000, 2000⟩], 120000⟩] = false ∧
    declsOk { nestPlate with kind := .remnant, rects := [⟨0, 0, 2010, 600⟩] } [declOne] = true ∧
    (ready true).holdsNest Z 5 nestStaged ∧ (ready true).names nestStaged.plate nestPlate ∧
    nestStaged.decls.length ≤ 2 ∧ 1 < 2 ∧ nestStaged.decls.length = 1 ∧ 0 < nestStaged.decls.length ∧
    (nest .closed []).state = .closed ∧ nestStaged.state ≠ .closed ∧
    declsOk nestPlate ((nestStaged.decls ++ [(⟨declOne, none⟩ : Decl)]).map (·.arg)) = true ∧
    declsOk nestPlate ((nestStaged.decls.set 0 (⟨declShort, none⟩ : Decl)).map (·.arg)) = false ∧
    { nestStaged with decls := [] }.decls.length < 1 := by
  unfold State.holdsNest State.names; decide +kernel

theorem witness_StageNestStages :
    let s := unstaged true
    let free (s : State) (k : Nat) : Prop := (s.bed k).configured = true ∧ (s.zone k).phase ≠ .cutting ∧
      (s.zone k).phase ≠ .cut ∧ (s.zone k).nest = none
    let p : Piece := { nestPlate with reservation := none }
    zoneArg? ⟨6, 0⟩ = none ∧ zoneArg? Z = some 5 ∧ free s 5 ∧ ¬ free s 6 ∧
    ((1 ≤ 4294967295 ∧ 4294967295 ≤ 4294967295) ∧ 64 = (List.replicate 64 partA).length ∧
      (List.replicate 20 126).length ≤ 20 ∧ (∀ x ∈ [32, 126], 32 ≤ x ∧ x ≤ 126) ∧ 18000 ≤ 18000 ∧ 4800 ≤ 4800) ∧
    ((s.bed 6).configured = false ∧ ((cutting .mark nestCut).zone 5).phase = .cutting ∧
      ((ready true).zone 5).nest ≠ none) ∧
    (2047 < (⟨2048, 0⟩ : Handle).index ∧ (s.record 2047).gen ≠ 1 ∧ s.record 2047 = ⟨0, none⟩) ∧ s.names H p ∧
    (p.hold = false ∧ p.state ≠ .inCut ∧ p.reservation = none ∧ nestPlate.reservation ≠ none) ∧
    (∀ x ∈ (s.bed 5).pieces, x = H) ∧ (∃ x ∈ (s.bed 4).pieces, x ≠ H) ∧
    declsOk p [declOne] = true ∧ declsOk p [declShort] = false ∧
    ((unstaged false).table 2).chain = false ∧ (s.table 2).chain = true ∧ (s.table 2).active = none := by
  unfold State.names; decide +kernel

/-- The nest that STAGE_NEST leaves on the chained table is ready to start. -/
theorem witness_StagedNestIsReady :
    let n : Nest := ⟨44, H, .staged, [], []⟩
    let q : Piece := { nestPlate with reservation := some ⟨.nest, 44⟩ }
    let t := ((unstaged true).setZone 5 { (unstaged true).zone 5 with nest := some n }).setRecord 5 ⟨2, some q⟩
    ReadyToStart t 5 n q ∧ startOk t 4 = false := by
  unfold ReadyToStart State.names; decide +kernel

/-- The plate of 34, ready on bed A of table 2, beside what stands on bed B. -/
def nestOther : Nest := ⟨34, H0, .staged, [part .pending .pending], []⟩
def plateOther : Piece := { nestPlate with key := keyA 1, place := .zone 4, reservation := some ⟨.nest, 34⟩ }
def withOther (s : State) : State :=
  ((withPiece s H0 plateOther).setBed 4 ⟨[H0], 0, 0, 0, 1, 0, 1, true⟩).setZone 4 ⟨.loaded, some nestOther, none⟩

/-- STAGE_NEST on a chained idle table where neither nest is ready, and where the other zone's is. -/
theorem witness_StagedNestWaits :
    let n : Nest := ⟨44, H, .staged, [], []⟩
    let q : Piece := { nestPlate with reservation := some ⟨.nest, 44⟩ }
    let t (s : State) := (s.setZone 5 { s.zone 5 with nest := some n }).setRecord 5 ⟨2, some q⟩
    let stopped := t (inMode .stopped (unstaged true))
    let both := t (withOther (unstaged true))
    ((stopped.table (zoneTable 5)).chain = true ∧ startOk stopped 5 = false ∧ startOk stopped (otherZone 5) = false) ∧
    (both.table (zoneTable 5)).chain = true ∧ ReadyToStart both (otherZone 5) nestOther plateOther ∧
    otherZone 5 = 2 * 2 := by
  unfold ReadyToStart State.names; decide +kernel

theorem witness_NestIsNamedAndWithdrawn :
    5 < (⟨6, 0⟩ : ZoneArg).table ∧ 1 < (⟨0, 2⟩ : ZoneArg).bed ∧ ((unstaged true).zone 5).nest = none ∧
    ((ready true).zone 5).nest = some nestStaged ∧ nestStaged.id ≠ 34 ∧ (ready true).ppn.mode ≠ .cold ∧
    (ready true).holdsNest Z 5 nestStaged ∧ (ready true).names nestStaged.plate nestPlate ∧
    (cutting .mark nestCut).holdsNest Z 5 nestCut ∧ (cutting .mark nestCut).names nestCut.plate nestPlate ∧
    nestCut.state ≠ .staged := by
  unfold State.holdsNest State.names; decide +kernel

theorem witness_NestIsStarted :
    (ready true).holdsNest Z 5 nestStaged ∧ (inMode .cold (ready true)).ppn.mode = .cold ∧
    (ready true).names nestStaged.plate nestPlate ∧ ReadyToStart (ready true) 5 nestStaged nestPlate ∧
    ¬ ReadyToStart (inMode .stopped (ready true)) 5 nestStaged nestPlate ∧ (5 < 6 ∧ 2 ≤ 5) ∧
    ((cutting .mark nestCut).table 2).active ≠ none ∧ 5 = 2 * 2 + 1 ∧
    startOk ((ready false).setTable 2 { (ready false).table 2 with chain := true }) (2 * 2) = false ∧
    nestStaged.plate.index ≤ 2047 ∧ startOk (ready true) 5 = true := by
  unfold ReadyToStart State.holdsNest State.names; decide +kernel

/-- The same nest on bed A of the table. -/
theorem witness_NestOnBedAIsReady :
    let s := (withPiece (hall .mark 2 .offline) H { nestPlate with place := .zone 4 }).setBed 4 ⟨[H], 0, 0, 0, 1, 0, 1, true⟩
    ReadyToStart (s.setZone 4 ⟨.loaded, some nestStaged, none⟩) (2 * 2) nestStaged { nestPlate with place := .zone 4 } := by
  unfold ReadyToStart State.names; decide +kernel

theorem witness_PartsAreSkippedAndWaived :
    let n := nest .active [part .issued .pending, part .pending .pending 1, part .failed .interrupted, part .waived .burning,
      part .pending .skipped]
    let s := (cutting .mark n).setMarks 2 ⟨some ⟨.b, 33, 0⟩, none⟩
    s.holdsNest Z 5 n ∧ n.parts.length ≤ 5 ∧ n.state = .active ∧ nestStaged.state ≠ .active ∧
    (n.parts[0]? = some (part .issued .pending) ∧ n.parts[1]? = some (part .pending .pending 1) ∧
      (part .pending .pending 1).final = false ∧ (s.marks (zoneTable 5)).issued = some ⟨zoneBed 5, n.id, 0⟩) ∧
    (n.parts[2]? = some (part .failed .interrupted) ∧ n.parts[3]? = some (part .waived .burning) ∧
      n.parts[4]? = some (part .pending .skipped)) ∧
    (nest .closed []).state = .closed ∧ (part .marked .burnt).mark = .marked ∧
    (let last (m : MarkState) : Nest := nest .active [part .marked .burnt, part m .pending]
     let t (m : MarkState) := (cutting .mark (last m)).setMarks 2 ⟨some ⟨.b, 33, 1⟩, none⟩
     (t .failed).holdsNest Z 5 (last .failed) ∧ (t .issued).holdsNest Z 5 (last .issued) ∧
       (t .issued).names (last .issued).plate nestPlate ∧ ((t .failed).burn (zoneTable 5)).grant = none ∧
       (part .failed .pending).mark ≠ .issued ∧ ((t .issued).marks (zoneTable 5)).issued = some ⟨zoneBed 5, 33, 1⟩ ∧
       ((last .issued).parts[0]? = some (part .marked .burnt) ∧ (part .marked .burnt).final = true ∧
         (last .issued).parts.length ≤ 2)) := by
  unfold State.holdsNest State.names; decide +kernel

theorem witness_CloseNestCloses :
    let s := cutting .mark nestCut
    let issuedNest := nest .active [part .marked .burnt, part .issued .pending]
    let i := (cutting .mark issuedNest).setMarks 2 ⟨some ⟨.b, 33, 1⟩, none⟩
    Canonical s ∧ s.holdsNest Z 5 nestCut ∧ nestCut.state = .active ∧ nestStaged.state ≠ .active ∧
    (s.burn (zoneTable 5)).state ≠ .granted ∧ ((granted .mark).burn 2).state = .granted ∧ s.names nestCut.plate nestPlate ∧
    (∀ x ∈ nestCut.parts, x.mark ≠ .issued) ∧
    (i.holdsNest Z 5 issuedNest ∧ i.names issuedNest.plate nestPlate ∧ (i.burn (zoneTable 5)).state ≠ .granted ∧
      issuedNest.parts[1]? = some (part .issued .pending) ∧
      (i.marks (zoneTable 5)).issued = some ⟨zoneBed 5, 33, 1⟩ ∧ (part .marked .burnt).mark ≠ .issued) ∧
    (s.table (zoneTable 5)).chain = false := by
  unfold State.holdsNest State.names Canonical; decide +kernel

/-- At the close the nest of the other bed is ready. -/
theorem witness_CloseRunsTheChain :
    let n : Nest := { nest .active [part .marked .burnt, part .marked .skipped] with decls := [] }
    let s (f : State → State) := f ((cutting .mark n).setTable 2 ⟨some .b, true⟩)
    let t (f : State → State) := (closedNest (s f) 5 n nestPlate).1
    ((s withOther).names n.plate nestPlate ∧ ((s withOther).table (zoneTable 5)).chain = true ∧
      ReadyToStart (t withOther) (otherZone 5) nestOther plateOther) ∧
    ((s id).table (zoneTable 5)).chain = true ∧ startOk (t id) (otherZone 5) = false := by
  unfold ReadyToStart State.names; decide +kernel

/-- A declaration at the close finds a free record and a key; the other cases are those of ENROL_REMNANT. -/
theorem witness_DeclarationBecomesARemnant :
    let s := cutting .mark nestCut
    s.lowestFree 0 ∧ s.drawsKey nestPlate.key.heat (keyA 32769) ∧
      ∃ g, dirInsert s.srg (keyA 32769) (s.handleAt 0) = .ok g :=
  ⟨by unfold State.lowestFree; decide +kernel,
    ⟨0, by decide, rfl, by decide +kernel, fun m h => absurd h (Nat.not_lt_zero m)⟩, _, rfl⟩

theorem witness_ZoneIsClearedAndRead :
    let s (ph : Phase) := tableTwo .burn ph (some nestCut) none false
    (s .cut).serves 9 .burn Z.table ∧ zoneArg? Z = some 5 ∧ (inMode .cold (s .cut)).ppn.mode = .cold ∧
    (s .cut).ppn.mode ≠ .cold ∧ ((s .cut).zone 5).phase = .cut ∧ ((s .cut).bed 5).pieces ≠ [] ∧
    (((s .cut).setBed 5 { (s .cut).bed 5 with pieces := [] }).bed 5).pieces = [] ∧ ((s .clear).zone 5).phase = .clear ∧
    ((s .loading).zone 5).phase = .loading ∧ 5 < (⟨6, 0⟩ : ZoneArg).table ∧ 1 < (⟨0, 2⟩ : ZoneArg).bed := by
  unfold State.serves; decide +kernel

/-! ## Witnesses: marks -/

theorem witness_NextMarkIssues :
    let n := nest .active [part .marked .burnt, part .pending .pending, part .issued .pending]
    let s := cutting .mark n
    let k := zoneOf 2 .b
    s.serves 9 .mark 2 ∧ (inMode .cold s).ppn.mode = .cold ∧ (inMode .stopped s).ppn.mode = .stopped ∧ s.ppn.mode = .opened ∧
    ((ready true).table 2).active = none ∧ (s.table 2).active = some .b ∧ (s.zone k).nest = some n ∧
    (((s.setMarks 2 ⟨some ⟨.b, 33, 2⟩, none⟩).marks 2).issued = some ⟨.b, n.id, 2⟩ ∧
      n.parts[2]? = some (part .issued .pending)) ∧
    ((s.marks 2).issued = none ∧ n.parts[1]? = some (part .pending .pending) ∧
      ∀ q ∈ n.parts.take 1, ¬ (q.mark = .pending ∧ q.burn = .pending)) ∧
    ∀ q ∈ nestBurning.parts, ¬ (q.mark = .pending ∧ q.burn = .pending) := by
  unfold State.serves; decide +kernel

theorem witness_MarkReportsAreTaken :
    let n := nest .active [part .issued .pending, part .issued .pending 1, part .marked .pending, part .pending .pending]
    let s := cutting .mark n
    let ended (e : IssueEnd) := s.setMarks 2 ⟨none, some (⟨.b, 33, 3⟩, e)⟩
    s.serves 9 .mark Z.table ∧ s.holdsNest Z 5 n ∧ s.ppn.mode ≠ .cold ∧ zoneTable 5 = 2 ∧ zoneBed 5 = .b ∧
    ((s.setMarks 2 ⟨some ⟨.b, 33, 0⟩, none⟩).marks 2).issued = some ⟨.b, 33, 0⟩ ∧
    ((s.setMarks 2 ⟨some ⟨.b, 33, 1⟩, none⟩).marks 2).issued = some ⟨.b, 33, 1⟩ ∧
    (n.parts[0]? = some (part .issued .pending) ∧ (part .issued .pending).markFailures = 0) ∧
    (n.parts[1]? = some (part .issued .pending 1) ∧ (part .issued .pending 1).markFailures = 1) ∧
    (n.parts[2]? = some (part .marked .pending) ∧ n.parts[3]? = some (part .pending .pending)) ∧
    ((s.marks 2).issued ≠ some ⟨.b, 33, 3⟩ ∧ ((ended .done).marks 2).ended = some (⟨.b, 33, 3⟩, .done) ∧
      ((ended .failed).marks 2).ended = some (⟨.b, 33, 3⟩, .failed) ∧
      ((ended .withdrawn).marks 2).ended = some (⟨.b, 33, 3⟩, .withdrawn) ∧ (s.marks 2).ended = none) := by
  unfold State.serves State.holdsNest; decide +kernel

/-! ## Witnesses: burns -/

theorem witness_NextBurnRefuses :
    let s := cutting .burn nestCut
    let torch (st : TorchState) := s.setTorch 4 { s.torch 4 with state := st }
    let off := s.setTorch 4 (Torch.reset 4)
    s.serves 9 .burn 2 ∧ (inMode .cold s).ppn.mode = .cold ∧ (inMode .stopped s).ppn.mode = .stopped ∧ s.ppn.mode = .opened ∧
    ((s.setBurn 2 ⟨.fault, none, none, false⟩).burn 2).state = .fault ∧ (s.burn 2).state = .idle ∧
    ((arc s .cutting true).monitor 2).state ≠ .off ∧ (s.monitor 2).state = .off ∧ ((ready true).table 2).active = none ∧
    (s.table 2).active = some .b ∧ mountedTorch off 2 = none ∧ mountedTorch s 2 = some 4 ∧
    (mountedTorch (torch .fault) 2 = some 4 ∧ ((torch .fault).torch 4).state = .fault) ∧
    (mountedTorch (torch .worn) 2 = some 4 ∧ ((torch .worn).torch 4).state = .worn) ∧ (s.torch 4).state = .inService ∧
    (s.setIntruders 5 [1]).intruders (zoneOf 2 .b) ≠ [] := by
  unfold State.serves; decide +kernel

theorem witness_NextBurnGrants :
    let s := cutting .burn nestCut
    let waits := nest .active [part .marked .burnt, part .failed .pending]
    let goes := nest .active [part .marked .burnt, part .waived .pending]
    s.serves 9 .burn 2 ∧ s.ppn.mode = .opened ∧ (s.zone (zoneOf 2 .b)).nest = some nestCut ∧ mountedTorch s 2 = some 4 ∧
    (((granted .burn).burn 2).state = .granted ∧ ((granted .burn).burn 2).grant = some grantA ∧
      grantA.ref = ⟨.b, nestBurning.id, 1⟩ ∧ nestBurning.parts[1]? = some (part .marked .burning 1) ∧
      (granted .burn).serves 9 .burn 2 ∧ mountedTorch (granted .burn) 2 = some 4) ∧
    ((s.burn 2).state = .idle ∧ (s.monitor 2).state = .off ∧ (s.table 2).active = some .b ∧
      (s.torch 4).state = .inService ∧ s.intruders (zoneOf 2 .b) = []) ∧
    (nestCut.parts[0]? = some (part .marked .interrupted) ∧ (part .marked .interrupted).burn = .interrupted) ∧
    ((∀ q ∈ goes.parts, q.burn ≠ .interrupted) ∧ goes.parts[1]? = some (part .waived .pending) ∧
      ∀ q ∈ goes.parts.take 1, q.burn ≠ .pending) ∧
    (waits.parts[1]? = some (part .failed .pending) ∧ ∀ q ∈ waits.parts, q.burn ≠ .interrupted) ∧
    ∀ q ∈ waits.parts.take 1, q.burn ≠ .pending ∧ q.burn ≠ .interrupted := by
  unfold State.serves; decide +kernel

theorem witness_BurnReportsAreTaken :
    let s := granted .burn
    let ended (e : GrantEnd) := (cutting .burn nestCut).setBurn 2 ⟨.idle, none, some (⟨.b, 33, 0⟩, e), false⟩
    s.serves 9 .burn Z.table ∧ s.holdsNest Z 5 nestBurning ∧ s.ppn.mode ≠ .cold ∧
    nestBurning.parts[1]? = some (part .marked .burning 1) ∧ (s.burn (zoneTable 5)).grant = some grantA ∧
    grantA.ref = ⟨zoneBed 5, nestBurning.id, 1⟩ ∧
    (nestBurning.parts[0]? = some (part .marked .pending) ∧ (part .marked .pending).final = false) ∧
    (let last := nest .active [part .marked .skipped, part .marked .burning]
     let t := s.setZone 5 { s.zone 5 with nest := some last }
     t.holdsNest Z 5 last ∧ t.names last.plate nestPlate ∧ last.parts[1]? = some (part .marked .burning) ∧
       (t.burn (zoneTable 5)).grant = some grantA ∧ (part .marked .skipped).final = true ∧ last.parts.length ≤ 2) ∧
    ((arc s .piercing false).monitor 2).state ≠ .off ∧
    (ended .done).holdsNest Z 5 nestCut ∧ (ended .done).serves 9 .burn Z.table ∧
    ((ended .done).burn 2).grant = none ∧ ((ended .done).burn 2).ended = some (⟨.b, 33, 0⟩, .done) ∧
    ((ended .abandoned).burn 2).ended = some (⟨.b, 33, 0⟩, .abandoned) ∧
    ((ended (.revoked .overtime)).burn 2).ended = some (⟨.b, 33, 0⟩, .revoked .overtime) ∧
    ((ended .done).burn 2).ended ≠ some (⟨.b, 33, 2⟩, .done) ∧ nestCut.parts[2]? = some (part .marked .burnt) ∧
    nestCut.parts[0]? = some (part .marked .interrupted) ∧ nestCut.parts[1]? = some (part .pending .pending 1) := by
  unfold State.serves State.holdsNest State.names; decide +kernel

/-- Cases 1 to 3 of a report: the mode, the nest and the part it names. -/
theorem witness_ReportsNameTheirPart :
    let s (r : Role) := cutting r nestCut
    ((s .burn).serves 9 .burn Z.table ∧ (s .mark).serves 9 .mark Z.table) ∧ (inMode .cold (s .burn)).ppn.mode = .cold ∧
    (zoneArg? ⟨6, 0⟩ = none ∧ (hall .burn 6 .offline).serves 9 .burn (⟨6, 0⟩ : ZoneArg).table) ∧
    zoneArg? Z = some 5 ∧ ((s .burn).zone 5).nest = some nestCut ∧ nestCut.id ≠ 34 ∧ ((unstaged true).zone 5).nest = none ∧
    nestCut.parts.length ≤ 3 := by
  unfold State.serves; decide +kernel

theorem witness_RevocationEndsTheGrant :
    let s := granted .burn
    let old : Grant := { grantA with arcTime := 100 }
    let piercing (n : Nat) := (arc s .piercing false).setTorch 4 { s.torch 4 with failed := n }
    2 ≤ 5 ∧ (s.burn 2).grant = some grantA ∧ grantA.ref.part = 1 ∧
    (s.zone (zoneOf 2 grantA.ref.bed)).nest = some nestBurning ∧ nestBurning.parts[1]? = some (part .marked .burning 1) ∧
    (10 * old.burnLimit ≤ old.arcTime ∧ grantA.arcTime < 10 * grantA.burnLimit) ∧
    ((piercing 1).monitor 2).state = .piercing ∧ ((piercing 1).burn 2).grant = some grantA ∧
    mountedTorch (piercing 1) 2 = some 4 ∧ ((piercing 1).torch 4).failed < 2 ∧ 2 ≤ ((piercing 2).torch 4).failed ∧
    ((s.setIntruders 5 [1]).intruders (zoneOf 2 grantA.ref.bed) ≠ [] ∧ s.intruders (zoneOf 2 grantA.ref.bed) = [] ∧
      part? s (zoneOf 2 grantA.ref.bed) grantA.ref.part = some (part .marked .burning 1) ∧ (s.burn 3).grant = none) := by
  decide +kernel

theorem witness_ArcIsMonitored :
    let s := granted .burn
    let idle := cutting .burn nestCut
    let worn := (arc idle .cutting true).setTorch 4 { idle.torch 4 with limit := 410 }
    (5 ≤ 5 ∧ (idle.monitor 2).state = .off ∧ (idle.burn 2).grant = none) ∧
    ((s.burn 2).grant = some grantA ∧ mountedTorch s 2 = some 4 ∧ (s.monitor 2).state = .off ∧
      (s.zone (zoneOf 2 .b)).nest = some nestBurning ∧ nestBurning.parts[1]? = some (part .marked .burning 1)) ∧
    ((arc s .piercing false).monitor 2).state = .piercing ∧ ((arc s .cutting false).monitor 2).state ≠ .off ∧
    (((arc idle .cutting true).monitor 2).state ≠ .off ∧ mountedTorch worn 2 = some 4 ∧ (worn.torch 4).state = .inService ∧
      (worn.torch 4).limit ≤ 10 * 40 + 1000 / 100 ∧ 10 * 40 + 1000 / 100 < (idle.torch 4).limit) ∧
    (((arc s .cutting false).monitor 2).state = .cutting ∧ ((arc s .cutting false).burn 2).grant = some grantA ∧
      mountedTorch (arc s .cutting false) 2 = some 4) ∧
    (let bare := (arc idle .cutting true).setTorch 4 (Torch.reset 4)
     mountedTorch bare 2 = none ∧ (bare.burn 2).grant = none ∧ (bare.monitor 2).state ≠ .off) := by decide +kernel

theorem witness_TableFaultsAndBurnTimes :
    let s := cutting .burn nestCut
    let m := arc s .cutting true
    2 ≤ 5 ∧ (m.monitor 2).stuck = true ∧ (m.monitor 2).state ≠ .off ∧ (m.burn 2).grant = none ∧ 5 < 6 ∧
    (s.monitor 2).state = .off ∧ ((s.setBurn 2 ⟨.fault, none, none, false⟩).burn 2).state = .fault ∧
    (s.burn 2).state ≠ .fault := by decide +kernel

theorem witness_TorchesAreKept :
    let s := cutting .burn nestCut
    torchOfId s 5 = some 4 ∧ torchOfId s 12 = some 11 ∧ torchOfId s 13 = none ∧ (5 ≤ 5 ∧ 5 < 6) ∧
    ((s.torch 4).mounted = some 2 ∧ (s.torch 11).mounted ≠ some 2 ∧ (s.torch 11).mounted = none) ∧
    ((s.burn 2).state ≠ .granted ∧ (s.monitor 2).state = .off ∧ ((granted .burn).burn 2).state = .granted) ∧
    (mountedTorch s 2 = some 4 ∧ mountedTorch s 3 = none) ∧
    ((11 ≤ 11 ∧ 65535 ≤ 65535 ∧ 255 ≤ 255) ∧ (s.torch 3).id = 4 ∧ 0 < (s.torch 4).starts ∧ (s.torch 11).state = .spare) ∧
    (let w : Torch := { s.torch 11 with starts := 25, limit := 1000 }
     w.limit ≤ w.starts * w.weight + w.arcTime / 100 ∧
       w.starts * w.weight + w.arcTime / 100 < { w with limit := 1001 }.limit) := by decide +kernel

/-- SET_TORCH of the torch mounted on table 2: its wear points reach the new limit with the arc off, and with it on. -/
theorem witness_MountedTorchIsSet :
    let s := cutting .burn nestCut
    let a : TorchArg := ⟨4, none, some 410, none⟩
    (s.torch a.number).mounted = some 2 ∧ (s.torch 4).state = .inService ∧
    410 ≤ (s.torch 4).starts * (s.torch 4).weight + (s.torch 4).arcTime / 100 ∧ (s.monitor 2).state = .off ∧
    ((arc s .cutting true).monitor 2).state ≠ .off ∧
    (∀ x n, a.id = some x → n ≤ 11 → n ≠ a.number → (s.torch n).id ≠ x) ∧ a.weight = none := by
  exact ⟨by decide +kernel, by decide +kernel, by decide +kernel, by decide +kernel, by decide +kernel, nofun, rfl⟩

/-! ## Witnesses: sensing -/

def frameA : FrameSettings := ⟨12, 2, .even, .gray, 400⟩
def channelA (m : ChannelMode) : Channel :=
  { Channel.reset with mode := m, settings := frameA, held := some 55, lastRaw := 9, good := 4, failed := 5, period := 3 }
/-- Channels 0 to 3 MASTER, LISTEN with a held frame, LISTEN without one, DISABLED. -/
def sensors : State :=
  ((((hall .crane 1 .online).setChannel 0 (channelA .master)).setChannel 1 (channelA .listen)).setChannel 2
    { channelA .listen with held := none }).setChannel 3 (channelA .disabled)

/-- A sample collecting the reads of these channels. -/
def collectingA (l : List Nat) : Collecting := ⟨l.map fun c => (c, .inFlight), [], 2⟩
def inFlight (l : List Nat) (p : FlightPhase) : State :=
  { sensors with rsu := { sensors.rsu with
    collecting := some (collectingA l),
    channels := l.map fun c => (c, { channelA .master with flight := some ⟨p, frameA, 20⟩ }) } }

theorem canonical_inFlight (p : FlightPhase) (l : List Nat) (hl : l = [0, 4] ∨ l = [0]) : Canonical (inFlight l p) := by
  unfold Canonical
  rcases hl with rfl | rfl <;> cases p <;> decide +kernel

theorem witness_FramesAreJudged :
    let frame (n : Nat) := bitsOf n 15
    judgeFrame frameA (frame 1) = .error .parity ∧ judgeFrame frameA (frame 3) = .error .encoderAlarm ∧
    judgeFrame frameA (frame 0x18) = .ok 2 ∧ judgeFrame { frameA with code := .binary } (frame 0x18) = .ok 3 ∧
    judgeFrame { frameA with parity := .odd } (frame 0x18) = .error .parity ∧ (frame 0x18).length = frameA.bits := by
  decide +kernel

theorem witness_PositionsAreConverted :
    let r := Runway.reset
    (-501 : Int) < -500 ∧ bandValue r 0 (-500) = some 0 ∧ bandValue r 0 (r.length + 500) = some r.length ∧
    bandValue r 0 (r.length + 501) = none ∧ bandValue r 1 (r.span + 500) = some r.span ∧
    bandValue r 1 (r.span + 501) = none ∧ bandValue r 2 (-1) = none ∧ bandValue r 2 40000 = some 40000 ∧
    bandValue r 2 40001 = none ∧ (Axis.reset 0).scale = 0 ∧ { Axis.reset 0 with scale := -16 }.scale ≠ 0 := by decide +kernel

theorem witness_TicksStartSamples :
    (inFlight [0] .waiting).rsu.collecting = some (collectingA [0]) ∧ sensors.rsu.collecting = none ∧
    (sensors.channel 0).mode = .master ∧ (sensors.channel 1).mode = .listen ∧ (sensors.channel 1).held = some 55 ∧
    (sensors.channel 2).mode = .listen ∧ (sensors.channel 2).held = none ∧ (sensors.channel 3).mode = .disabled ∧
    (∀ c, c < 6 → (((hall .crane 1 .online).channel c).mode ≠ .master)) := by decide +kernel

theorem witness_MasterReadsEnd :
    let s (p : FlightPhase) := inFlight [0, 4] p
    (Canonical (s .waiting) ∧ Canonical (s .clocking)) ∧
    ((s .waiting).channel 0).flight = some ⟨.waiting, frameA, 20⟩ ∧
    ((s .clocking).channel 0).flight = some ⟨.clocking, frameA, 20⟩ ∧
    (s .waiting).rsu.collecting = some (collectingA [0, 4]) ∧ (4, ReadOutcome.inFlight) ∈ (collectingA [0, 4]).reads ∧
    judgeFrame frameA (bitsOf 1 frameA.bits) = .error .parity ∧
    judgeFrame frameA (bitsOf 3 frameA.bits) = .error .encoderAlarm ∧ judgeFrame frameA (bitsOf 0x18 frameA.bits) = .ok 2 :=
  ⟨⟨canonical_inFlight _ _ (.inl rfl), canonical_inFlight _ _ (.inl rfl)⟩, by decide +kernel⟩

theorem witness_LastReadCompletesTheSample :
    (Canonical (inFlight [0] .waiting) ∧ Canonical (inFlight [0] .clocking)) ∧
    (inFlight [0] .clocking).rsu.collecting = some (collectingA [0]) ∧
    (∀ e ∈ (collectingA [0]).reads, e.1 ≠ 0 → e.2 ≠ .inFlight) ∧
    ((inFlight [0] .clocking).channel 0).flight = some ⟨.clocking, frameA, 20⟩ ∧
    ((inFlight [0] .waiting).channel 0).flight = some ⟨.waiting, frameA, 20⟩ :=
  ⟨⟨canonical_inFlight _ _ (.inr rfl), canonical_inFlight _ _ (.inr rfl)⟩, by decide +kernel⟩

/-- What a completion makes of a good read, a RANGE one and a failed one. -/
theorem witness_SamplesJudgeAxes :
    let cl : Collecting := ⟨[(0, .raw 30000), (1, .raw 30501), (2, .failed .noData)], [(0, ⟨1000#32, true⟩)], 1⟩
    let a : Axis := ⟨65536, 0, 100, .held, 2, true, none⟩
    let s : State := { sensors with rsu := { sensors.rsu with axes := [(0, a), (1, a), (3, { a with age := 1 })] } }
    bandValue Runway.reset 0 (convert 30000 0 65536) = some 30000 ∧ bandValue Runway.reset 1 (convert 30501 0 65536) = none ∧
    ((completeSample s cl).axis 0).age = 1 ∧ ((completeSample s cl).axis 1).age = 4 ∧
    ((completeSample s cl).axis 3).validity = .stale ∧ (s.axis 3).validity.placed = true ∧
    ((s.sampled 1).x.validity.placed = true ∧ (s.sampled 0).x.validity.placed = false) := by decide +kernel

/-- A STALE axis whose read fails stays STALE although its age is below the limit; a good read brings it back; and an H axis
is judged by its latch. -/
theorem witness_StaleAxisReturnsByAGoodRead :
    let a : Axis := ⟨65536, 0, 100, .stale, 2, true, none⟩
    let s : State := { sensors with rsu := { sensors.rsu with axes := [(0, a), (2, { a with validity := .unhomed })] } }
    let s : State := { s with clu := { s.clu with runwayNext := some { Runway.reset with staleLimit := 10 } } }
    let cl (r : ReadOutcome) (homed : Bool) : Collecting := ⟨[(0, r)], [(0, ⟨1000#32, homed⟩)], 0⟩
    let fails := completeSample s (cl (.failed .noData) false)
    let good := completeSample s (cl (.raw 500) true)
    ((fails.axis 0).age = 3 ∧ (fails.axis 0).good = true ∧ (fails.axis 0).validity = .stale) ∧
    (good.axis 0).validity = .valid ∧ (fails.axis 2).validity = .unhomed ∧
    (good.axis 2).validity = .valid ∧ (good.axis 2).value = 1000 := by decide +kernel

/-- A hoist homed takes the validity of its age where it was UNHOMED, and keeps its validity else. -/
theorem witness_HomingEndsUnhomed :
    let h := (hall .crane 1 .online).setHoist 1 ⟨5#32, false, true, 77#32, false⟩
    let at' (v : Validity) (age : Nat) (good : Bool) : Validity :=
      ((homed (h.setAxis 5 ⟨65536, 0, 100, v, age, good, none⟩) 1).axis 5).validity
    (h.hoist 1).armed = true ∧ (h.axis 5).validity = .unhomed ∧ at' .unhomed 0 true = .valid ∧ at' .unhomed 2 true = .held ∧
    at' .unhomed 3 true = .stale ∧ at' .unhomed 0 false = .stale ∧ at' .stale 0 true = .stale := by decide +kernel

theorem witness_ListenFramesAndHoists :
    let h (armed homed : Bool) := (hall .crane 1 .online).setHoist 1 ⟨5#32, homed, armed, 77#32, false⟩
    (sensors.channel 1).mode = .listen ∧ (List.replicate 14 false).length < frameA.bits ∧
    frameA.bits < (List.replicate 16 false).length ∧ (List.replicate 15 false).length = frameA.bits ∧
    judgeFrame frameA (List.replicate 15 false) = .ok 0 ∧ judgeFrame frameA (List.replicate 15 true) = .error .parity ∧
    ((h true true).hoist 1).homed = true ∧ ((h true true).hoist 1).armed = true ∧ ((h false false).hoist 1).homed = false ∧
    ((h false false).hoist 1).armed = false ∧ 2 < 3 := by decide +kernel

theorem witness_AxesAreSetAndCalibrated :
    let s := inMode .cold (sensors.setChannel 0 { channelA .master with settings := { frameA with dataBits := 20 } })
    sensors.ppn.mode ≠ .cold ∧ s.ppn.mode = .cold ∧
    (∀ x ∈ [(16 : Int), -16, 1048576, -1048576], 16 ≤ x.natAbs ∧ x.natAbs ≤ 1048576) ∧ ¬ 16 ≤ (-15 : Int).natAbs ∧
    (1500 ∈ [100, 200, 400, 800, 1500] ∧ 300 ∉ [100, 200, 400, 800, 1500]) ∧
    surveyOk s 0 0 surveyA = true ∧ surveyOk s 0 0 { surveyA with raw2 := 1048576 } = false ∧
    surveyOk s 0 0 { surveyA with mm2 := 200001 } = false ∧
    (2 * ((9000 - 1000) * 65536 - 6554 * (100000 - 20000) : Int).natAbs ≤ (100000 - 20000 : Int).natAbs) ∧
    (2 * (1000 * 65536 - 9999 * 6554 : Int).natAbs ≤ (6554 : Int).natAbs) ∧ surveyOffset surveyA = 20000 - 9999 := by
  decide +kernel

/-! ## Witnesses: clearance -/

/-- Three cranes and two zones, the southern one under a grant. -/
def runway (a b c : CraneSample) : State :=
  let s := (hall .crane 1 .online).setBed 8 ⟨[], 60000, 5000, 58000, 62000, 3000, 7000, true⟩
  let s := (s.setBed 9 ⟨[], 60000, 15000, 58000, 62000, 13000, 17000, true⟩).setGrantHeld 8 true
  let s := s.setCrane 0 { CraneClear.reset with westIn := 2000, eastIn := 2000, pE := ⟨true, []⟩ }
  { s with rsu := { s.rsu with latest := ⟨9, 0, 0, [(0, a), (1, b), (2, c)]⟩ } }

def seen (x y h : Int) (vx vy vh : Validity) (dx dy : Option Int) : CraneSample :=
  ⟨⟨x, vx, 0⟩, ⟨y, vy, 0⟩, ⟨h, vh, 0⟩, dx, dy, vx == .valid, ⟨0#32, true⟩⟩

def runwayClear : State :=
  runway (seen 20000 5000 0 .valid .valid .valid (some 15) (some (-20)))
    (seen 54000 5000 7000 .valid .held .valid (some 15) (some 3)) (seen 70000 5000 0 .valid .valid .stale (some (-40)) none)
def runwayClose : State :=
  runway (seen 60000 1000 0 .valid .valid .valid (some 0) (some 20))
    (seen 54000 5000 0 .valid .valid .valid none (some 3)) (seen 198000 9000 0 .stale .valid .stale (some (-40)) none)

/-- Hook states, gaps, intruders and conditions of both kinds come about. -/
theorem witness_EvaluationMeasures :
    0 < Runway.reset.period ∧ ((evaluate runwayClear).crane 1).hook = .high ∧
    ((evaluate runwayClear).crane 0).hook = .low ∧ ((evaluate runwayClear).pair 0).gap = some 32000 ∧
    ((evaluate runwayClose).pair 1).gap = none ∧ ((evaluate runwayClose).pair 0).orderFault = true ∧
    (runwayClose.pair 0).orderFault = false ∧ (runwayClear.bed 8).x0 ≤ (runwayClear.bed 8).x1 ∧
    (evaluate runwayClear).intruders 8 = [] ∧ (evaluate runwayClose).intruders 8 = [2] := by decide +kernel

theorem witness_EvaluationSetsPermissives :
    ((evaluate runwayClear).crane 0).pE.on = true ∧ .orderFault ∈ ((evaluate runwayClose).crane 0).pE.conds ∧
    .neighbourStale ∈ ((evaluate runwayClose).crane 1).pE.conds ∧ .staleX ∈ ((evaluate runwayClose).crane 2).pW.conds ∧
    ((evaluate (runway (seen 55000 5000 0 .valid .valid .valid (some 40) (some 0))
      (seen 99000 5000 0 .valid .valid .valid (some 0) (some 0)) CraneSample.reset)).crane 0).pE.conds = [.keepOut 8] ∧
    ((runwayClear.crane 0).permissive .e).on = true ∧ ((runwayClear.crane 0).permissive .w).on = false := by decide +kernel

theorem witness_ClearanceIsSettled :
    let s := runwayClear.setPair 0 ⟨some 0, true⟩
    let carrying := (withPiece runwayClear H (plate (.hook 1) .inTransit (some 7))).setHook 1 (some H)
    1 < 2 ∧ (s.pair 1).orderFault = false ∧ (s.pair 0).orderFault = true ∧ (s.sampled 0).x.validity.placed = true ∧
    (s.sampled 1).x.validity.placed = true ∧ (s.pair 0).gap = some 0 ∧
    ((s.setPair 0 ⟨some (-1), true⟩).pair 0).gap = some (-1) ∧ (runwayClose.sampled 2).x.validity.placed = false ∧
    (100000 ≤ 100000 ∧ 30000 ≤ 30000 ∧ 2 ≤ 2) ∧ carrying.hook 1 = some H ∧
    (carrying.piece? H = some (plate (.hook 1) .inTransit (some 7)) ∧ 0 < (plate (.hook 1) .inTransit (some 7)).mass) := by
  decide +kernel

/-! ## Witnesses: moves -/

theorem witness_QueueMoveQueues :
    let s := stocked .online
    let p := plateInSlot
    s.names H p ∧ (destArg? (.hook 0) = none ∧ destArg? (.slot ⟨9, 15⟩) = some (.slot 159) ∧
      destArg? (.zone ⟨5, 1⟩) = some (.zone 11)) ∧
    2 < 3 ∧ 16 ≤ ((s.setQueue 1 (List.replicate 16 moveB)).queue 1).length ∧ (s.queue 1).length < 16 ∧
    p.state = .stored ∧ nestPlate.state = .onTable ∧ (s.zone 5).phase = .loaded ∧ p.move = none ∧
    (s.slot 23).enabled = false ∧ (s.bed 11).configured = false ∧ p.place = (Dest.slot 21).place ∧
    p.place ≠ (Dest.slot 22).place ∧ (s.slot 22).enabled = true ∧ p.mass ≤ (s.crane 1).capacity ∧
    (s.crane 2).capacity < p.mass ∧ (s.zone 4).nest = none := by
  unfold State.names; decide +kernel

/-- Another crane's move has the zone for its destination. -/
theorem witness_ZoneIsPromised :
    let m : Move := ⟨1, H0, some (.zone 4), .queued⟩
    let t := (stocked .online).setQueue 0 [m]
    m ∈ t.queue 0 ∧ m.id ≠ 0 ∧ m.dest = some (.zone 4) := by decide +kernel

theorem witness_MoveIdsAreFirstFree :
    let s := moving (.slot 21) .stored (some (.slot 22)) .queued
    (∀ c, c < 3 → (s.queue c).length ≤ 16) ∧ 1 ≤ s.mvc.nextId ∧ s.mvc.nextId ≤ 65535 := by decide +kernel

/-- The move at the head of crane 1, its source stack clear. -/
def clearHead (d : Dest) : State :=
  (moving (.slot 21) .stored (some d) .queued).setSlot 21 ⟨1000, 2000, true, [⟨100, 0⟩, H], 900, 0, 0, 0⟩

theorem witness_TakeMoveTakes :
    let s := clearHead (.slot 22)
    let told (b : Bool) := s.setEndedMove 1 (some ⟨99, H, .cancelled b⟩)
    let p := plate (.slot 21) .stored (some 7)
    s.serves 9 .crane 1 ∧ (inMode .cold s).ppn.mode = .cold ∧ (inMode .stopped s).ppn.mode = .stopped ∧
    (moving (.hook 1) .inTransit (some (.slot 22)) .carrying).queue 1 = [moveA (some (.slot 22)) .carrying, moveB] ∧
    s.queue 1 = [moveA (some (.slot 22)) .queued, moveB] ∧ s.ppn.mode = .opened ∧
    (told false).endedMove 1 = some ⟨99, H, .cancelled false⟩ ∧ (told true).endedMove 1 ≠ some ⟨99, H, .cancelled false⟩ ∧
    (hall .crane 1 .online).queue 1 = [] ∧ s.piece? H = some p ∧
    (∀ x ∈ [moveB], x.id ≠ 7) ∧ headBlocked s (moveA (some (.slot 22)) .queued) p = none ∧
    headBlocked (moving (.slot 21) .stored (some (.slot 22)) .queued) (moveA (some (.slot 22)) .queued) p =
      some (.occupied, .sourceInbound) ∧
    ((clearHead (.zone 4)).setZone 4 Zone.reset |>.zone 4).phase = .clear ∧ ((clearHead (.zone 4)).zone 4).phase ≠ .clear ∧
    pieceDepth (s.setSlot 21 ⟨0, 0, true, [H, H0], 0, 0, 0, 0⟩) H p = 1 := by
  unfold State.serves; decide +kernel

/-- The checks that hold the head back, the source's own inbound reservation apart. -/
theorem witness_HeadIsHeldBack :
    let s := clearHead (.slot 22)
    let p := plate (.slot 21) .stored (some 7)
    let m (d : Dest) := moveA (some d) .queued
    let buried := s.setSlot 21 ⟨0, 0, true, [H, H0], 0, 0, 0, 0⟩
    ((s.slot 21).inCount = 0 ∧ pieceDepth s H p = 0) ∧
    ((buried.slot 21).inCount = 0 ∧ 0 < pieceDepth buried H p ∧
      headBlocked buried (m (.slot 22)) p = some (.buried, .notOnTop)) ∧
    (roomTest s 22 p.thickness = none ∧ roomTest s 23 p.thickness = some .occupied) ∧
    headBlocked s (m (.slot 23)) p = some (.occupied, .slotRoom) ∧
    headBlocked s (m (.zone 5)) p = some (.occupied, .zoneClear) ∧ (s.zone 5).phase ≠ .clear := by decide +kernel

theorem witness_PickedLifts :
    let s := moving (.slot 21) .stored (some (.slot 22)) .taken
    let row := moving .receiving .arriving (some (.slot 22)) .taken
    let bed := moving (.zone 5) .onTable (some (.slot 22)) .taken
    let far : State := { s with clu := { s.clu with runway := { Runway.reset with tolerance := 99 } } }
    let blind : State := { s with rsu := { s.rsu with latest := Sample.reset } }
    s.serves 9 .crane 1 ∧ s.ppn.mode ≠ .cold ∧ (moveA (some (.slot 22)) .taken).id ≠ 0 ∧
    s.queue 1 = [moveA (some (.slot 22)) .taken, moveB] ∧ (∀ x ∈ [moveB], x.id ≠ 7) ∧
    s.piece? H = some (plate (.slot 21) .stored (some 7)) ∧ row.piece? H = some (plate .receiving .arriving (some 7)) ∧
    bed.piece? H = some (plate (.zone 5) .onTable (some 7)) ∧
    (positionCheck s 1 (1000, 2000)).result = .verified ∧ (positionCheck far 1 (1000, 2000)).result = .wrongPlace ∧
    (positionCheck { far with clu := { far.clu with runway := { Runway.reset with tolerance := 100 } } } 1
      (1000, 2000)).result = .verified ∧
    (positionCheck blind 1 (1000, 2000)).result = .unverified ∧ (bed.zone 5).phase = .loaded ∧
    (bed.bed 5).pieces.filter (· ≠ H) = [] := by
  unfold State.serves; decide +kernel

theorem witness_PlacedSetsDown :
    let s := moving (.hook 1) .inTransit (some (.slot 22)) .carrying
    let z := moving (.hook 1) .inTransit (some (.zone 4)) .carrying
    let near : State := { s with clu := { s.clu with runway := { Runway.reset with tolerance := 500 } } }
    Canonical near ∧ s.serves 9 .crane 1 ∧ s.queue 1 = [moveA (some (.slot 22)) .carrying, moveB] ∧
    z.queue 1 = [moveA (some (.zone 4)) .carrying, moveB] ∧ s.piece? H = some (plate (.hook 1) .inTransit (some 7)) ∧
    (positionCheck s 1 (placeCentre s (.slot 22))).result = .wrongPlace ∧
    (positionCheck near 1 (placeCentre near (.slot 22))).result = .verified ∧ (z.table (zoneTable 4)).chain = false := by
  refine ⟨?_, by unfold State.serves; decide +kernel⟩
  unfold Canonical; decide +kernel

/-- The plate of a staged nest is set down on its zone of a chained table. -/
theorem witness_PlacedStartsTheNest :
    let p := plate (.hook 1) .inTransit (some 7)
    let s := (moving (.hook 1) .inTransit (some (.zone 4)) .carrying).setTable 2 ⟨none, true⟩
    let s := s.setZone 4 ⟨.loading, some nestStaged, some 7⟩
    let v := { p with state := .onTable, place := .zone 4, move := none }
    let t := ((s.setBed 4 { s.bed 4 with pieces := (s.bed 4).pieces ++ [H] }).setZone 4
      ⟨.loaded, some nestStaged, none⟩).setRecord 5 ⟨2, some v⟩
    (s.table (zoneTable 4)).chain = true ∧ ReadyToStart t (2 * 2) nestStaged v ∧ zoneTable 4 = 2 := by
  unfold ReadyToStart State.names; decide +kernel

theorem witness_CraneReportsAreSorted :
    let s := clearHead (.slot 22)
    let ended (e : MoveEnd) := s.setEndedMove 1 (some ⟨99, H, e⟩)
    s.serves 9 .crane 1 ∧ (∀ m ∈ s.queue 1, m.id ≠ 99) ∧ s.endedMove 1 = none ∧
    (ended (.cancelled false)).endedMove 1 = some ⟨99, H, .cancelled false⟩ ∧
    (ended .placed).endedMove 1 = some ⟨99, H, .placed⟩ ∧ s.queue 1 = [moveA (some (.slot 22)) .queued, moveB] ∧
    (moving (.hook 1) .inTransit none .suspended).queue 1 = [moveA none .suspended, moveB] ∧
    (moving .receiving .arriving (some (.zone 4)) .taken).queue 1 = [moveA (some (.zone 4)) .taken, moveB] ∧
    (moving .receiving .arriving (some (.slot 22)) .taken).piece? H = some (plate .receiving .arriving (some 7)) ∧
    (moving (.hook 1) .inTransit (some (.zone 4)) .carrying).queue 1 = [moveA (some (.zone 4)) .carrying, moveB] ∧
    (let t := (moving (.slot 21) .stored (some (.slot 22)) .taken).setQueue 1 [moveB, moveA (some (.slot 22)) .taken]
     t.queue 1 = [moveB] ++ moveA (some (.slot 22)) .taken :: [] ∧ (∀ x ∈ [moveB] ++ [], x.id ≠ 7) ∧
       t.piece? H = some (plate (.slot 21) .stored (some 7))) := by
  unfold State.serves; decide +kernel

theorem witness_MovesAreRetargetedAndCancelled :
    let s := moving (.hook 1) .inTransit none .suspended
    let c := moving (.hook 1) .inTransit (some (.slot 22)) .carrying
    let q := moving (.slot 21) .stored (some (.slot 22)) .taken
    destArg? (.hook 1) = none ∧ destArg? (.slot ⟨1, 6⟩) = some (.slot 22) ∧ findMove s 99 = none ∧
    findMove s 7 = some (1, moveA none .suspended) ∧ findMove c 7 = some (1, moveA (some (.slot 22)) .carrying) ∧
    s.piece? H = some (plate (.hook 1) .inTransit (some 7)) ∧ roomTest s 22 200 = none ∧ roomTest s 23 200 = some .occupied ∧
    (∀ x ∈ s.queue 1, x.id = 7 → x = moveA none .suspended) ∧ (s.bed 11).configured = false ∧
    (s.bed 4).configured = true ∧ (s.zone 4).phase = .clear ∧ (s.zone 5).phase ≠ .clear ∧
    findMove q 7 = some (1, moveA (some (.slot 22)) .taken) ∧
    findMove (clearHead (.slot 22)) 7 = some (1, moveA (some (.slot 22)) .queued) ∧
    (∀ z, z < 12 → (q.zone z).nest = none) ∧
    (moving .receiving .arriving (some (.zone 4)) .taken).piece? H = some (plate .receiving .arriving (some 7)) := by
  decide +kernel

/-- The plate of a staged nest on a chained table has a move that is cancelled. -/
theorem witness_CancelledMoveFreesTheNest :
    let p : Piece := { nestPlate with move := some 7 }
    let s := ((ready true).setRecord 5 ⟨2, some p⟩).setQueue 1 [moveA (some (.slot 22)) .queued]
    let t := (s.setQueue 1 []).setRecord 5 ⟨2, some nestPlate⟩
    findMove s 7 = some (1, moveA (some (.slot 22)) .queued) ∧ s.piece? H = some p ∧
    ((s.zone 5).nest = some nestStaged ∧ nestStaged.plate = H ∧ ∀ y, y < 5 → (s.zone y).nest = none) ∧
    (t.table (zoneTable 5)).chain = true ∧ startOk t (2 * 2) = false ∧ ReadyToStart t (2 * 2 + 1) nestStaged nestPlate := by
  unfold ReadyToStart State.names; decide +kernel

/-! ## Witnesses: the link, the hall modes and reset -/

theorem witness_PollTurnsRun :
    let s := hall .burn 2 .online
    let rests : State := { s with slc := { s.slc with turn := none } }
    let answered : State := { s with slc := { s.slc with turn := some ⟨9, some ⟨.ok, 0, .none⟩⟩ } }
    s.slc.turn ≠ none ∧ rests.slc.turn = none ∧ (rests.station 9).state ≠ .unused ∧ (rests.station 3).state = .unused ∧
    rests.slc.pollList.getD ((rests.slc.cursor + 1) % 2) 0 = 9 ∧ rests.slc.pollList.getD ((rests.slc.cursor + 0) % 2) 0 = 3 ∧
    (∀ i, i < State.reset.slc.pollList.length → False) ∧ answered.slc.turn = some ⟨9, some ⟨.ok, 0, .none⟩⟩ := by
  decide +kernel

theorem witness_AnswersAreCounted :
    let s (r : Role) (st : StationState) := hall r 2 st
    (s .burn .online).slc.turn = some ⟨9, none⟩ ∧ ((s .burn .online).setStation 9 Station.reset |>.station 9).binding = none ∧
    ((s .burn .online).station 9).binding = some (.burn, 2) ∧ ((s .mark .offline).station 9).state = .offline ∧
    ((s .mark .online).station 9).state = .online ∧ 2 ≤ ((s .mark .online).station 9).misses ∧
    (((s .mark .online).setStation 9 ⟨.online, some (.mark, 2), 1⟩).station 9).misses < 2 := by decide +kernel

theorem witness_StationRequestsAreChecked :
    (hall .burn 5 .online).serves 9 .burn 5 ∧ (hall .mark 0 .online).serves 9 .mark 0 ∧
    (hall .crane 2 .online).serves 9 .crane 2 := by
  unfold State.serves; decide +kernel

theorem witness_StationsAndPollListAreSet :
    let s := (hall .mark 2 .online).setStation 4 ⟨.online, some (.burn, 3), 1⟩
    (31 < 32 ∧ 1 ≤ 31 ∧ 2 < 3 ∧ 6 ≤ 6 ∧ 3 ≤ 3) ∧ (s.station 9).binding = some (.mark, 2) ∧
    (s.station 4).binding = some (.burn, 3) ∧ (s.station 5).binding = none ∧ s.slc.turn ≠ none ∧
    (∀ x, x < 32 → (s.station x).binding = some (.burn, 3) → x = 4) ∧
    (∀ x, x < 32 → (s.station x).binding ≠ some (.crane, 2)) ∧
    ((List.replicate 32 31).length ≤ 32 ∧ (∀ a ∈ List.replicate 32 31, 1 ≤ a ∧ a ≤ 31)) ∧ State.reset.slc.turn = none := by
  decide +kernel

theorem witness_HallIsOpenedAndStopped :
    let s := ready true
    s.ppn.mode = .opened ∧ (inMode .cold s).ppn.mode = .cold ∧ (inMode .stopped s).ppn.mode = .stopped ∧
    (∀ x, x < 6 → (((ready false).table x).chain = false)) ∧ (s.table 2).chain = true ∧
    ((granted .burn).burn 2).grant = some grantA ∧ ((granted .burn).burn 3).grant = none := by decide +kernel

/-- A nest on bed A of a chained table, ready once the hall opens. -/
theorem witness_OpenedHallStartsTheNest :
    let p : Piece := { nestPlate with place := .zone 4 }
    let s := (withPiece (hall .mark 2 .offline) H p).setBed 4 ⟨[H], 0, 0, 0, 1, 0, 1, true⟩
    let s := (s.setZone 4 ⟨.loaded, some nestStaged, none⟩).setTable 2 ⟨none, true⟩
    ReadyToStart { inMode .stopped s with ppn := { (inMode .stopped s).ppn with mode := .opened } } (2 * 2) nestStaged p := by
  unfold ReadyToStart State.names; decide +kernel

/-- The same on bed B, where zone A has no nest; and a table where neither is ready. -/
theorem witness_OpenedHallStartsZoneB :
    let opened (s : State) : State := { s with ppn := { s.ppn with mode := .opened } }
    let s := inMode .stopped (ready true)
    let idle := inMode .stopped (unstaged true)
    (s.table 2).chain = true ∧ startOk (opened s) (2 * 2) = false ∧
    ReadyToStart (opened s) (2 * 2 + 1) nestStaged nestPlate ∧
    startOk (opened idle) (2 * 2) = false ∧ startOk (opened idle) (2 * 2 + 1) = false := by
  unfold ReadyToStart State.names; decide +kernel

theorem witness_RegistryIsCleared :
    Canonical (granted .burn) ∧ (granted .burn).ppn.mode ≠ .cold ∧ (inMode .cold (granted .burn)).ppn.mode = .cold ∧
    (inMode .cold (granted .burn)).fse.phase ≠ .scanning ∧ (inMode .cold (scanning 5 [])).fse.phase = .scanning :=
  ⟨canonical_granted, by decide +kernel⟩

/-! ## Witnesses: frames -/

theorem witness_LinkFramesAreLaidOut :
    let r : Rect := ⟨0, 0, 1, 1⟩
    let v : PieceView := ⟨H, { plateInSlot with kind := .remnant, rects := [r, r, r, r] }, 0, 1⟩
    (v.piece.key.heat.length = 8 ∧ v.piece.rects.length ≤ 4) ∧ (outPiece v).length = 80 ∧
    (replyPayload ⟨.ok, 53, .picked 1 moveB (some v) ⟨.verified, 1, 2, 3, .valid, .held, 4, 5⟩⟩).length ≤ 120 ∧
    (List.replicate 120 (0 : Byte)).length ≤ 120 ∧ 120 < (List.replicate 121 (0 : Byte)).length ∧
    (List.replicate 20 65).length ≤ 20 := by decide +kernel

end Sys2Proof.Tests
end

section
/-! PROOFS. The hash of a key (R10): the running value after the heat code, and the share of the sequence in the hash. -/

open Sys2Proof Sys2Proof.Machine

namespace Sys2Proof.Machine

/-- One step of R10: the running value `v` with the byte `b` taken in. -/
def hashByte (v b : Nat) : Nat := (v * 31 + b) % 4096

/-- The running value of R10 after the characters of a heat code. -/
def heatHash (heat : List Nat) : Nat := heat.foldl hashByte 0

/-- What a sequence adds to the hash, by R10's last two steps: 31 times its high byte plus its low byte. -/
def seqShare (n : Nat) : Nat := 31 * (n / 256) + n % 256

/-- The hash is a fold of R10's step over the ten bytes, so the model's `keyHash` is tied to `hashByte`. -/
theorem keyHash_eq_foldl_hashByte (k : Key) : keyHash k = (k.heat ++ [k.seq / 256, k.seq % 256]).foldl hashByte 0 := rfl

/-- The sequence's two bytes are taken in after the heat code. -/
theorem keyHash_eq_hashByte_heatHash (heat : List Nat) (n : Nat) :
    keyHash ⟨heat, n⟩ = hashByte (hashByte (heatHash heat) (n / 256)) (n % 256) := by
  rw [keyHash_eq_foldl_hashByte, List.foldl_append]
  rfl

/-- Reducing once at the end, instead of after each byte, gives the same value. -/
theorem hashByte_hashByte (v hi lo : Nat) : hashByte (hashByte v hi) lo = (v * 961 + (31 * hi + lo)) % 4096 := by
  unfold hashByte
  omega

/-- Within one heat code the hash rests on the sequence by its share alone (R10's last paragraph). -/
theorem keyHash_eq_heatHash_add_seqShare (heat : List Nat) (n : Nat) :
    keyHash ⟨heat, n⟩ = (heatHash heat * 961 + seqShare n) % 4096 := by
  rw [keyHash_eq_hashByte_heatHash, hashByte_hashByte, seqShare]

/-- The running value of R10's worked example after the eight characters of K7-40215. -/
theorem heatHash_K7_40215 : heatHash [75, 55, 45, 52, 48, 50, 49, 53] = 3609 := rfl

/-- The four worked sequences have one share: 0 and 93, 1 and 62, 2 and 31, 3 and 0 all add 93. -/
theorem seqShare_worked_sequences : ∀ n ∈ [93, 318, 543, 768], seqShare n = 93 := by decide

/-- Settles O8: the fold is the model's own; the four sequences hash alike since they add the same share, and that hash is
(3609 · 961 + 93) mod 4096 = 3126. -/
theorem keyHashIsStated : Obligations.KeyHashIsStated := by
  unfold Obligations.KeyHashIsStated
  refine ⟨keyHash_eq_foldl_hashByte, fun n hn => ?_⟩
  rw [keyHash_eq_heatHash_add_seqShare, heatHash_K7_40215, seqShare_worked_sequences n hn]

end Sys2Proof.Machine
end

section
/-! PROOFS. The search engine: which rectangle a piece is fitted by (R48), and the order of the kept candidates (R50). -/

open Sys2Proof Sys2Proof.Machine

namespace Sys2Proof.Machine

/-! ## The tests of one rectangle (R48) -/

/-- The unrotated test of R48. -/
def FitsUnrotated (q : SearchRequest) (r : Rect) : Prop := q.len ≤ r.len ∧ q.wid ≤ r.wid

/-- The rotated test of R48, which counts only where the request allows it. -/
def FitsRotated (q : SearchRequest) (r : Rect) : Prop := q.rotate = true ∧ q.wid ≤ r.len ∧ q.len ≤ r.wid

/-- One of the two tests of R48 passes. -/
def FitsRect (q : SearchRequest) (r : Rect) : Prop := FitsUnrotated q r ∨ FitsRotated q r

theorem rectFits_of_fitsUnrotated {q : SearchRequest} {r : Rect} (hu : FitsUnrotated q r) :
    rectFits q r.len r.wid = some false :=
  if_pos (by simpa [FitsUnrotated] using hu)

theorem rectFits_of_not_fitsUnrotated {q : SearchRequest} {r : Rect} (hu : ¬ FitsUnrotated q r) :
    rectFits q r.len r.wid = if q.rotate && q.wid ≤ r.len && q.len ≤ r.wid then some true else none :=
  if_neg (by simpa [FitsUnrotated] using hu)

theorem rectFits_of_fitsRotated {q : SearchRequest} {r : Rect} (hu : ¬ FitsUnrotated q r) (hr : FitsRotated q r) :
    rectFits q r.len r.wid = some true := by
  rw [rectFits_of_not_fitsUnrotated hu, if_pos (by simpa [FitsRotated, and_assoc] using hr)]

theorem rectFits_of_not_fitsRotated {q : SearchRequest} {r : Rect} (hu : ¬ FitsUnrotated q r) (hr : ¬ FitsRotated q r) :
    rectFits q r.len r.wid = none := by
  rw [rectFits_of_not_fitsUnrotated hu, if_neg (by simpa [FitsRotated, and_assoc] using hr)]

/-- The unrotated test is tried first, so a rectangle is used rotated only where it fails. -/
theorem rectFits_eq_some_iff (q : SearchRequest) (r : Rect) (b : Bool) :
    rectFits q r.len r.wid = some b ↔ FitsRect q r ∧ (b = false ↔ FitsUnrotated q r) := by
  by_cases hu : FitsUnrotated q r
  · simp [rectFits_of_fitsUnrotated hu, FitsRect, hu, eq_comm]
  · by_cases hr : FitsRotated q r
    · simp [rectFits_of_fitsRotated hu hr, FitsRect, hu, hr, eq_comm]
    · simp [rectFits_of_not_fitsRotated hu hr, FitsRect, hu, hr]

theorem rectFits_eq_none_iff (q : SearchRequest) (r : Rect) : rectFits q r.len r.wid = none ↔ ¬ FitsRect q r := by
  by_cases hu : FitsUnrotated q r
  · simp [rectFits_of_fitsUnrotated hu, FitsRect, hu]
  · by_cases hr : FitsRotated q r
    · simp [rectFits_of_fitsRotated hu hr, FitsRect, hr]
    · simp [rectFits_of_not_fitsRotated hu hr, FitsRect, hu, hr]

/-! ## The first rectangle that fits (R48) -/

theorem firstFit_cons_of_fits {q : SearchRequest} {r : Rect} {b : Bool} (h : rectFits q r.len r.wid = some b)
    (k : Nat) (rs : List Rect) : firstFit q k (r :: rs) = some (k, b) := by
  rw [firstFit, h]

theorem firstFit_cons_of_not_fits {q : SearchRequest} {r : Rect} (h : rectFits q r.len r.wid = none)
    (k : Nat) (rs : List Rect) : firstFit q k (r :: rs) = firstFit q (k + 1) rs := by
  rw [firstFit, h]

theorem firstFit_eq_none_iff (q : SearchRequest) (k : Nat) (l : List Rect) :
    firstFit q k l = none ↔ ∀ r ∈ l, ¬ FitsRect q r := by
  induction l generalizing k with
  | nil => simp [firstFit]
  | cons r rs ih =>
    rw [List.forall_mem_cons, ← rectFits_eq_none_iff]
    cases h : rectFits q r.len r.wid with
    | some b => simp [firstFit_cons_of_fits h]
    | none => simp [firstFit_cons_of_not_fits h, ih]

/-- The list splits at the rectangle used: none before it fits, and its index counts on from where the search began. -/
theorem firstFit_eq_some_iff (q : SearchRequest) (k : Nat) (l : List Rect) (i : Nat) (b : Bool) :
    firstFit q k l = some (i, b) ↔
      ∃ front r back, l = front ++ r :: back ∧ i = k + front.length ∧ (∀ x ∈ front, ¬ FitsRect q x) ∧
        rectFits q r.len r.wid = some b := by
  constructor
  · intro h
    induction l generalizing k with
    | nil => simp [firstFit] at h
    | cons r rs ih =>
      cases hr : rectFits q r.len r.wid with
      | some c =>
        obtain ⟨rfl, rfl⟩ : k = i ∧ c = b := by simpa [firstFit_cons_of_fits hr] using h
        exact ⟨[], r, rs, rfl, rfl, by simp, hr⟩
      | none =>
        rw [firstFit_cons_of_not_fits hr] at h
        obtain ⟨front, x, back, rfl, rfl, hfront, hx⟩ := ih (k + 1) h
        refine ⟨r :: front, x, back, rfl, by simp; omega, ?_, hx⟩
        exact List.forall_mem_cons.2 ⟨(rectFits_eq_none_iff q r).1 hr, hfront⟩
  · rintro ⟨front, r, back, rfl, rfl, hfront, hr⟩
    induction front generalizing k with
    | nil => exact firstFit_cons_of_fits hr k back
    | cons x xs ih =>
      obtain ⟨hx, hxs⟩ := List.forall_mem_cons.1 hfront
      rw [List.cons_append, firstFit_cons_of_not_fits ((rectFits_eq_none_iff q x).2 hx), ih (k + 1) hxs, List.length_cons]
      congr 2
      omega

/-- The same by index: the rectangle at the index fits, and none at a smaller index does. -/
theorem fitOf_eq_some_iff (q : SearchRequest) (p : Piece) (i : Nat) (b : Bool) :
    fitOf q p = some (i, b) ↔ ∃ r, (tried p)[i]? = some r ∧ FitsRect q r ∧ (b = false ↔ FitsUnrotated q r) ∧
      ∀ j r', j < i → (tried p)[j]? = some r' → ¬ FitsRect q r' := by
  rw [fitOf, firstFit_eq_some_iff]
  generalize tried p = l
  constructor
  · rintro ⟨front, r, back, rfl, rfl, hfront, hr⟩
    obtain ⟨hfits, hb⟩ := (rectFits_eq_some_iff q r b).1 hr
    refine ⟨r, by simp, hfits, hb, fun j r' hj hr' => hfront r' ?_⟩
    rw [List.getElem?_append_left (by omega)] at hr'
    exact List.mem_of_getElem? hr'
  · rintro ⟨r, hr, hfits, hb, hfirst⟩
    obtain ⟨hi, rfl⟩ := List.getElem?_eq_some_iff.1 hr
    refine ⟨l.take i, l[i], l.drop (i + 1), by simp, by simp; omega, fun x hx => ?_, (rectFits_eq_some_iff q _ b).2 ⟨hfits, hb⟩⟩
    obtain ⟨j, hj, rfl⟩ := List.mem_take_iff_getElem.1 hx
    exact hfirst j _ (by omega) (List.getElem?_eq_getElem _)

/-! ## The order of the candidates (R50) -/

theorem Candidate.before_iff (a b : Candidate) :
    a.before b = true ↔ a.score < b.score ∨ (a.score = b.score ∧ a.created < b.created) := by
  simp [Candidate.before]

/-- `a` may stand ahead of `b` in a list kept in the order of R50. -/
def Candidate.NotAfter (a b : Candidate) : Prop := b.before a = false

theorem Candidate.notAfter_iff (a b : Candidate) :
    a.NotAfter b ↔ a.score < b.score ∨ (a.score = b.score ∧ a.created ≤ b.created) := by
  rw [Candidate.NotAfter, ← Bool.not_eq_true, Candidate.before_iff]
  omega

theorem Candidate.notAfter_of_before {a b : Candidate} (h : a.before b = true) : a.NotAfter b := by
  rw [Candidate.before_iff] at h
  rw [Candidate.notAfter_iff]
  omega

theorem Candidate.before_of_before_of_notAfter {a b c : Candidate} (hab : a.before b = true) (hbc : b.NotAfter c) :
    a.before c = true := by
  rw [Candidate.before_iff] at hab ⊢
  rw [Candidate.notAfter_iff] at hbc
  omega

/-! ## A candidate joins the list (R50) -/

/-- The place of a candidate in a list in order: behind every entry it does not sort before, ahead of all the others. -/
theorem insertCandidate_eq_append (c : Candidate) {l : List Candidate} (hl : l.Pairwise Candidate.NotAfter) :
    ∃ front back, l = front ++ back ∧ (∀ x ∈ front, c.before x = false) ∧ (∀ x ∈ back, c.before x = true) ∧
      insertCandidate c l = front ++ c :: back := by
  induction l with
  | nil => exact ⟨[], [], rfl, by simp, by simp, rfl⟩
  | cons d r ih =>
    obtain ⟨hd, hr⟩ := List.pairwise_cons.1 hl
    by_cases hcd : c.before d = true
    · have hback : ∀ x ∈ d :: r, c.before x = true :=
        List.forall_mem_cons.2 ⟨hcd, fun x hx => Candidate.before_of_before_of_notAfter hcd (hd x hx)⟩
      exact ⟨[], d :: r, rfl, by simp, hback, by simp [insertCandidate, hcd]⟩
    · obtain ⟨front, back, rfl, hfront, hback, hins⟩ := ih hr
      exact ⟨d :: front, back, rfl, List.forall_mem_cons.2 ⟨by simpa using hcd, hfront⟩, hback,
        by simp [insertCandidate, hcd, hins]⟩

theorem insertCandidate_pairwise (c : Candidate) {l : List Candidate} (hl : l.Pairwise Candidate.NotAfter) :
    (insertCandidate c l).Pairwise Candidate.NotAfter := by
  obtain ⟨front, back, rfl, hfront, hback, hins⟩ := insertCandidate_eq_append c hl
  obtain ⟨hf, hb, hfb⟩ := List.pairwise_append.1 hl
  have hcb : (c :: back).Pairwise Candidate.NotAfter :=
    List.pairwise_cons.2 ⟨fun x hx => Candidate.notAfter_of_before (hback x hx), hb⟩
  rw [hins]
  exact List.pairwise_append.2 ⟨hf, hcb, fun x hx => List.forall_mem_cons.2 ⟨hfront x hx, hfb x hx⟩⟩

theorem keepCandidate_pairwise (c : Candidate) {l : List Candidate} (hl : l.Pairwise Candidate.NotAfter) :
    (keepCandidate c l).Pairwise Candidate.NotAfter :=
  (insertCandidate_pairwise c hl).sublist (List.take_sublist _ _)

/-- Settles O21: the fit by the split of the list at the first rectangle that passes, the kept list by the place at which a
candidate joins a list in order. -/
theorem fitsAndCandidates : Obligations.FitsAndCandidates := by
  unfold Obligations.FitsAndCandidates
  refine ⟨fun q p i b => ⟨fun hk => ?_, fun hk => ?_, fitOf_eq_some_iff q p i b, firstFit_eq_none_iff q 0 (tried p)⟩,
    Candidate.before_iff, fun c l _ hl => ⟨keepCandidate_pairwise c hl, ?_⟩⟩
  · rw [tried, hk]
  · rw [tried, hk]
  · obtain ⟨front, back, hsplit, hfront, hback, hins⟩ := insertCandidate_eq_append c hl
    exact ⟨front, back, hsplit, hfront, hback, congrArg (List.take 4) hins⟩

end Sys2Proof.Machine
end

section
/-! PROOFS. The Runway Sensor Unit: judging a frame (R125), and the conversion of a raw position with its bands (R133). -/

open Sys2Proof Sys2Proof.Machine

namespace Sys2Proof.Machine

/-! ## The checks of a frame (R125) -/

/-- The parity check of R125 fails: the number of 1 bits is odd under EVEN, or even under ODD. -/
def ParityFails (p : Parity) (bits : List Bool) : Prop :=
  (p = .even ∧ (bits.filter (· = true)).length % 2 = 1) ∨ (p = .odd ∧ (bits.filter (· = true)).length % 2 = 0)

/-- The encoder's alarm of R125: a status bit at 1. -/
def HasAlarm (f : FrameSettings) (bits : List Bool) : Prop :=
  ∃ x ∈ (bits.drop f.dataBits).take f.statusBits, x = true

theorem count_true_eq_length_filter (bits : List Bool) : bits.count true = (bits.filter (· = true)).length := by
  rw [List.count, List.countP_eq_length_filter]
  simp

theorem parityOk_eq_true_iff (p : Parity) (bits : List Bool) : parityOk p bits = true ↔ ¬ ParityFails p bits := by
  rw [ParityFails, ← count_true_eq_length_filter]
  cases p <;> simp [parityOk]

theorem any_statusOf_iff (f : FrameSettings) (bits : List Bool) : (statusOf f bits).any id = true ↔ HasAlarm f bits :=
  List.any_eq_true

/-- Parity is checked first, so it names the failure whatever the status bits are. -/
theorem judgeFrame_of_parityFails {f : FrameSettings} {bits : List Bool} (hp : ParityFails f.parity bits) :
    judgeFrame f bits = .error .parity :=
  if_pos (by rwa [Bool.not_eq_true', ← Bool.not_eq_true, parityOk_eq_true_iff, not_not])

theorem judgeFrame_of_hasAlarm {f : FrameSettings} {bits : List Bool} (hp : ¬ ParityFails f.parity bits)
    (ha : HasAlarm f bits) : judgeFrame f bits = .error .encoderAlarm := by
  rw [judgeFrame, (parityOk_eq_true_iff _ _).2 hp, (any_statusOf_iff f bits).2 ha]
  rfl

theorem judgeFrame_of_passes {f : FrameSettings} {bits : List Bool} (hp : ¬ ParityFails f.parity bits)
    (ha : ¬ HasAlarm f bits) : judgeFrame f bits = .ok (rawPosition f.code (bits.take f.dataBits)) := by
  rw [judgeFrame, (parityOk_eq_true_iff _ _).2 hp, if_neg (by decide), if_neg (by rwa [any_statusOf_iff])]

/-! ## The position bits (R125) -/

theorem ofBits_append_singleton (l : List Bool) (x : Bool) : ofBits (l ++ [x]) = 2 * ofBits l + if x then 1 else 0 := by
  rw [ofBits, List.foldl_append]
  cases x <;> rfl

@[simp] theorem grayBits_length (above : Bool) (data : List Bool) : (grayBits above data).length = data.length := by
  induction data generalizing above with
  | nil => rfl
  | cons g r ih => simp [grayBits, ih]

/-- Gray to binary place by place: the first bit goes with the bit `above` the list, every other with the binary bit
converted before it. -/
theorem grayBits_getElem? (above : Bool) (data : List Bool) (i : Nat) (g : Bool) (hg : data[i]? = some g) :
    (grayBits above data)[i]? =
      some (if i = 0 then above ^^ g else (grayBits above data).getD (i - 1) false ^^ g) := by
  induction data generalizing above i with
  | nil => simp at hg
  | cons d r ih =>
    cases i with
    | zero =>
      obtain rfl : d = g := by simpa using hg
      rfl
    | succ j =>
      have hbit := ih (above ^^ d) j (by simpa using hg)
      cases j with
      | zero => simpa [grayBits] using hbit
      | succ k => simpa [grayBits] using hbit

/-! ## The conversion and the bands (R133) -/

/-- The floor of R133, by the two multiples of 65536 between which the exact product lies. -/
theorem convert_eq_iff (raw offset scale q : Int) :
    convert raw offset scale = q ↔ q * 65536 ≤ (raw - offset) * scale ∧ (raw - offset) * scale < (q + 1) * 65536 := by
  rw [convert, Int.fdiv_eq_ediv_of_nonneg _ (by decide)]
  omega

/-- The band of an X or Y axis of length `n` (R133): 500 mm beyond either end pass, and are clamped to the axis. -/
def travelBand (n : Nat) (v : Int) : Option Int :=
  if -500 ≤ v && v ≤ n + 500 then some (max 0 (min n v)) else none

theorem bandValue_x (r : Runway) (v : Int) : bandValue r 0 v = travelBand r.length v := rfl

theorem bandValue_y (r : Runway) (v : Int) : bandValue r 1 v = travelBand r.span v := rfl

theorem travelBand_eq_none {n : Nat} {v : Int} (hv : v < -500 ∨ n + 500 < v) : travelBand n v = none :=
  if_neg (by simp; omega)

theorem travelBand_eq_some {n : Nat} {v : Int} (hlo : -500 ≤ v) (hhi : v ≤ n + 500) :
    travelBand n v = some (if v < 0 then 0 else if v ≤ n then v else n) := by
  have hclamp : max 0 (min (n : Int) v) = if v < 0 then 0 else if v ≤ n then v else n := by
    split_ifs <;> omega
  rw [travelBand, if_pos (by simp [hlo, hhi]), hclamp]

theorem bandValue_h_eq_none (r : Runway) {v : Int} (hv : v < 0 ∨ 40000 < v) : bandValue r 2 v = none :=
  if_neg (by simp; omega)

theorem bandValue_h_eq_some (r : Runway) {v : Int} (hlo : 0 ≤ v) (hhi : v ≤ 40000) : bandValue r 2 v = some v :=
  if_pos (by simp [hlo, hhi])

/-! ## A read that passed (R132, R133) -/

/-- What a read that passed comes to, from its raw position `x`: one rule for the encoders and the hoist counters. -/
def passedRead (r : Runway) (letter : Nat) (a : Axis) (x : Int) : Except ReadResult Int :=
  if a.scale = 0 then .error .unconfigured
  else (bandValue r letter (convert x a.offset a.scale)).elim (.error .range) .ok

theorem readOf_raw (r : Runway) (letter : Nat) (a : Axis) (n : Nat) :
    readOf r letter a (.raw n) = passedRead r letter a n := by
  rw [readOf, passedRead]
  cases bandValue r letter (convert n a.offset a.scale) <;> rfl

theorem hoistRead_eq_passedRead (r : Runway) (a : Axis) (k : Latch) :
    hoistRead r a k = passedRead r 2 a k.count.toInt := by
  rw [hoistRead, passedRead]
  cases bandValue r 2 (convert k.count.toInt a.offset a.scale) <;> rfl

/-- The three results of R133: UNCONFIGURED before any conversion, RANGE outside the band, else the position. -/
theorem passedRead_cases (r : Runway) (letter : Nat) (a : Axis) (x : Int) :
    (a.scale = 0 → passedRead r letter a x = .error .unconfigured) ∧
    (a.scale ≠ 0 → bandValue r letter (convert x a.offset a.scale) = none → passedRead r letter a x = .error .range) ∧
    ∀ y, a.scale ≠ 0 → bandValue r letter (convert x a.offset a.scale) = some y → passedRead r letter a x = .ok y := by
  refine ⟨fun h0 => if_pos h0, fun h0 hb => ?_, fun y h0 hb => ?_⟩
  · rw [passedRead, if_neg h0, hb]
    rfl
  · rw [passedRead, if_neg h0, hb]
    rfl

/-- Settles O39: the checks of a frame in their order with the gray form bit by bit, then the floor and the bands, and the
encoders and the hoists by the one rule of a read that passed. -/
theorem framesAreJudged : Obligations.FramesAreJudged := by
  unfold Obligations.FramesAreJudged
  refine ⟨fun f bits => ⟨judgeFrame_of_parityFails, judgeFrame_of_hasAlarm, fun hp ha hc => ?binary,
    fun hp ha hc => ?gray, ofBits_append_singleton⟩, fun raw offset scale q v r => ⟨convert_eq_iff raw offset scale q,
    fun hv => (bandValue_x r v).trans (travelBand_eq_none hv),
    fun hlo hhi => (bandValue_x r v).trans (travelBand_eq_some hlo hhi),
    fun hv => (bandValue_y r v).trans (travelBand_eq_none hv),
    fun hlo hhi => (bandValue_y r v).trans (travelBand_eq_some hlo hhi),
    bandValue_h_eq_none r, bandValue_h_eq_some r, fun a n k => ?reads⟩⟩
  case binary => rw [judgeFrame_of_passes hp ha, hc, rawPosition]
  case gray =>
    refine ⟨grayBits false (bits.take f.dataBits), ?_, grayBits_length _ _, fun i g hg => ?_⟩
    · rw [judgeFrame_of_passes hp ha, hc, rawPosition]
    · simpa using grayBits_getElem? false _ i g hg
  case reads =>
    rw [readOf_raw, readOf_raw, hoistRead_eq_passedRead]
    exact ⟨passedRead_cases r 0 a n, passedRead_cases r 1 a n, passedRead_cases r 2 a k.count.toInt⟩

end Sys2Proof.Machine
end

section
/-! PROOFS. The hall modes (R188, R189): the pending start checks as the hall becomes OPEN (R78), the revocations and the
travel permissives as it becomes STOPPED (R105, R153). -/

open Sys2Proof Sys2Proof.Machine

namespace Sys2Proof.Machine

/-! ## Operations run over a list of units -/

/-- A relation that every step of a run over a list keeps holds between the start and the end of the run. -/
theorem foldl_related {α : Type} {R : State → State → Prop} {f : State → α → State} (refl : ∀ s, R s s)
    (trans : ∀ {s t u}, R s t → R t u → R s u) {l : List α} (step : ∀ s, ∀ a ∈ l, R s (f s a)) (s : State) :
    R s (l.foldl f s) :=
  List.foldlRecOn (motive := R s) l f (refl s) fun t ht a ha => trans ht (step t a ha)

/-- What no step of a run changes, the run does not change. -/
theorem foldl_keeps {α β : Type} {g : State → β} {f : State → α → State} (step : ∀ s a, g (f s a) = g s) (l : List α)
    (s : State) : g (l.foldl f s) = g s :=
  foldl_related (R := fun s t => g t = g s) (fun _ => rfl) (fun h k => k.trans h) (fun s a _ => step s a) s

/-- A run over the first `n` units, seen from unit `x`: the steps before and after that of `x` only keep the relation. -/
theorem foldl_range_at {R : State → State → Prop} {f : State → Nat → State} {x n : Nat} (hx : x < n) (refl : ∀ s, R s s)
    (trans : ∀ {s t u}, R s t → R t u → R s u) (step : ∀ {y}, y ≠ x → ∀ s, R s (f s y)) (s : State) :
    ∃ u, R s u ∧ R (f u x) ((List.range n).foldl f s) := by
  obtain ⟨before, after, hsplit⟩ := List.append_of_mem (List.mem_range.2 hx)
  have hnodup : (before ++ x :: after).Nodup := hsplit ▸ List.nodup_range
  obtain ⟨hnot, -⟩ := List.nodup_cons.1 (List.nodup_middle.1 hnodup)
  have hne : ∀ y, y ∈ before ∨ y ∈ after → y ≠ x := by
    rintro y hy rfl
    exact hnot (List.mem_append.2 hy)
  rw [hsplit, List.foldl_append, List.foldl_cons]
  exact ⟨before.foldl f s, foldl_related refl trans (fun t y hy => step (hne y (.inl hy)) t) s,
    foldl_related refl trans (fun t y hy => step (hne y (.inr hy)) t) _⟩

/-! ## Raised notices -/

theorem notice_raise (s : State) (u : NoticeUnit) (k : NoticeKind) (j : Nat) :
    (raise s u k).notice j = if j = noticeCode u k then some false else s.notice j :=
  State.notice_setNotice s _ _ _

theorem notice_raise_same (s : State) (u : NoticeUnit) (k : NoticeKind) :
    (raise s u k).notice (noticeCode u k) = some false := by simp [notice_raise]

/-- A notice just raised is not taken back by raising another. -/
theorem notice_raise_of_raised {s : State} {j : Nat} (h : s.notice j = some false) (u : NoticeUnit) (k : NoticeKind) :
    (raise s u k).notice j = some false := by simp [notice_raise, h]

/-! ## Starting a nest by the chain (R71, R78) -/

section Switch

variable {s : State} {z : Nat} {n : Nest}

theorem zone_switchTo (hn : (s.zone z).nest = some n) (j : Nat) : (switchTo s z).zone j =
    if j = z then ⟨.cutting, some { n with state := .active }, (s.zone z).inbound⟩ else s.zone j := by
  simp [switchTo, activate, hn]

theorem table_switchTo (hn : (s.zone z).nest = some n) (j : Nat) : (switchTo s z).table j =
    if j = zoneTable z then ⟨some (zoneBed z), false⟩ else s.table j := by
  by_cases hj : j = zoneTable z <;> simp [switchTo, activate, hn, hj]

@[simp] theorem notice_activate (s : State) (z j : Nat) : (activate s z).notice j = s.notice j := by
  simp only [State.notice, ppn_activate]

theorem notice_switchTo (s : State) (z j : Nat) : (switchTo s z).notice j =
    if j = noticeCode (.table (zoneTable z)) .zoneSwitched then some false else s.notice j := by
  simp [switchTo, notice_raise]

/-- A change of a piece's state leaves every piece with the move it had. -/
theorem move_piece?_modPiece {f : Piece → Piece} (hf : ∀ p, (f p).move = p.move) (s : State) (g h : Handle) :
    ((s.modPiece g f).piece? h).map Piece.move = (s.piece? h).map Piece.move := by
  cases e : s.piece? g with
  | none => simp [State.modPiece, e]
  | some p =>
    rw [modPiece_eq f e, piece?_setRecord]
    split
    next hi =>
      have hr : s.record h.index = ⟨g.gen, some p⟩ := hi ▸ piece?_eq_some.1 e
      by_cases hg : g.gen = h.gen <;> simp [State.piece?, hr, hg, hf]
    next => rfl

theorem move_piece?_switchTo (s : State) (z : Nat) (h : Handle) :
    ((switchTo s z).piece? h).map Piece.move = (s.piece? h).map Piece.move := by
  cases hn : (s.zone z).nest with
  | none => simp [switchTo, activate, hn]
  | some n => simp [switchTo, activate, hn, move_piece?_modPiece]

/-- The start conditions of a zone (R70) read its zone record, its table's active zone, the hall mode, its bed, and the move
of the plate. -/
theorem startOk_congr {s t : State} {z : Nat} (hz : t.zone z = s.zone z) (ht : t.table (zoneTable z) = s.table (zoneTable z))
    (hm : t.ppn.mode = s.ppn.mode) (hb : t.bed z = s.bed z)
    (hp : ∀ h, (t.piece? h).map Piece.move = (s.piece? h).map Piece.move) : startOk t z = startOk s z := by
  unfold startOk
  rw [hz, ht, hm, hb]
  cases (s.zone z).nest with
  | none => rfl
  | some n =>
    have hp := hp n.plate
    cases ht : t.piece? n.plate <;> cases hs : s.piece? n.plate <;> simp_all

theorem nest_of_startOk (h : startOk s z = true) : ∃ n, (s.zone z).nest = some n := by
  cases hn : (s.zone z).nest with
  | none => simp [startOk, hn] at h
  | some n => exact ⟨n, rfl⟩

end Switch

/-- A pending start check does nothing, or switches to a nest of its table that meets the start conditions (R78). -/
theorem pendingStart_cases (s : State) (t : Nat) : pendingStart s t = s ∨
    ∃ z, zoneTable z = t ∧ startOk s z = true ∧ pendingStart s t = switchTo s z := by
  unfold pendingStart
  split
  · split
    · exact .inr ⟨_, zoneTable_zoneOf t .a, ‹_›, rfl⟩
    · split
      · exact .inr ⟨_, zoneTable_zoneOf t .b, ‹_›, rfl⟩
      · exact .inl rfl
  · exact .inl rfl

/-! ## What the checks of other tables leave of a table (R78, R188) -/

/-- `t` has table `x` as in `s`: its record, its zones, and whether their nests may start; and what was raised in `s` is
raised in `t`. -/
structure TableStands (x : Nat) (s t : State) : Prop where
  table : t.table x = s.table x
  zone : ∀ z, zoneTable z = x → t.zone z = s.zone z
  startOk : ∀ z, zoneTable z = x → startOk t z = startOk s z
  raised : ∀ j, s.notice j = some false → t.notice j = some false

theorem TableStands.refl (x : Nat) (s : State) : TableStands x s s := ⟨rfl, fun _ _ => rfl, fun _ _ => rfl, fun _ h => h⟩

theorem TableStands.trans {x : Nat} {s t u : State} (h : TableStands x s t) (k : TableStands x t u) : TableStands x s u where
  table := k.table.trans h.table
  zone z hz := (k.zone z hz).trans (h.zone z hz)
  startOk z hz := (k.startOk z hz).trans (h.startOk z hz)
  raised j hj := k.raised j (h.raised j hj)

/-- The start of a nest of another table leaves table `x`. -/
theorem tableStands_switchTo {x z : Nat} {s : State} {n : Nest} (hx : x ≠ zoneTable z) (hn : (s.zone z).nest = some n) :
    TableStands x s (switchTo s z) := by
  have htable : (switchTo s z).table x = s.table x := by rw [table_switchTo hn, if_neg hx]
  have hzone (j : Nat) (hj : zoneTable j = x) : (switchTo s z).zone j = s.zone j := by
    have hne : j ≠ z := by rintro rfl; exact hx hj.symm
    rw [zone_switchTo hn, if_neg hne]
  refine ⟨htable, hzone, fun j hj => ?_, fun j hj => by simp [notice_switchTo, hj]⟩
  exact startOk_congr (hzone j hj) (hj ▸ htable) (ppn_mode_switchTo s z) (by simp [State.bed])
    (move_piece?_switchTo s z)

/-- The pending start check of another table leaves table `x`. -/
theorem tableStands_pendingStart {x y : Nat} (hy : y ≠ x) (s : State) : TableStands x s (pendingStart s y) := by
  obtain h | ⟨z, rfl, hok, h⟩ := pendingStart_cases s y
  · rw [h]; exact .refl x s
  · obtain ⟨n, hn⟩ := nest_of_startOk hok
    rw [h]; exact tableStands_switchTo hy.symm hn

/-- The checks of the six tables, seen from one: its own check alone concerns it. -/
theorem pendingStartAll_at {x : Nat} (hx : x < 6) (s : State) :
    ∃ u, TableStands x s u ∧ TableStands x (pendingStart u x) (pendingStartAll s) :=
  foldl_range_at hx (.refl x) .trans tableStands_pendingStart s

@[simp] theorem ppn_mode_pendingStartAll (s : State) : (pendingStartAll s).ppn.mode = s.ppn.mode :=
  foldl_keeps (g := fun s => s.ppn.mode) ppn_mode_pendingStart _ s

@[simp] theorem ppn_stopInput_pendingStartAll (s : State) : (pendingStartAll s).ppn.stopInput = s.ppn.stopInput :=
  foldl_keeps (g := fun s => s.ppn.stopInput) ppn_stopInput_pendingStart _ s

/-- With no table chained the checks change nothing. -/
theorem pendingStartAll_of_no_chain {s : State} (h : ∀ x, x < 6 → (s.table x).chain = false) : pendingStartAll s = s :=
  List.foldlRecOn (motive := (· = s)) _ pendingStart rfl fun t ht x hx => by
    rw [ht]; exact pendingStart_stands (.inl (h x (List.mem_range.1 hx)))

/-- A table that is active, not chained, or has no nest to start is left alone. -/
theorem pendingStartAll_stands {s : State} {x : Nat} (hx : x < 6) (h : (s.table x).chain = false ∨
    (s.table x).active ≠ none ∨ (startOk s (2 * x) = false ∧ startOk s (2 * x + 1) = false)) :
    TableStands x s (pendingStartAll s) := by
  obtain ⟨u, hu, ht⟩ := pendingStartAll_at hx s
  have ha : startOk u (2 * x) = startOk s (2 * x) := hu.startOk _ (zoneTable_zoneOf x .a)
  have hb : startOk u (2 * x + 1) = startOk s (2 * x + 1) := hu.startOk _ (zoneTable_zoneOf x .b)
  rw [← hu.table, ← ha, ← hb] at h
  exact hu.trans (pendingStart_stands h ▸ ht)

/-- A ready nest that the check of its table turns to, whatever the checks of the other tables did, is started: its zone is
CUTTING under the ACTIVE nest, the table active there with the flag clear, the other zone stands, ZONE_SWITCHED is raised. -/
theorem pendingStartAll_starts {s : State} {x z : Nat} {n : Nest} {p : Piece} (hx : x < 6) (hz : zoneTable z = x)
    (h : ReadyToStart s z n p) (hstart : ∀ u, TableStands x s u → pendingStart u x = switchTo u z) :
    let t := pendingStartAll s
    t.zone z = ⟨.cutting, some { n with state := .active }, none⟩ ∧ t.table x = ⟨some (zoneBed z), false⟩ ∧
      (∀ j, zoneTable j = x → j ≠ z → t.zone j = s.zone j) ∧ t.notice (noticeCode (.table x) .zoneSwitched) = some false := by
  obtain ⟨hnest, -, -, -, -, -, hinbound, -, -⟩ := h
  obtain ⟨u, hu, ht⟩ := pendingStartAll_at hx s
  rw [hstart u hu] at ht
  have hn : (u.zone z).nest = some n := by rw [hu.zone z hz, hnest]
  refine ⟨?_, ?_, fun j hj hne => ?_, ht.raised _ (by simp [notice_switchTo, hz])⟩
  · rw [ht.zone z hz, zone_switchTo hn, if_pos rfl, hu.zone z hz, hinbound]
  · rw [ht.table, table_switchTo hn, if_pos hz.symm]
  · rw [ht.zone j hj, zone_switchTo hn, if_neg hne, hu.zone j hj]

/-- As the hall becomes OPEN the ready nest of zone A of a chained table starts. -/
theorem pendingStartAll_starts_a {s : State} {x : Nat} {n : Nest} {p : Piece} (hx : x < 6) (hc : (s.table x).chain = true)
    (h : ReadyToStart s (2 * x) n p) :
    let t := pendingStartAll s
    t.zone (2 * x) = ⟨.cutting, some { n with state := .active }, none⟩ ∧ t.table x = ⟨some .a, false⟩ ∧
      t.zone (2 * x + 1) = s.zone (2 * x + 1) ∧ t.notice (noticeCode (.table x) .zoneSwitched) = some false := by
  have hA : zoneTable (2 * x) = x := zoneTable_zoneOf x .a
  have hbed : zoneBed (2 * x) = .a := zoneBed_zoneOf x .a
  have hactive : (s.table x).active = none := hA ▸ h.2.2.1
  have hstart (u : State) (hu : TableStands x s u) : pendingStart u x = switchTo u (2 * x) := by
    simp [pendingStart, zoneOf, hu.table, hc, hactive, hu.startOk _ hA, startOk_of_ready h]
  obtain ⟨hzone, htable, hother, hnotice⟩ := pendingStartAll_starts hx hA h hstart
  exact ⟨hzone, hbed ▸ htable, hother _ (zoneTable_zoneOf x .b) (by omega), hnotice⟩

/-- As the hall becomes OPEN the ready nest of zone B starts where zone A of the chained table has none to start. -/
theorem pendingStartAll_starts_b {s : State} {x : Nat} {n : Nest} {p : Piece} (hx : x < 6) (hc : (s.table x).chain = true)
    (hf : startOk s (2 * x) = false) (h : ReadyToStart s (2 * x + 1) n p) :
    let t := pendingStartAll s
    t.zone (2 * x + 1) = ⟨.cutting, some { n with state := .active }, none⟩ ∧ t.table x = ⟨some .b, false⟩ ∧
      t.zone (2 * x) = s.zone (2 * x) ∧ t.notice (noticeCode (.table x) .zoneSwitched) = some false := by
  have hA : zoneTable (2 * x) = x := zoneTable_zoneOf x .a
  have hB : zoneTable (2 * x + 1) = x := zoneTable_zoneOf x .b
  have hbed : zoneBed (2 * x + 1) = .b := zoneBed_zoneOf x .b
  have hactive : (s.table x).active = none := hB ▸ h.2.2.1
  have hstart (u : State) (hu : TableStands x s u) : pendingStart u x = switchTo u (2 * x + 1) := by
    simp [pendingStart, zoneOf, hu.table, hc, hactive, hu.startOk _ hA, hf, hu.startOk _ hB, startOk_of_ready h]
  obtain ⟨hzone, htable, hother, hnotice⟩ := pendingStartAll_starts hx hB h hstart
  exact ⟨hzone, hbed ▸ htable, hother _ hA (by omega), hnotice⟩

/-! ## OPEN_HALL and RESUME_HALL (R189) -/

section Requests

variable {s : State}

theorem openHall_eq (s : State) : openHall s = pendingStartAll { s with ppn := { s.ppn with mode := .opened } } := rfl

theorem hallAns_openHall (s : State) : hallAns (openHall s) .ok = ⟨openHall s, .ok, .hall .opened s.ppn.stopInput⟩ := by
  simp [hallAns, openHall_eq]

theorem openHall_answers (s : State) :
    Answers .openHall s .openHall (openHallAns s).status (openHallAns s).record (openHallAns s).st := rfl

theorem resumeHall_answers (s : State) :
    Answers .resumeHall s .resumeHall (resumeHallAns s).status (resumeHallAns s).record (resumeHallAns s).st := rfl

theorem openHall_answers_of_cold (hm : s.ppn.mode = .cold) :
    Answers .openHall s .openHall .ok (.hall .opened s.ppn.stopInput) (openHall s) := by
  have h := openHall_answers s
  simpa only [openHallAns, hm, hallAns_openHall] using h

theorem openHall_answers_of_opened (hm : s.ppn.mode = .opened) :
    Answers .openHall s .openHall .ok (.hall .opened s.ppn.stopInput) s := by
  have h := openHall_answers s
  simpa only [openHallAns, hm, hallAns] using h

theorem openHall_answers_of_stopped (hm : s.ppn.mode = .stopped) :
    Answers .openHall s .openHall .wrongMode (.hall .stopped s.ppn.stopInput) s := by
  have h := openHall_answers s
  simpa only [openHallAns, hm, hallAns] using h

theorem resumeHall_answers_of_cold (hm : s.ppn.mode = .cold) :
    Answers .resumeHall s .resumeHall .wrongMode (.hall .cold s.ppn.stopInput) s := by
  have h := resumeHall_answers s
  simpa only [resumeHallAns, hm, hallAns] using h

theorem resumeHall_answers_of_opened (hm : s.ppn.mode = .opened) :
    Answers .resumeHall s .resumeHall .ok (.hall .opened s.ppn.stopInput) s := by
  have h := resumeHall_answers s
  simpa only [resumeHallAns, hm, hallAns] using h

theorem resumeHall_answers_of_asserted (hm : s.ppn.mode = .stopped) (hi : s.ppn.stopInput = true) :
    Answers .resumeHall s .resumeHall .badState (.hall .stopped s.ppn.stopInput) s := by
  have h := resumeHall_answers s
  simpa only [resumeHallAns, hm, hi, if_true, hallAns] using h

theorem resumeHall_answers_of_released (hm : s.ppn.mode = .stopped) (hi : s.ppn.stopInput = false) :
    Answers .resumeHall s .resumeHall .ok (.hall .opened s.ppn.stopInput) (openHall s) := by
  have h := resumeHall_answers s
  simpa only [resumeHallAns, hm, hi, Bool.false_eq_true, if_false, hallAns_openHall] using h

end Requests

/-! ## Revocation by the hall stop (R103, R105) -/

section Revoke

variable {s : State} {t : Nat} {g : Grant}

@[simp] theorem burn_monitorTold (s : State) (t j : Nat) : (monitorTold s t).burn j = s.burn j := by
  simp only [State.burn, bsv_burns_monitorTold]

@[simp] theorem grantHeld_monitorTold (s : State) (t j : Nat) : (monitorTold s t).grantHeld j = s.grantHeld j := by
  simp only [State.grantHeld, bsv_grantHeld_monitorTold]

@[simp] theorem notice_endGrant (s : State) (t : Nat) (g : Grant) (e : GrantEnd) (j : Nat) :
    (endGrant s t g e).notice j = s.notice j := by
  simp only [State.notice, ppn_endGrant]

theorem revoke_of_no_grant (h : (s.burn t).grant = none) (c : Cause) : revoke s t c = s := by simp [revoke, h]

theorem burn_revoke (h : (s.burn t).grant = some g) (c : Cause) (j : Nat) : (revoke s t c).burn j =
    if j = t then ⟨.idle, none, some (g.ref, .revoked c), false⟩ else s.burn j := by
  cases c <;> simp [revoke, h, endGrant]

theorem grantHeld_revoke (h : (s.burn t).grant = some g) (c : Cause) (j : Nat) : (revoke s t c).grantHeld j =
    if j = g.ref.zone t then false else s.grantHeld j := by
  cases c <;> simp [revoke, h, endGrant]

/-- GRANT_REVOKED is raised at the table, and what was raised stays so. -/
theorem notice_revoke (h : (s.burn t).grant = some g) (c : Cause) {j : Nat}
    (hj : j = noticeCode (.table t) .grantRevoked ∨ s.notice j = some false) : (revoke s t c).notice j = some false := by
  have hraised : (raise (endGrant (modPart s (g.ref.zone t) g.ref.part fun p => { p with burn := .interrupted }) t g
      (.revoked c)) (.table t) .grantRevoked).notice j = some false := by
    obtain rfl | hj := hj
    · exact notice_raise_same ..
    · exact notice_raise_of_raised (by simpa using hj) ..
  simp only [revoke, h]
  cases c with
  | torchFault => exact notice_raise_of_raised hraised ..
  | overtime => exact notice_raise_of_raised hraised ..
  | _ => exact hraised

end Revoke

/-- `t` has the burn records of table `x` as in `s`; no zone holds a grant in `t` that held none in `s`, and what was raised
in `s` is raised in `t`. -/
structure BurnStands (x : Nat) (s t : State) : Prop where
  burn : t.burn x = s.burn x
  held : ∀ z, s.grantHeld z = false → t.grantHeld z = false
  raised : ∀ j, s.notice j = some false → t.notice j = some false

theorem BurnStands.refl (x : Nat) (s : State) : BurnStands x s s := ⟨rfl, fun _ h => h, fun _ h => h⟩

theorem BurnStands.trans {x : Nat} {s t u : State} (h : BurnStands x s t) (k : BurnStands x t u) : BurnStands x s u where
  burn := k.burn.trans h.burn
  held z hz := k.held z (h.held z hz)
  raised j hj := k.raised j (h.raised j hj)

/-- The revocation of another table's grant leaves the burn records of table `x`. -/
theorem burnStands_revoke {x y : Nat} (hy : y ≠ x) (c : Cause) (s : State) : BurnStands x s (revoke s y c) := by
  cases h : (s.burn y).grant with
  | none => rw [revoke_of_no_grant h]; exact .refl x s
  | some g =>
    exact ⟨by rw [burn_revoke h, if_neg hy.symm], fun z hz => by simp [grantHeld_revoke h, hz],
      fun j hj => notice_revoke h c (.inr hj)⟩

/-- Every table's grant is revoked, table by table (R105). -/
def revokeAll (s : State) (c : Cause) : State := (List.range 6).foldl (fun s t => revoke s t c) s

/-- The revocations of the six tables, seen from one: its own alone concerns its burn records. -/
theorem revokeAll_at {x : Nat} (hx : x < 6) (c : Cause) (s : State) :
    ∃ u, BurnStands x s u ∧ BurnStands x (revoke u x c) (revokeAll s c) :=
  foldl_range_at hx (.refl x) .trans (fun hy s => burnStands_revoke hy c s) s

theorem burn_revokeAll_of_no_grant {s : State} {x : Nat} (hx : x < 6) (h : (s.burn x).grant = none) (c : Cause) :
    (revokeAll s c).burn x = s.burn x := by
  obtain ⟨u, hu, ht⟩ := revokeAll_at hx c s
  have hgrant : (u.burn x).grant = none := by rw [hu.burn, h]
  rw [ht.burn, revoke_of_no_grant hgrant, hu.burn]

theorem revokeAll_of_grant {s : State} {x : Nat} {g : Grant} (hx : x < 6) (h : (s.burn x).grant = some g) (c : Cause) :
    (revokeAll s c).burn x = ⟨.idle, none, some (g.ref, .revoked c), false⟩ ∧
      (revokeAll s c).grantHeld (zoneOf x g.ref.bed) = false ∧
      (revokeAll s c).notice (noticeCode (.table x) .grantRevoked) = some false := by
  obtain ⟨u, hu, ht⟩ := revokeAll_at hx c s
  have hgrant : (u.burn x).grant = some g := by rw [hu.burn, h]
  refine ⟨?_, ht.held _ ?_, ht.raised _ (notice_revoke hgrant c (.inl rfl))⟩
  · rw [ht.burn, burn_revoke hgrant, if_pos rfl]
  · rw [grantHeld_revoke hgrant, PartRef.zone, if_pos rfl]

theorem raised_revokeAll {s : State} {j : Nat} (h : s.notice j = some false) (c : Cause) :
    (revokeAll s c).notice j = some false := by
  obtain ⟨u, hu, ht⟩ := revokeAll_at (x := 0) (by decide) c s
  refine ht.raised j ?_
  cases hg : (u.burn 0).grant with
  | none => rw [revoke_of_no_grant hg, hu.raised j h]
  | some g => exact notice_revoke hg c (.inr (hu.raised j h))

@[simp] theorem srg_revokeAll (s : State) (c : Cause) : (revokeAll s c).srg = s.srg :=
  foldl_keeps (g := State.srg) (fun s t => srg_revoke s t c) _ s

@[simp] theorem lmap_revokeAll (s : State) (c : Cause) : (revokeAll s c).lmap = s.lmap :=
  foldl_keeps (g := State.lmap) (fun s t => lmap_revoke s t c) _ s

@[simp] theorem fse_revokeAll (s : State) (c : Cause) : (revokeAll s c).fse = s.fse :=
  foldl_keeps (g := State.fse) (fun s t => fse_revoke s t c) _ s

@[simp] theorem mkd_revokeAll (s : State) (c : Cause) : (revokeAll s c).mkd = s.mkd :=
  foldl_keeps (g := State.mkd) (fun s t => mkd_revoke s t c) _ s

@[simp] theorem rsu_revokeAll (s : State) (c : Cause) : (revokeAll s c).rsu = s.rsu :=
  foldl_keeps (g := State.rsu) (fun s t => rsu_revoke s t c) _ s

@[simp] theorem mvc_revokeAll (s : State) (c : Cause) : (revokeAll s c).mvc = s.mvc :=
  foldl_keeps (g := State.mvc) (fun s t => mvc_revoke s t c) _ s

@[simp] theorem slc_revokeAll (s : State) (c : Cause) : (revokeAll s c).slc = s.slc :=
  foldl_keeps (g := State.slc) (fun s t => slc_revoke s t c) _ s

@[simp] theorem ppn_mode_revokeAll (s : State) (c : Cause) : (revokeAll s c).ppn.mode = s.ppn.mode :=
  foldl_keeps (g := fun s => s.ppn.mode) (fun s t => ppn_mode_revoke s t c) _ s

@[simp] theorem ppn_stopInput_revokeAll (s : State) (c : Cause) : (revokeAll s c).ppn.stopInput = s.ppn.stopInput :=
  foldl_keeps (g := fun s => s.ppn.stopInput) (fun s t => ppn_stopInput_revoke s t c) _ s

/-! ## The travel permissives as the hall stops (R153) -/

theorem on_stop (p : Permissive) : p.stop.on = false := rfl

theorem mode_mem_stop (p : Permissive) : .mode ∈ p.stop.conds := by
  unfold Permissive.stop
  split
  · exact List.contains_iff_mem.1 ‹_›
  · exact List.mem_cons_self

theorem permissive_stopPermissives (s : State) {c : Nat} (hc : c < 3) (d : Dir) :
    ((stopPermissives s).crane c).permissive d = ((s.crane c).permissive d).stop := by
  have hrun : List.range 3 = [0, 1, 2] := rfl
  obtain rfl | rfl | rfl : c = 0 ∨ c = 1 ∨ c = 2 := by omega
  all_goals cases d <;> simp [stopPermissives, hrun, CraneClear.permissive]

@[simp] theorem burn_stopPermissives (s : State) (j : Nat) : (stopPermissives s).burn j = s.burn j := by
  simp only [State.burn, bsv_stopPermissives]

@[simp] theorem grantHeld_stopPermissives (s : State) (j : Nat) : (stopPermissives s).grantHeld j = s.grantHeld j := by
  simp only [State.grantHeld, bsv_stopPermissives]

@[simp] theorem notice_stopPermissives (s : State) (j : Nat) : (stopPermissives s).notice j = s.notice j := by
  simp only [State.notice, ppn_stopPermissives]

/-! ## HALL_STOP (R188) -/

theorem stopHall_eq (s : State) :
    stopHall s = stopPermissives (revokeAll (raise (setMode s .stopped) .hall .hallStopped) .hallStop) := rfl

theorem exec_hallStop_of_stopped {s : State} (h : s.ppn.mode = .stopped) :
    exec .hallStop s = .next { s with ppn := { s.ppn with stopInput := true } } := if_pos h

theorem exec_hallStop_of_not_stopped {s : State} (h : s.ppn.mode ≠ .stopped) :
    exec .hallStop s = .next (stopHall { s with ppn := { s.ppn with stopInput := true } }) := if_neg h

theorem exec_hallStopRelease (s : State) :
    exec .hallStopRelease s = .next { s with ppn := { s.ppn with stopInput := false } } := rfl

@[simp] theorem burn_setMode (s : State) (m : Mode) (j : Nat) : (setMode s m).burn j = s.burn j := rfl

theorem stopHall_mode (s : State) : (stopHall s).ppn.mode = .stopped := by simp [stopHall_eq, setMode]

theorem stopHall_stopInput (s : State) : (stopHall s).ppn.stopInput = s.ppn.stopInput := by simp [stopHall_eq, setMode]

theorem stopHall_notice (s : State) : (stopHall s).notice (noticeCode .hall .hallStopped) = some false := by
  rw [stopHall_eq, notice_stopPermissives]
  exact raised_revokeAll (notice_raise_same ..) _

theorem stopHall_burn_of_no_grant {s : State} {x : Nat} (hx : x < 6) (h : (s.burn x).grant = none) :
    (stopHall s).burn x = s.burn x := by
  rw [stopHall_eq, burn_stopPermissives, burn_revokeAll_of_no_grant hx (by simpa using h), burn_raise, burn_setMode]

theorem stopHall_of_grant {s : State} {x : Nat} {g : Grant} (hx : x < 6) (h : (s.burn x).grant = some g) :
    (stopHall s).burn x = ⟨.idle, none, some (g.ref, .revoked .hallStop), false⟩ ∧
      (stopHall s).grantHeld (zoneOf x g.ref.bed) = false ∧
      (stopHall s).notice (noticeCode (.table x) .grantRevoked) = some false := by
  rw [stopHall_eq, burn_stopPermissives, grantHeld_stopPermissives, notice_stopPermissives]
  exact revokeAll_of_grant hx (by simpa using h) _

theorem stopHall_permissive (s : State) {c : Nat} (hc : c < 3) (d : Dir) :
    (((stopHall s).crane c).permissive d).on = false ∧ .mode ∈ (((stopHall s).crane c).permissive d).conds := by
  rw [stopHall_eq, permissive_stopPermissives _ hc]
  exact ⟨on_stop _, mode_mem_stop _⟩

/-- The blocks that a stop of the hall leaves alone. -/
theorem stopHall_blocks (s : State) : (stopHall s).srg = s.srg ∧ (stopHall s).lmap = s.lmap ∧ (stopHall s).fse = s.fse ∧
    (stopHall s).mkd = s.mkd ∧ (stopHall s).rsu = s.rsu ∧ (stopHall s).mvc = s.mvc ∧ (stopHall s).slc = s.slc := by
  simp [stopHall_eq, setMode]

/-- Settles O57: the hall opens by the pending start checks of the six tables, each of which concerns its own table alone;
it stops by the revocations of the six tables, each of which concerns its own burn records alone. -/
theorem hallIsOpenedAndStopped : Obligations.HallIsOpenedAndStopped := by
  unfold Obligations.HallIsOpenedAndStopped
  refine ⟨fun s => ?opens, fun s => ?stops⟩
  case opens =>
    intro m stop opened t
    refine ⟨fun hm => ⟨openHall_answers_of_cold hm, resumeHall_answers_of_cold hm⟩,
      fun hm => ⟨openHall_answers_of_opened hm, resumeHall_answers_of_opened hm⟩,
      fun hm => ⟨openHall_answers_of_stopped hm, resumeHall_answers_of_asserted hm, resumeHall_answers_of_released hm⟩,
      pendingStartAll_of_no_chain (s := opened), fun x n p hx hc => pendingStartAll_starts_a (s := opened) hx hc,
      fun x n p hx hc => pendingStartAll_starts_b (s := opened) hx hc, fun x hx h => ?_⟩
    have ht := pendingStartAll_stands (s := opened) hx h
    exact ⟨ht.table, ht.zone _ (zoneTable_zoneOf x .a), ht.zone _ (zoneTable_zoneOf x .b)⟩
  case stops =>
    intro input
    exact ⟨exec_hallStopRelease s, exec_hallStop_of_stopped, fun hm => ⟨stopHall (input true),
      exec_hallStop_of_not_stopped hm, stopHall_mode _, stopHall_stopInput _, stopHall_notice _,
      fun x hx => ⟨stopHall_burn_of_no_grant (s := input true) hx, fun g => stopHall_of_grant (s := input true) hx⟩,
      fun c d hc => stopHall_permissive _ hc d, stopHall_blocks (input true)⟩⟩

end Sys2Proof.Machine
end

section
/-! PROOFS. What every command keeps, said once: a property of states that survives each single change a command can make
(a write, an insert in the directory, the end of a grant, the completion of a sample …) survives every command. The
invariants of the part are then instances: each has only to survive the single changes. -/

open Sys2Proof Sys2Proof.Machine

namespace Sys2Proof.Machine

/-- The single changes that commands are made of, each with what holds where a command makes it; `P` survives them all. -/
structure Kept (P : State → Prop) : Prop where
  reply : ∀ {s}, P s → ∀ r, P { s with ppn := { s.ppn with reply := r } }
  stopInput : ∀ {s}, P s → ∀ b, P { s with ppn := { s.ppn with stopInput := b } }
  mask : ∀ {s}, P s → ∀ m, P { s with ppn := { s.ppn with mask := m } }
  notice : ∀ {s}, P s → ∀ n v, P (s.setNotice n v)
  unitRead : ∀ {s}, P s → ∀ u, P (unitRead s u)
  markSeen : ∀ {s}, P s → P (markSeen s)
  fse : ∀ {s}, P s → ∀ f, P { s with fse := f }
  link : ∀ {s}, P s → ∀ l : Slc, l.stations = s.slc.stations → P { s with slc := l }
  station : ∀ {s}, P s → ∀ a (v : Station), (v.binding = (s.station a).binding ∨ ∀ r u, v.binding = some (r, u) → unitOk r u) →
    P (s.setStation a v)
  row : ∀ {s}, P s → ∀ l x y, P { s with lmap := { s.lmap with receiving := l, recvX := x, recvY := y } }
  slot : ∀ {s}, P s → ∀ n v, P (s.setSlot n v)
  bedPieces : ∀ {s}, P s → ∀ z l, P (s.setBed z { s.bed z with pieces := l })
  bed : ∀ {s}, P s → s.ppn.mode = .cold → ∀ z v, P (s.setBed z v)
  hook : ∀ {s}, P s → ∀ c v, P (s.setHook c v)
  table : ∀ {s}, P s → ∀ t v, P (s.setTable t v)
  zone : ∀ {s}, P s → ∀ z v, P (s.setZone z v)
  marks : ∀ {s}, P s → ∀ t v, P (s.setMarks t v)
  monitor : ∀ {s}, P s → ∀ t v, P (s.setMonitor t v)
  torch : ∀ {s}, P s → ∀ n v, P (s.setTorch n v)
  burnTimes : ∀ {s}, P s → ∀ p l, P { s with bsv := { s.bsv with pierceMin := p, burnLimit := l } }
  channel : ∀ {s}, P s → ∀ c v, P (s.setChannel c v)
  axis : ∀ {s}, P s → ∀ k v, P (s.setAxis k v)
  hoist : ∀ {s}, P s → ∀ c v, P (s.setHoist c v)
  queue : ∀ {s}, P s → ∀ c v, P (s.setQueue c v)
  endedMove : ∀ {s}, P s → ∀ c v, P (s.setEndedMove c v)
  nextId : ∀ {s}, P s → ∀ n, P { s with mvc := { s.mvc with nextId := n } }
  /-- A live piece is amended; its key stands. -/
  piece : ∀ {s}, P s → ∀ h p (q : Piece), s.piece? h = some p → q.key = p.key → P (s.setRecord h.index ⟨h.gen, some q⟩)
  counters : ∀ {s}, P s → ∀ r c, P { s with srg := { s.srg with remnant := r, creation := c } }
  /-- A piece becomes live in a free record, with its key inserted (R14). -/
  birth : ∀ {s}, P s → ∀ i (p : Piece) g, (s.record i).live = none → dirInsert s.srg p.key ⟨i, (s.record i).gen⟩ = .ok g →
    P (({ s with srg := g } : State).setRecord i ⟨(s.record i).gen, some p⟩)
  /-- A live piece is retired: its key deleted, its record free (R4). -/
  death : ∀ {s}, P s → ∀ h p, s.piece? h = some p →
    P (({ s with srg := dirDelete s.srg p.key } : State).setRecord h.index ⟨(h.gen + 1) % 256, none⟩)
  /-- A grant ends (R97). -/
  grantEnds : ∀ {s}, P s → ∀ t g e, (s.burn t).grant = some g →
    P ((s.setBurn t ⟨.idle, none, some (g.ref, e), false⟩).setGrantHeld (g.ref.zone t) false)
  /-- A grant is made for a table that has a BURN station, in the OPEN hall (R97, R99). -/
  grantMade : ∀ {s}, P s → ∀ t (g : Grant), s.ppn.mode = .opened → (∃ a, (s.station a).binding = some (.burn, t)) →
    (s.burn t).state ≠ .granted →
    P (evaluateGrant ((s.setBurn t ⟨.granted, some g, none, true⟩).setGrantHeld (g.ref.zone t) true))
  grantTime : ∀ {s}, P s → ∀ t g n, (s.burn t).grant = some g →
    P (s.setBurn t { s.burn t with grant := some { g with arcTime := n } })
  /-- A table without a grant, or in FAULT, becomes IDLE or FAULT. -/
  burnState : ∀ {s}, P s → ∀ t x, x ≠ .granted → (s.burn t).grant = none ∨ (s.burn t).state = .fault →
    P (s.setBurn t { s.burn t with state := x })
  orderFault : ∀ {s}, P s → ∀ c, P (s.setPair c { s.pair c with orderFault := false })
  craneFigures : ∀ {s}, P s → ∀ c k w e, P (s.setCrane c { s.crane c with capacity := k, west := w, east := e })
  runwayNext : ∀ {s}, P s → ∀ r, P { s with clu := { s.clu with runwayNext := r } }
  /-- A sample starts to collect (R131). -/
  collect : ∀ {s}, P s → ∀ cl : Collecting, bankWf (fun _ => ReadOutcome.failed .disabled) cl.reads = true →
    bankWf (fun _ => Latch.reset) cl.latches = true → P { s with rsu := { s.rsu with collecting := some cl } }
  collectRead : ∀ {s}, P s → ∀ cl c o, s.rsu.collecting = some cl →
    P { s with rsu := { s.rsu with
      collecting := some { cl with reads := bankSet (fun _ => .failed .disabled) cl.reads c o } } }
  missTick : ∀ {s}, P s → ∀ cl n m, s.rsu.collecting = some cl →
    P { s with rsu := { s.rsu with missedTicks := n, collecting := some { cl with missed := m } } }
  /-- A sample completes, with all that follows in its step (R142). -/
  complete : ∀ {s}, P s → ∀ cl, s.rsu.collecting = some cl → P (completeSample s cl)
  openMode : ∀ {s}, P s → s.ppn.mode ≠ .opened → P (setMode s .opened)
  stopHall : ∀ {s}, P s → P (stopHall s)
  clear : ∀ {s}, P s → s.ppn.mode = .cold → P (clearRegistry s)
  reset : ∀ {s}, P s → P { State.reset with pending := s.pending }

/-- Records written one after the other into a canonical bank leave it canonical. -/
theorem bankWf_foldl_bankSet {α : Type} [DecidableEq α] (reset : Nat → α) (f : Nat → α) (l : List Nat) {m : Bank α}
    (h : bankWf reset m = true) : bankWf reset (l.foldl (fun m c => bankSet reset m c (f c)) m) = true := by
  induction l generalizing m with
  | nil => exact h
  | cons c l ih => exact ih (bankWf_bankSet reset c (f c) h)

theorem bankWf_latchHoists (s : State) : bankWf (fun _ => Latch.reset) (latchHoists s) = true :=
  bankWf_foldl_bankSet (fun _ => Latch.reset) (fun c => (⟨(s.hoist c).count, (s.hoist c).homed⟩ : Latch)) (List.range 3)
    (bankWf_nil _)

namespace Kept

variable {P : State → Prop} (K : Kept P) {s : State}

/-! ## Shared operations -/

include K

theorem raise (h : P s) (u : NoticeUnit) (k : NoticeKind) : P (raise s u k) := K.notice h _ _

theorem sendReply (h : P s) (a : Nat) (r : Reply) : P (sendReply s a r) := K.link h _ rfl

omit K in
/-- A fold of steps that keep `P` keeps it. -/
theorem foldl {α : Type} {f : State → α → State} (hf : ∀ t a, P t → P (f t a)) (l : List α) (h : P s) :
    P (l.foldl f s) := by
  induction l generalizing s with
  | nil => exact h
  | cons a l ih => exact ih (hf _ _ h)

theorem receiving (h : P s) (l : List Handle) : P { s with lmap := { s.lmap with receiving := l } } :=
  K.row h l s.lmap.recvX s.lmap.recvY

theorem modPiece (h : P s) (x : Handle) {f : Piece → Piece} (hf : ∀ p, (f p).key = p.key) : P (s.modPiece x f) := by
  cases e : s.piece? x with
  | none => simpa [State.modPiece, e] using h
  | some p => rw [modPiece_eq f e]; exact K.piece h x p _ e (hf p)

theorem joinPlace (h : P s) (pl : Place) (x : Handle) (t : Nat) : P (joinPlace s pl x t) := by
  cases pl
  case receiving => exact K.receiving h _
  case slot n => exact K.slot h _ _
  case zone z => exact K.bedPieces h _ _
  case hook c => exact K.hook h _ _

theorem leavePlace (h : P s) (pl : Place) (x : Handle) (t : Nat) : P (leavePlace s pl x t) := by
  cases pl
  case receiving => exact K.receiving h _
  case slot n => exact K.slot h _ _
  case zone z => exact K.bedPieces h _ _
  case hook c => exact K.hook h _ _

theorem createAt (h : P s) {i : Nat} (hi : (s.record i).live = none) {p : Piece} {x : Handle} {t : State}
    (e : createAt s i p = .ok (x, t)) : P t := by
  unfold Sys2Proof.Machine.createAt at e; dsimp only at e
  split at e
  · cases e
  · next g hg => injection e with e; injection e with _ e; subst e; exact K.joinPlace (K.birth h i p g hi hg) _ _ _

theorem createKeyed (h : P s) {p : Piece} {x : Handle} {t : State} (e : createKeyed s p = .ok (x, t)) : P t := by
  unfold Sys2Proof.Machine.createKeyed at e
  split at e
  · cases e
  · split at e
    · cases e
    · next i hi => exact K.createAt h (freeRecord_some_live hi).2 e

theorem createRemnant (h : P s) (heat : List Nat) (p : Piece) : P (createRemnant s heat p).2 := by
  unfold Sys2Proof.Machine.createRemnant
  split
  · exact h
  · next i hi =>
    split
    · exact h
    · dsimp only; split
      · exact K.counters h _ s.srg.creation
      · next e => exact K.counters (K.createAt h (freeRecord_some_live hi).2 e) _ _

theorem createRemnants (h : P s) (p : Piece) (z : Nat) (ds : List Decl) : P (createRemnants s p z ds).1 := by
  induction ds generalizing s with
  | nil => exact h
  | cons d ds ih =>
    have c := K.createRemnant h p.key.heat (remnantOf p d.arg z)
    unfold Sys2Proof.Machine.createRemnants
    split
    · next e => rw [e] at c; exact ih c
    · next e => rw [e] at c; exact ih (K.raise c _ _)

theorem retire (h : P s) (x : Handle) : P (retire s x) := by
  unfold Sys2Proof.Machine.retire
  split
  · exact h
  · next p hp => exact K.death (K.leavePlace h p.place x p.thickness) x p (by simpa using hp)

theorem setNest (h : P s) (z : Nat) (n : Option Nest) : P (setNest s z n) := K.zone h _ _

theorem modPart (h : P s) (z i : Nat) (f : Part → Part) : P (modPart s z i f) := K.zone h _ _

theorem withdrawMark (h : P s) (t : Nat) : P (withdrawMark s t) := by
  unfold Sys2Proof.Machine.withdrawMark; split
  · exact h
  · exact K.marks (K.modPart h _ _ _) _ _

theorem skipOne (h : P s) (z i : Nat) : P (skipOne s z i) := by
  unfold Sys2Proof.Machine.skipOne; dsimp only; split
  · exact h
  · split
    · split
      · exact K.withdrawMark (K.modPart h _ _ _) _
      · exact K.modPart h _ _ _
    · exact h

theorem activate (h : P s) (z : Nat) : P (activate s z) := by
  unfold Sys2Proof.Machine.activate; split
  · exact h
  · refine K.table (K.modPiece (K.zone h _ _) _ ?_) _ _
    exact fun _ => rfl

theorem switchTo (h : P s) (z : Nat) : P (switchTo s z) := K.raise (K.table (K.activate h z) _ _) _ _

theorem pendingStart (h : P s) (t : Nat) : P (pendingStart s t) := by
  obtain e | ⟨z, -, -, e⟩ := pendingStart_cases s t
  · rw [e]; exact h
  · rw [e]; exact K.switchTo h z

theorem chainStep (h : P s) (z : Nat) : P (chainStep s z) := by
  unfold Sys2Proof.Machine.chainStep; split
  · exact K.switchTo h _
  · exact h

theorem closeNest (h : P s) (z : Nat) : P (closeNest s z) := by
  unfold Sys2Proof.Machine.closeNest
  split
  · exact h
  · split
    · exact h
    · exact K.chainStep (K.raise (K.table (K.zone (K.createRemnants (K.retire h _) _ _ _) _ _) _ _) _ _) _

theorem closeIfFinal (h : P s) (z : Nat) : P (closeIfFinal s z) := by
  unfold Sys2Proof.Machine.closeIfFinal
  split
  · exact h
  · split
    · exact K.closeNest h z
    · exact h

theorem monitorTold (h : P s) (t : Nat) : P (monitorTold s t) := by
  unfold Sys2Proof.Machine.monitorTold; dsimp only; split
  · exact h
  · exact K.monitor h _ _

theorem endGrant (h : P s) {t : Nat} {g : Grant} (hg : (s.burn t).grant = some g) (e : GrantEnd) : P (endGrant s t g e) :=
  K.monitorTold (K.grantEnds h t g e hg) t

theorem revoke (h : P s) (t : Nat) (c : Cause) : P (revoke s t c) := by
  unfold Sys2Proof.Machine.revoke
  split
  · exact h
  · next g hg =>
    have r := K.raise (K.endGrant (K.modPart h (g.ref.zone t) g.ref.part fun p => { p with burn := .interrupted }) hg
      (.revoked c)) (.table t) .grantRevoked
    cases c
    case torchFault => exact K.raise r _ _
    case overtime => exact K.raise r _ _
    all_goals exact r

theorem modMounted (h : P s) (t : Nat) (f : Torch → Torch) : P (modMounted s t f) := by
  unfold Sys2Proof.Machine.modMounted; split
  · exact K.torch h _ _
  · exact h

theorem addArcUnits (h : P s) (t n : Nat) : P (addArcUnits s t n) := by
  have m := K.modMounted h t fun v => { v with arcTime := min Config.max32 (v.arcTime + n) }
  unfold Sys2Proof.Machine.addArcUnits; dsimp only; split
  · exact m
  · next g hg => exact K.grantTime (K.modPart m (g.ref.zone t) g.ref.part _) t g _ hg

theorem failedPierce (h : P s) (t : Nat) (g : Grant) : P (failedPierce s t g) := by
  have m := K.modMounted (K.modPart h (g.ref.zone t) g.ref.part fun p => { p with failedPierces := satInc 3 p.failedPierces })
    t fun v => { v with failed := satInc 3 v.failed }
  unfold Sys2Proof.Machine.failedPierce; dsimp only; split
  · exact K.revoke (K.raise (K.modMounted m _ _) _ _) _ _
  · exact m

theorem wearCheck (h : P s) (t : Nat) : P (wearCheck s t) := by
  unfold Sys2Proof.Machine.wearCheck; split
  · exact h
  · dsimp only; split
    · exact K.raise (K.torch h _ _) _ _
    · exact h

theorem completeIfDone (h : P s) : P (completeIfDone s) := by
  unfold Sys2Proof.Machine.completeIfDone; split
  · exact h
  · next cl hc =>
    split
    · exact K.complete h cl hc
    · exact h

theorem endRead (h : P s) (c : Nat) (o : ReadOutcome) : P (endRead s c o) := by
  have w := K.channel h c { s.channel c with flight := none }
  unfold Sys2Proof.Machine.endRead; dsimp only; split
  · exact w
  · next cl hc => exact K.completeIfDone (K.collectRead w cl c o hc)

theorem startRead (h : P s) (lines : BitVec 6) (c : Nat) : P (startRead lines s c).1 := by
  unfold Sys2Proof.Machine.startRead; dsimp only; split
  · exact h
  · exact K.channel h _ _
  · split
    · exact h
    · exact K.channel h _ _

/-- The reads of a sample are started, and the outcomes written form a canonical bank. -/
theorem startReads (lines : BitVec 6) (cs : List Nat) (h : P s) {m : Bank ReadOutcome}
    (hm : bankWf (fun _ => ReadOutcome.failed .disabled) m = true) :
    P (startReads lines cs s m).1 ∧ bankWf (fun _ => ReadOutcome.failed .disabled) (startReads lines cs s m).2 = true := by
  induction cs generalizing s m with
  | nil => exact ⟨h, hm⟩
  | cons c cs ih => exact ih (K.startRead h lines c) (bankWf_bankSet _ _ _ hm)


theorem startSample (h : P s) (lines : BitVec 6) : P (startSample s lines) := by
  have hr := K.startReads lines (List.range 6) h (bankWf_nil _)
  unfold Sys2Proof.Machine.startSample
  generalize Sys2Proof.Machine.startReads lines (List.range 6) s [] = r at hr ⊢
  exact K.completeIfDone (K.collect hr.1 ⟨r.2, latchHoists r.1, 0⟩ hr.2 (bankWf_latchHoists r.1))

theorem applyWaiting (h : P s) : P (applyWaiting s) := by
  unfold Sys2Proof.Machine.applyWaiting; split
  · exact h
  · exact K.link h _ rfl

theorem endTurn (h : P s) : P (endTurn s) := K.applyWaiting (K.link h _ rfl)

theorem answering (h : P s) (a : Nat) : P (answering s a) := by
  have w := K.station h a { s.station a with state := .online, misses := 0 } (.inl rfl)
  unfold Sys2Proof.Machine.answering; dsimp only; split
  · exact K.raise w _ _
  · exact w

theorem pendingStartAll (h : P s) : P (pendingStartAll s) := by
  unfold Sys2Proof.Machine.pendingStartAll
  apply Kept.foldl
  · exact fun _ t k => K.pendingStart k t
  · exact h

theorem openHall (h : P s) (hm : s.ppn.mode ≠ .opened) : P (openHall s) := K.pendingStartAll (K.openMode h hm)

theorem reserveDest (h : P s) (id t : Nat) (d : Dest) : P (reserveDest s id t d) := by
  cases d
  case slot n => exact K.slot h _ _
  case zone z => exact K.zone h _ _

theorem releaseDest (h : P s) (t : Nat) (d : Option Dest) : P (releaseDest s t d) := by
  unfold Sys2Proof.Machine.releaseDest; split
  · exact K.slot h _ _
  · exact K.zone h _ _
  · exact h

theorem lockSource (h : P s) (pl : Place) : P (lockSource s pl) := by
  unfold Sys2Proof.Machine.lockSource; split
  · exact K.slot h _ _
  · exact h

theorem unlockSource (h : P s) (pl : Place) : P (unlockSource s pl) := by
  unfold Sys2Proof.Machine.unlockSource; split
  · exact K.slot h _ _
  · exact h

theorem raiseUnverified (h : P s) (c : Nat) (k : PosCheck) : P (raiseUnverified s c k) := by
  unfold Sys2Proof.Machine.raiseUnverified; split
  · exact K.raise h _ _
  · exact h

end Kept

end Sys2Proof.Machine
end

section
/-! PROOFS. Every command keeps what the single changes keep: command by command, in the order of the chapters. -/

open Sys2Proof Sys2Proof.Machine

namespace Sys2Proof.Machine

/-- The outcome is a next state with the property. -/
def Goes (P : State → Prop) (o : Host.Outcome State Fault Refusal) : Prop := ∃ t, o = .next t ∧ P t

theorem Goes.next {P : State → Prop} {t : State} (h : P t) : Goes P (.next t) := ⟨t, rfl, h⟩

/-- A station that answers keeps its binding (R176). -/
@[simp] theorem binding_answering (s : State) (a b : Nat) :
    ((answering s a).station b).binding = (s.station b).binding := by
  unfold answering; dsimp only
  by_cases hb : b = a
  · split <;> simp [hb]
  · split <;> simp [hb]

/-- The pieces that handles name are read from the registry alone. -/
theorem piece?_of_srg {s t : State} (e : t.srg = s.srg) (x : Handle) : t.piece? x = s.piece? x := by
  unfold State.piece? State.record
  rw [e]

@[simp] theorem srg_phaseAfterPick (s : State) (pl : Place) : (phaseAfterPick s pl).srg = s.srg := by
  unfold phaseAfterPick; split
  · split <;> rfl
  · rfl

namespace Kept

variable {P : State → Prop} (K : Kept P) {s : State}

include K

/-! ## Envelopes -/

theorem host (k : ReqKind) {a : Ans} (h : P a.st) : Goes P (hostAnswer k a) := .next (K.reply h _)

/-- A station request keeps `P` where its body does so for a station whose role may send it and whose unit it names. -/
theorem stationOf (h : P s) (k : ReqKind) (unit : Option Nat) {body : State → Ans}
    (hb : ∀ t a r u, P t → (t.station a).binding = some (r, u) → roleAllows r k = true → unit.any (· ≠ u) = false →
      P (body t).st) : Goes P (stationRequest k unit body s) := by
  unfold stationRequest
  split
  · exact .next h
  · next a ha =>
    split
    · exact .next (K.endTurn h)
    · next r u hr =>
      have w := K.answering h a
      dsimp only
      split
      · exact .next (K.sendReply w _ _)
      · next hrole =>
        split
        · exact .next (K.sendReply w _ _)
        · next hu =>
          exact .next (K.sendReply (hb _ a r u w (by simp [hr]) (by simpa using hrole) (by simpa using hu)) _ _)

theorem stationReq (h : P s) (k : ReqKind) (unit : Option Nat) {body : State → Ans} (hb : ∀ t, P t → P (body t).st) :
    Goes P (stationRequest k unit body s) := K.stationOf h k unit fun t _ _ _ w _ _ _ => hb t w

theorem shared (h : P s) (x : Sender) (k : ReqKind) {body : State → Ans} (hb : ∀ t, P t → P (body t).st) :
    Goes P (sharedRequest x k body s) := by
  cases x
  case host => exact K.host k (hb s h)
  case station => exact K.stationReq h k none hb

/-! ## The registry (chapter 1) -/

theorem enrolPlateAns (h : P s) (key : Key) (grade thickness len wid : Nat) :
    P (enrolPlateAns key grade thickness len wid s).st := by
  unfold Sys2Proof.Machine.enrolPlateAns; dsimp only
  split
  · exact h
  · split
    · exact h
    · split
      · exact h
      · split
        · exact h
        · next e => exact K.counters (K.createKeyed h e) _ _

theorem enrolRemnantAns (h : P s) (zone : ZoneArg) (heat : List Nat) (grade thickness : Nat) (d : DeclArg) :
    P (enrolRemnantAns zone heat grade thickness d s).st := by
  unfold Sys2Proof.Machine.enrolRemnantAns
  split
  · exact h
  · split
    · exact h
    · next z hz =>
      have c := K.createRemnant h heat (newRemnant heat grade thickness d z)
      split
      · exact h
      · split
        · exact h
        · split
          · exact h
          · split
            · next e => rw [e] at c; exact c
            · next e => rw [e] at c; exact c

theorem restoreEffect (h : P s) (x : Handle) (pl : Place) : P (restoreEffect s x pl) := by
  unfold Sys2Proof.Machine.restoreEffect
  split
  · exact K.zone h _ _
  · dsimp only; refine K.modPiece (K.nextId (K.queue h _ _) _) _ ?_; exact fun _ => rfl
  · exact h

theorem creationFollows (h : P s) (c : Nat) : P (creationFollows s c) := by
  unfold Sys2Proof.Machine.creationFollows; split
  · exact K.counters h s.srg.remnant _
  · exact h

theorem restorePieceAns (h : P s) (a : RestoreArg) : P (restorePieceAns a s).st := by
  unfold Sys2Proof.Machine.restorePieceAns
  split
  · exact h
  · split
    · exact h
    · split
      · exact h
      · split
        · exact h
        · split
          · exact h
          · next e => exact K.restoreEffect (K.creationFollows (K.createKeyed h e) _) _ _

theorem retirePieceAns (h : P s) (x : Handle) : P (retirePieceAns x s).st := by
  unfold Sys2Proof.Machine.retirePieceAns
  split
  · exact h
  · split
    · exact h
    · split
      · exact h
      · split
        · exact h
        · split
          · exact h
          · exact K.retire h x

omit K in
theorem lookupKeyAns (h : P s) (k : Key) : P (lookupKeyAns k s).st := by
  unfold Sys2Proof.Machine.lookupKeyAns
  split
  · exact h
  · split
    · exact h
    · split <;> exact h

omit K in
theorem readPieceAns (h : P s) (x : Handle) : P (readPieceAns x s).st := by
  unfold Sys2Proof.Machine.readPieceAns; split <;> exact h

/-- A piece that a handle names is amended, its key as it was. -/
theorem amendPiece (h : P s) {x : Handle} {p : Piece} (e : checkHandle s x = .ok p) (q : Piece) (hq : q.key = p.key) :
    P (amendPiece s x q).st := K.piece h x p q (piece?_names (checkHandle_ok.1 e)) hq

theorem setHoldAns (h : P s) (x : Handle) : P (setHoldAns x s).st := by
  unfold Sys2Proof.Machine.setHoldAns; split
  · exact h
  · next e => exact K.amendPiece h e _ rfl

theorem releaseHoldAns (h : P s) (x : Handle) : P (releaseHoldAns x s).st := by
  unfold Sys2Proof.Machine.releaseHoldAns; split
  · exact h
  · next e => exact K.amendPiece h e _ rfl

theorem reservePieceAns (h : P s) (x : Handle) (tag : Nat) : P (reservePieceAns x tag s).st := by
  unfold Sys2Proof.Machine.reservePieceAns; split
  · exact h
  · next e =>
    split
    · exact h
    · split
      · split <;> exact h
      · split
        · exact h
        · split
          · exact h
          · exact K.amendPiece h e _ rfl

theorem unreservePieceAns (h : P s) (x : Handle) (tag : Nat) : P (unreservePieceAns x tag s).st := by
  unfold Sys2Proof.Machine.unreservePieceAns; split
  · exact h
  · next e =>
    split
    · exact K.amendPiece h e _ rfl
    · exact h

/-! ## Locations (chapter 2) -/

theorem setSlotAns (h : P s) (a : SlotArg) (x y : Nat) (e : Bool) : P (setSlotAns a x y e s).st := by
  unfold Sys2Proof.Machine.setSlotAns; split
  · exact h
  · split
    · exact h
    · split
      · exact h
      · exact K.slot h _ _

theorem setZoneAns (h : P s) (z : ZoneArg) (x y x0 x1 y0 y1 : Nat) : P (setZoneAns z x y x0 x1 y0 y1 s).st := by
  unfold Sys2Proof.Machine.setZoneAns; split
  · exact h
  · next hm =>
    split
    · exact h
    · split
      · exact h
      · exact K.bed h (by simpa using hm) _ _

theorem setReceivingAns (h : P s) (x y : Nat) : P (setReceivingAns x y s).st := by
  unfold Sys2Proof.Machine.setReceivingAns; split
  · exact h
  · split
    · exact h
    · exact K.row h s.lmap.receiving x y

omit K in
theorem readSlotAns (h : P s) (a : SlotArg) : P (readSlotAns a s).st := by
  unfold Sys2Proof.Machine.readSlotAns; split <;> exact h

/-! ## The search engine (chapter 3) -/

theorem searchAns (h : P s) (a : FitArg) (tag : Option Nat) : P (searchAns a tag s).st := by
  unfold Sys2Proof.Machine.searchAns; split
  · exact h
  · split
    · exact h
    · exact K.fse h _

theorem readSearchAns (h : P s) : P (readSearchAns s).st := K.unitRead (K.fse h _) _

theorem walkStep (h : P s) : Goes P (execWalkStep s) := by
  unfold execWalkStep; split
  · split
    · exact .next (K.fse h _)
    · exact .next h
  · exact .next h

theorem completeSearch (h : P s) (q : SearchRequest) : P (completeSearch s q) := by
  refine K.raise (K.fse ?_ _) _ _
  unfold reserveFirst; split
  · refine K.modPiece h _ ?_; exact fun _ => rfl
  · exact h

theorem searchCompletion (h : P s) : Goes P (execSearchCompletion s) := by
  unfold execSearchCompletion; split
  · split
    · exact .next (K.completeSearch h _)
    · exact .next h
  · exact .next h

/-! ## Tables, zones and nests (chapter 4) -/

theorem stageNestAns (h : P s) (z : ZoneArg) (id : Nat) (x : Handle) (parts : List PartArg) (decls : List DeclArg) :
    P (stageNestAns z id x parts decls s).st := by
  unfold Sys2Proof.Machine.stageNestAns; split
  · exact h
  · split
    · exact h
    · split
      · exact h
      · split
        · exact h
        · refine K.pendingStart (K.modPiece (K.setNest h _ _) _ ?_) _; exact fun _ => rfl

theorem withdrawNestAns (h : P s) (z : ZoneArg) (id : Nat) : P (withdrawNestAns z id s).st := by
  unfold Sys2Proof.Machine.withdrawNestAns; split
  · exact h
  · split
    · exact h
    · refine K.table (K.modPiece (K.setNest h _ _) _ ?_) _ _; exact fun _ => rfl

theorem declareRemnantAns (h : P s) (z : ZoneArg) (id i : Nat) (d : Option DeclArg) :
    P (declareRemnantAns z id i d s).st := by
  unfold Sys2Proof.Machine.declareRemnantAns; split
  · exact h
  · split
    · exact h
    · split
      · exact h
      · split
        · exact h
        · split
          · exact h
          · exact K.setNest h _ _

theorem startNestAns (h : P s) (z : ZoneArg) (id : Nat) : P (startNestAns z id s).st := by
  unfold Sys2Proof.Machine.startNestAns; split
  · exact h
  · split
    · exact h
    · split
      · exact h
      · split
        · exact h
        · split
          · exact h
          · exact K.activate h _

theorem skipPartAns (h : P s) (z : ZoneArg) (id i : Nat) : P (skipPartAns z id i s).st := by
  unfold Sys2Proof.Machine.skipPartAns; split
  · exact h
  · split
    · exact h
    · split
      · exact h
      · split
        · exact h
        · exact h
        · exact h
        · exact K.closeIfFinal (K.skipOne h _ _) _
        · exact K.closeIfFinal (K.skipOne h _ _) _

theorem skipAll (h : P s) (z n : Nat) : P (skipAll s z n) := by
  apply Kept.foldl
  · exact fun _ i k => K.skipOne k z i
  · exact h

theorem closeNestAns (h : P s) (z : ZoneArg) (id : Nat) : P (closeNestAns z id s).st := by
  unfold Sys2Proof.Machine.closeNestAns; split
  · exact h
  · split
    · exact h
    · split
      · exact h
      · exact K.closeNest (K.skipAll h _ _) _

theorem setChainAns (h : P s) (t : Nat) (on : Bool) : P (setChainAns t on s).st := by
  unfold Sys2Proof.Machine.setChainAns; split
  · exact h
  · cases on
    · exact K.table h _ _
    · exact K.pendingStart (K.table h _ _) _

theorem zoneClearedAns (h : P s) (z : ZoneArg) : P (zoneClearedAns z s).st := by
  unfold Sys2Proof.Machine.zoneClearedAns; split
  · exact h
  · split
    · exact h
    · split
      · split
        · exact K.zone h _ _
        · exact h
      · exact h
      · exact h

theorem readTableAns (h : P s) (t : Nat) : P (readTableAns t s).st := by
  unfold Sys2Proof.Machine.readTableAns; split
  · exact h
  · exact K.unitRead h _

omit K in
theorem readZoneAns (h : P s) (z : ZoneArg) : P (readZoneAns z s).st := by
  unfold Sys2Proof.Machine.readZoneAns; split <;> exact h

/-! ## Marking (chapter 5) -/

theorem chooseMark (h : P s) (t : Nat) (bed : Bed) : P (chooseMark s t bed).st := by
  unfold Sys2Proof.Machine.chooseMark; split
  · exact h
  · split
    · exact h
    · exact K.marks (K.modPart h _ _ _) _ _

theorem nextMarkAns (h : P s) (t : Nat) : P (nextMarkAns t s).st := by
  unfold Sys2Proof.Machine.nextMarkAns; split
  · exact h
  · exact h
  · split
    · exact h
    · split
      · exact h
      · exact K.chooseMark h _ _

theorem takeMarkDone (h : P s) (z : Nat) (r : PartRef) : P (takeMarkDone s z r) := K.marks (K.modPart h _ _ _) _ _

theorem takeMarkFailed (h : P s) (z : Nat) (r : PartRef) : P (takeMarkFailed s z r) := by
  have w := fun f v => K.marks (K.modPart h z r.part f) (zoneTable z) v
  unfold Sys2Proof.Machine.takeMarkFailed; dsimp only; split
  · exact K.raise (w _ _) _ _
  · exact w _ _

theorem markReportAns (h : P s) (z : ZoneArg) (id i : Nat) (ending : IssueEnd) {take : State → Nat → PartRef → State}
    (ht : ∀ k r, P (take s k r)) : P (markReportAns z id i ending take s).st := by
  unfold Sys2Proof.Machine.markReportAns; split
  · exact h
  · split
    · exact h
    · split
      · exact h
      · dsimp only; split
        · exact ht _ _
        · split
          · split <;> exact h
          · split
            · split <;> exact h
            · split
              · exact h
              · split
                · exact K.marks h _ _
                · exact h

theorem waiveMarkAns (h : P s) (z : ZoneArg) (id i : Nat) : P (waiveMarkAns z id i s).st := by
  unfold Sys2Proof.Machine.waiveMarkAns; split
  · exact h
  · split
    · exact h
    · split
      · exact h
      · split
        · exact h
        · exact K.modPart h _ _ _
        · exact K.modPart h _ _ _
        · exact h

/-! ## Burning (chapter 6) -/

/-- A grant is made where the hall is OPEN, the table has a BURN station and holds no grant. -/
theorem makeGrant (h : P s) (t : Nat) (r : PartRef) (resumed : Bool) (hm : s.ppn.mode = .opened)
    (hb : ∃ a, (s.station a).binding = some (.burn, t)) (hs : (s.burn t).state ≠ .granted) :
    P (makeGrant s t r resumed) :=
  K.grantMade (K.modPart h (r.zone t) r.part fun p => { p with burn := .burning, failedPierces := 0 }) t
    ⟨r, 0, s.bsv.pierceMin, s.bsv.burnLimit, resumed⟩ hm hb hs

theorem chooseBurn (h : P s) (t : Nat) (bed : Bed) (hm : s.ppn.mode = .opened)
    (hb : ∃ a, (s.station a).binding = some (.burn, t)) (hs : (s.burn t).state ≠ .granted) :
    P (chooseBurn s t bed).st := by
  unfold Sys2Proof.Machine.chooseBurn; split
  · exact h
  · split
    · exact K.makeGrant h t _ true hm hb hs
    · split
      · exact h
      · split
        · exact h
        · split
          · exact K.makeGrant h t _ false hm hb hs
          · exact h

theorem nextBurnAns (h : P s) (t : Nat) (hb : ∃ a, (s.station a).binding = some (.burn, t)) : P (nextBurnAns t s).st := by
  unfold Sys2Proof.Machine.nextBurnAns; split
  · exact h
  · split
    · exact h
    · next hcold hstop =>
      have hm : s.ppn.mode = .opened := by cases e : s.ppn.mode <;> simp_all
      split
      · exact h
      · next hs =>
        split
        · exact h
        · split
          · exact h
          · split
            · exact h
            · unfold nextBurnActive; split
              · exact h
              · exact h
              · exact h
              · split
                · exact h
                · exact K.chooseBurn h t _ hm hb hs

theorem nextBurn (h : P s) (t : Nat) : Goes P (execNextBurn t s) := by
  refine K.stationOf h .nextBurn (some t) fun s a r u w hr hrole hu => K.nextBurnAns w t ⟨a, ?_⟩
  have hburn : r = .burn := by simpa [roleAllows] using hrole
  have hunit : t = u := by simpa using hu
  rw [hr, hburn, hunit]

theorem takeBurnDone (h : P s) {z : Nat} {g : Grant} (hg : (s.burn (zoneTable z)).grant = some g) :
    P (takeBurnDone s z g) :=
  K.closeIfFinal (K.endGrant (K.modPart h z g.ref.part fun p => { p with burn := .burnt }) hg .done) z

theorem takeBurnAbandon (h : P s) {z : Nat} {g : Grant} (hg : (s.burn (zoneTable z)).grant = some g) :
    P (takeBurnAbandon s z g) :=
  K.endGrant (K.modPart h z g.ref.part fun p => { p with burn := .interrupted }) hg .abandoned

omit K in
theorem burnReportAns (h : P s) (z : ZoneArg) (id i : Nat) (done : Bool) {take : State → Nat → Grant → State}
    (ht : ∀ k g, (s.burn (zoneTable k)).grant = some g → P (take s k g)) :
    P (burnReportAns z id i done take s).st := by
  unfold Sys2Proof.Machine.burnReportAns; split
  · exact h
  · split
    · exact h
    · split
      · exact h
      · dsimp only; split
        · next hg => exact ht _ _ (Option.filter_eq_some_iff.1 hg).1
        · split <;> exact h

theorem arcOnEdge (h : P s) (t : Nat) : Goes P (execArcOnEdge t s) := by
  unfold execArcOnEdge; split
  · exact .next h
  · split
    · exact .next (K.monitor (K.modPart (K.modMounted h _ _) _ _ _) _ _)
    · next hg => exact .next (K.raise (K.monitor (K.burnState h t .fault nofun (.inl hg)) _ _) _ _)

theorem arcOff (h : P s) (t onMs : Nat) : P (arcOff s t onMs) := by
  have w := K.monitor (K.addArcUnits h t (unitsDue (s.monitor t) onMs)) t ⟨.off, false, ((s.monitor t).carry + onMs) % 100, 0⟩
  unfold Sys2Proof.Machine.arcOff
  refine K.wearCheck ?_ _
  split
  · split
    · exact K.failedPierce w _ _
    · exact w
  · exact w

theorem arcOffEdge (h : P s) (t onMs : Nat) : Goes P (execArcOffEdge t onMs s) := by
  unfold execArcOffEdge; split
  · exact .next h
  · exact .next (K.arcOff h t onMs)

theorem pierceTimeReached (h : P s) (t : Nat) : Goes P (execPierceTimeReached t s) := by
  unfold execPierceTimeReached; split
  · exact .next h
  · exact .next (K.modMounted (K.monitor h _ _) _ _)

theorem arcTimeUnit (h : P s) (t : Nat) : Goes P (execArcTimeUnit t s) := by
  unfold execArcTimeUnit; split
  · exact .next h
  · exact .next (K.monitor (K.addArcUnits h _ _) _ _)

theorem burnOvertime (h : P s) (t : Nat) : Goes P (execBurnOvertime t s) := by
  unfold execBurnOvertime; split
  · exact .next h
  · exact .next (K.revoke h _ _)

theorem stuckArcTimerExpiry (h : P s) (t : Nat) : Goes P (execStuckArcTimerExpiry t s) := by
  unfold execStuckArcTimerExpiry; split
  · exact .next h
  · next hg =>
    have hn : (s.burn t).grant = none := by simp at hg; exact hg.2
    exact .next (K.raise (K.monitor (K.burnState h t .fault nofun (.inl hn)) _ _) _ _)

theorem clearTableFaultAns (h : P s) (t : Nat) : P (clearTableFaultAns t s).st := by
  unfold Sys2Proof.Machine.clearTableFaultAns; split
  · exact h
  · split
    · exact h
    · dsimp only [okWith]; split
      · next hf => exact K.burnState h t .idle nofun (.inr hf)
      · exact h

theorem mountTorchAns (h : P s) (t id : Nat) : P (mountTorchAns t id s).st := by
  unfold Sys2Proof.Machine.mountTorchAns; split
  · exact h
  · split
    · exact h
    · split
      · exact h
      · split
        · exact h
        · split
          · exact h
          · split
            · exact h
            · split
              · exact h
              · exact K.monitor (K.torch h _ _) _ _

theorem unmountTorchAns (h : P s) (t : Nat) : P (unmountTorchAns t s).st := by
  unfold Sys2Proof.Machine.unmountTorchAns; split
  · exact h
  · split
    · exact h
    · split
      · exact h
      · split
        · exact h
        · exact K.torch h _ _

theorem setTorchCheck (h : P s) (n : Nat) : P (setTorchCheck s n) := by
  have w := K.torch h n { s.torch n with state := .worn }
  unfold Sys2Proof.Machine.setTorchCheck; dsimp only; split_ifs
  · split
    · exact K.raise w _ _
    · exact w
  · exact h

theorem setTorchAns (h : P s) (a : TorchArg) : P (setTorchAns a s).st := by
  unfold Sys2Proof.Machine.setTorchAns; split
  · exact h
  · split
    · exact h
    · split
      · exact h
      · exact K.setTorchCheck (K.torch h _ _) _

theorem resetTorchAns (h : P s) (id : Nat) : P (resetTorchAns id s).st := by
  unfold Sys2Proof.Machine.resetTorchAns; split
  · exact h
  · dsimp only; split
    · exact h
    · split
      · exact h
      · exact K.torch h _ _

omit K in
theorem readTorchAns (h : P s) (id : Nat) : P (readTorchAns id s).st := by
  unfold Sys2Proof.Machine.readTorchAns; split <;> exact h

/-! ## Sensing (chapter 7) -/

theorem sampleTick (h : P s) (lines : BitVec 6) : Goes P (execSampleTick lines s) := by
  unfold execSampleTick; split
  · next cl hc => exact .next (K.missTick h cl _ _ hc)
  · exact .next (K.startSample h lines)

theorem ssiDataReady (h : P s) (c : Nat) : Goes P (execSsiDataReady c s) := by
  unfold execSsiDataReady; split
  · exact .next h
  · exact .next (K.channel h _ _)

theorem readyWaitExpiry (h : P s) (c : Nat) : Goes P (execReadyWaitExpiry c s) := by
  unfold execReadyWaitExpiry; split
  · exact .next h
  · exact .next (K.endRead h _ _)

theorem endMaster (h : P s) (c : Nat) (f : FrameSettings) (bits : List Bool) (high : Bool) :
    P (endMaster s c f bits high) := by
  unfold Sys2Proof.Machine.endMaster; split
  · exact K.endRead h _ _
  · have w := K.channel h c { s.channel c with lastStatus := statusOf f bits }
    dsimp only; split
    · exact K.endRead w _ _
    · exact K.endRead (K.channel w _ _) _ _

theorem masterReadEnd (h : P s) (c bits : Nat) (high : Bool) : Goes P (execMasterReadEnd c bits high s) := by
  unfold execMasterReadEnd; split
  · exact .next h
  · split
    · exact .next (K.endMaster h _ _ _ _)
    · exact .next h

theorem listenFrameEnd (h : P s) (c : Nat) (bits : List Bool) (period : Option Nat) :
    Goes P (execListenFrameEnd c bits period s) := by
  unfold execListenFrameEnd; split
  · exact .next h
  · exact .next (K.channel h _ _)

theorem unhome (h : P s) (c : Nat) : P (unhome s c) := by
  unfold Sys2Proof.Machine.unhome; dsimp only; split
  · exact K.raise (K.axis (K.hoist h _ _) _ _) _ _
  · exact h

theorem quadratureTransition (h : P s) (c : Nat) (a b a' b' : Bool) : Goes P (execQuadratureTransition c a b a' b' s) := by
  unfold execQuadratureTransition; split
  · exact .next h
  · split
    · exact .next (K.unhome h c)
    · split
      · exact .next (K.hoist h _ _)
      · exact .next (K.hoist h _ _)

theorem indexPulse (h : P s) (c : Nat) (upper : Bool) : Goes P (execIndexPulse c upper s) := by
  unfold execIndexPulse; split
  · exact .next h
  · exact .next (K.raise (K.axis (K.hoist h _ _) _ _) _ _)

theorem homeHoistAns (h : P s) (c : Nat) : P (homeHoistAns c s).st := by
  unfold Sys2Proof.Machine.homeHoistAns; split
  · exact h
  · exact K.hoist h _ _

theorem writeSource (h : P s) (crane letter : Nat) (a : AxisArg) : P (writeSource s crane letter a) := by
  unfold Sys2Proof.Machine.writeSource; split
  · exact K.hoist h _ _
  · split
    · exact K.channel h _ _
    · exact h

theorem setAxisAns (h : P s) (crane letter : Nat) (a : AxisArg) : P (setAxisAns crane letter a s).st := by
  unfold Sys2Proof.Machine.setAxisAns; split
  · exact h
  · split
    · exact h
    · exact K.axis (K.writeSource h _ _ _) _ _

theorem calibrateAxisAns (h : P s) (crane letter : Nat) (a : SurveyArg) : P (calibrateAxisAns crane letter a s).st := by
  unfold Sys2Proof.Machine.calibrateAxisAns; split
  · exact h
  · split
    · exact h
    · exact K.axis h _ _

/-! ## Clearance (chapter 8) -/

theorem clearOrderFaultAns (h : P s) (c : Nat) : P (clearOrderFaultAns c s).st := by
  unfold Sys2Proof.Machine.clearOrderFaultAns; split
  · exact h
  · split
    · exact h
    · split
      · exact h
      · split
        · exact h
        · exact K.orderFault h c

theorem setCraneAns (h : P s) (c : Nat) (a : CraneArg) : P (setCraneAns c a s).st := by
  unfold Sys2Proof.Machine.setCraneAns; split
  · exact h
  · split
    · exact h
    · split
      · exact h
      · exact K.craneFigures h c _ _ _

/-! ## Moves (chapter 9) -/

theorem modMove (h : P s) (c id : Nat) (f : Move → Move) : P (modMove s c id f) := K.queue h _ _

theorem queueMoveAns (h : P s) (c : Nat) (x : Handle) (dest : LocArg) : P (queueMoveAns c x dest s).st := by
  unfold Sys2Proof.Machine.queueMoveAns; split
  · exact h
  · split
    · exact h
    · split
      · exact h
      · split
        · exact h
        · split
          · exact h
          · split
            · exact h
            · split
              · exact h
              · split
                · exact h
                · split
                  · exact h
                  · refine K.modPiece (K.nextId (K.queue h _ _) _) _ ?_; exact fun _ => rfl

theorem takeHead (h : P s) (c : Nat) (m : Move) (p : Piece) : P (takeHead s c m p) := by
  have w := K.lockSource (K.endedMove (K.modMove h c m.id fun m => { m with state := .taken }) c none) p.place
  unfold Sys2Proof.Machine.takeHead; dsimp only; split
  · exact K.reserveDest w _ _ _
  · exact w

theorem takeNext (h : P s) (c : Nat) : P (takeNext c s).st := by
  unfold Sys2Proof.Machine.takeNext; split
  · exact h
  · split
    · exact h
    · split
      · exact h
      · split
        · exact h
        · exact K.takeHead h _ _ _

theorem takeMoveAns (h : P s) (c : Nat) : P (takeMoveAns c s).st := by
  unfold Sys2Proof.Machine.takeMoveAns; split
  · exact h
  · split
    · exact h
    · split
      · exact K.endedMove h _ _
      · exact K.takeNext h c

theorem endedReportAns (h : P s) (c id : Nat) (b : Bool) : P (endedReportAns c id b s).st := by
  unfold Sys2Proof.Machine.endedReportAns; split
  · exact h
  · split
    · exact h
    · split
      · split <;> exact h
      · exact K.endedMove h _ _

theorem craneReport (h : P s) (c id : Nat) (b : Bool) {byMove : State → Move → Ans} (hm : ∀ m, P (byMove s m).st) :
    P (craneReport c id b byMove s).st := by
  unfold Sys2Proof.Machine.craneReport; split
  · exact h
  · split
    · exact h
    · split
      · exact hm _
      · exact K.endedReportAns h _ _ _

theorem phaseAfterPick (h : P s) (pl : Place) : P (phaseAfterPick s pl) := by
  unfold Sys2Proof.Machine.phaseAfterPick; split
  · split
    · exact K.zone h _ _
    · exact h
  · exact h

theorem lift (h : P s) (c : Nat) (m : Move) {p : Piece} (hp : s.piece? m.piece = some p) : P (lift s c m p) := by
  have w := K.joinPlace (K.phaseAfterPick (K.unlockSource (K.leavePlace h p.place m.piece p.thickness) p.place) p.place)
    (.hook c) m.piece p.thickness
  exact K.modMove (K.piece w m.piece p { p with state := .inTransit, place := .hook c } ((piece?_of_srg (by simp) _).trans hp) rfl) _ _ _

theorem pickedAns (h : P s) (c : Nat) (m : Move) : P (pickedAns c s m).st := by
  unfold Sys2Proof.Machine.pickedAns; split
  · exact h
  · unfold pickTaken; split
    · exact h
    · next p hp =>
      dsimp only; split
      · exact h
      · exact K.raiseUnverified (K.lift h c m hp) _ _
  · exact h
  · exact h

theorem setDown (h : P s) (c : Nat) (m : Move) {p : Piece} (d : Dest) (hp : s.piece? m.piece = some p) :
    P (setDown s c m p d) := by
  have w := K.joinPlace (K.leavePlace h (.hook c) m.piece p.thickness) d.place m.piece p.thickness
  cases d with
  | slot n =>
    have v := K.piece (K.releaseDest w p.thickness (some (.slot n))) m.piece p
      { p with state := .stored, place := .slot n, move := none } hp rfl
    exact K.raise (K.endedMove (K.queue v _ _) _ _) _ _
  | zone z =>
    have v := K.piece (K.zone w z { s.zone z with inbound := none, phase := .loaded }) m.piece p
      { p with state := .onTable, place := .zone z, move := none } hp rfl
    exact K.raise (K.endedMove (K.queue v _ _) _ _) _ _

theorem startAfterPlacing (h : P s) (d : Dest) : P (startAfterPlacing s d) := by
  cases d
  case slot n => exact h
  case zone z => exact K.pendingStart h _

theorem placedAns (h : P s) (c : Nat) (m : Move) : P (placedAns c s m).st := by
  unfold Sys2Proof.Machine.placedAns; split
  · unfold placeCarried; split
    · next p d hp _ =>
      dsimp only; split
      · exact h
      · exact K.startAfterPlacing (K.raiseUnverified (K.setDown h c m d hp) _ _) _
    · exact h
  · exact h

theorem unlockSourceOf (h : P s) (x : Handle) : P (unlockSourceOf s x) := by
  unfold Sys2Proof.Machine.unlockSourceOf; split
  · exact K.unlockSource h _
  · exact h

theorem abandonAns (h : P s) (c : Nat) (m : Move) : P (abandonAns c s m).st := by
  unfold Sys2Proof.Machine.abandonAns; split
  · exact K.modMove (K.releaseDest (K.unlockSourceOf h _) _ _) _ _ _
  · exact K.raise (K.modMove (K.releaseDest h _ _) _ _ _) _ _
  · exact h
  · exact h

theorem retargetMoveAns (h : P s) (id : Nat) (dest : LocArg) : P (retargetMoveAns id dest s).st := by
  unfold Sys2Proof.Machine.retargetMoveAns; split
  · exact h
  · split
    · exact h
    · split
      · exact h
      · split
        · exact h
        · split
          · exact h
          · exact K.reserveDest (K.modMove h _ _ _) _ _ _

theorem removeMove (h : P s) (c : Nat) (m : Move) : P (removeMove s c m) := by
  refine K.modPiece (K.queue h _ _) _ ?_; exact fun _ => rfl

theorem startAfterCancel (h : P s) (x : Handle) : P (startAfterCancel s x) := by
  unfold Sys2Proof.Machine.startAfterCancel; split
  · exact K.pendingStart h _
  · exact h

theorem cancelMoveAns (h : P s) (id : Nat) : P (cancelMoveAns id s).st := by
  unfold Sys2Proof.Machine.cancelMoveAns; split
  · exact h
  · split
    · exact h
    · split
      · exact K.startAfterCancel (K.removeMove h _ _) _
      · exact K.startAfterCancel (K.endedMove (K.removeMove (K.releaseDest (K.unlockSourceOf h _) _ _) _ _) _ _) _
      · exact h
      · exact h

theorem readCraneAns (h : P s) (c : Nat) : P (readCraneAns c s).st := by
  unfold Sys2Proof.Machine.readCraneAns; split
  · exact h
  · exact K.unitRead h _

/-! ## The station link (chapter 10) -/

theorem pollTurnStart (h : P s) : Goes P (execPollTurnStart s) := by
  unfold execPollTurnStart; split
  · exact .next (K.link h _ rfl)
  · exact .next h

theorem idleAnswer (h : P s) : Goes P (execIdleAnswer s) := by
  unfold execIdleAnswer; split
  · exact .next h
  · split
    · exact .next (K.endTurn h)
    · exact .next (K.endTurn (K.answering h _))

theorem stationLost (h : P s) (b : Option (Role × Nat)) : P (stationLost s b) := by
  unfold Sys2Proof.Machine.stationLost; split
  · exact K.revoke h _ _
  · exact K.withdrawMark h _
  · exact h

theorem countMiss (h : P s) (a : Nat) : P (countMiss s a) := by
  have w := fun x n => K.station h a { s.station a with state := x, misses := n } (.inl rfl)
  unfold Sys2Proof.Machine.countMiss; dsimp only; split
  · exact K.stationLost (K.raise (w _ _) _ _) _
  · exact w _ _

theorem badAnswer (h : P s) : P (badAnswer s) := by
  unfold Sys2Proof.Machine.badAnswer; split
  · exact h
  · split
    · exact K.endTurn h
    · exact K.endTurn (K.countMiss h _)

theorem pollTurnEnd (h : P s) : Goes P (execPollTurnEnd s) := by
  unfold execPollTurnEnd; split
  · exact .next (K.endTurn h)
  · exact .next h

theorem stationUnknownRequest (h : P s) (kind : Nat) : Goes P (execStationUnknownRequest kind s) := by
  unfold execStationUnknownRequest; split
  · exact .next h
  · split
    · exact .next (K.endTurn h)
    · exact .next (K.sendReply (K.answering h _) _ _)

theorem displace (h : P s) (x : Option Nat) (b : Option (Role × Nat)) : P (displace s x b) := by
  unfold Sys2Proof.Machine.displace; split
  · exact K.stationLost (K.station h _ _ (.inr (by simp [Station.reset]))) _
  · exact h

/-- An entry is bound anew to a unit of its role, or released. -/
theorem rebind (h : P s) (a : Nat) (b : Option (Role × Nat)) (hb : ∀ r u, b = some (r, u) → unitOk r u = true) :
    P (rebind s a b).st := by
  refine K.station (K.displace (K.stationLost h _) _ _) _ _ (.inr fun r u e => hb r u ?_)
  cases b with
  | none => simp [stationEntry, Station.reset] at e
  | some b => simpa [stationEntry] using e

omit K in
theorem unitOk_of_bindingOf {q : Nat × Nat} {b : Role × Nat} (h : bindingOf q = some b) : unitOk b.1 b.2 = true := by
  obtain ⟨r, u⟩ := q
  simp only [bindingOf, Option.bind_eq_some_iff] at h
  obtain ⟨role, -, h⟩ := h
  split at h
  · next hu => injection h with h; subst h; exact hu
  · cases h

theorem setStationAns (h : P s) (a : Nat) (binding : Option (Nat × Nat)) : P (setStationAns a binding s).st := by
  unfold Sys2Proof.Machine.setStationAns; split
  · exact h
  · split
    · exact K.rebind h a none nofun
    · split
      · exact h
      · next b hb =>
        split
        · exact h
        · exact K.rebind h a (some b) fun r u e => by injection e with e; subst e; exact unitOk_of_bindingOf hb

theorem setPollListAns (h : P s) (list : List Nat) (rate window : Option Nat) : P (setPollListAns list rate window s).st := by
  unfold Sys2Proof.Machine.setPollListAns; split
  · exact h
  · have w := K.link h { s.slc with waiting := some (pollSettings s list rate window) } rfl
    dsimp only [okWith]; split
    · exact K.applyWaiting w
    · exact w

/-! ## The planning port and the hall modes (chapter 11) -/

theorem openHallAns (h : P s) : P (openHallAns s).st := by
  unfold Sys2Proof.Machine.openHallAns; split
  · next hm => rw [hallAns_openHall]; dsimp only; exact K.openHall h (by simp [hm])
  · exact h
  · exact h

theorem resumeHallAns (h : P s) : P (resumeHallAns s).st := by
  unfold Sys2Proof.Machine.resumeHallAns; split
  · exact h
  · exact h
  · next hm =>
    split
    · exact h
    · rw [hallAns_openHall]; dsimp only; exact K.openHall h (by simp [hm])

theorem hallStop (h : P s) : Goes P (execHallStop s) := by
  unfold execHallStop; dsimp only; split
  · exact .next (K.stopInput h _)
  · exact .next (K.stopHall (K.stopInput h _))

theorem clearRegistryAns (h : P s) : P (clearRegistryAns s).st := by
  unfold Sys2Proof.Machine.clearRegistryAns; split
  · exact h
  · next hm => exact K.clear h (by simpa using hm)

/-! ## Every command -/

/-- Every command has a next state, and keeps there what every single change keeps. -/
theorem exec (h : P s) (c : Instr) : Goes P (exec c s) := by
  cases c with
  | noOp => exact K.host .noOp h
  | portBadFrame kind => exact .next (K.reply h _)
  | enrolPlate key g t l w => exact K.host .enrolPlate (K.enrolPlateAns h key g t l w)
  | enrolRemnant z heat g t d => exact K.host .enrolRemnant (K.enrolRemnantAns h z heat g t d)
  | restorePiece a => exact K.host .restorePiece (K.restorePieceAns h a)
  | retirePiece x => exact K.host .retirePiece (K.retirePieceAns h x)
  | lookupKey x key => exact K.shared h x .lookupKey fun _ w => lookupKeyAns w key
  | readPiece x y => exact K.shared h x .readPiece fun _ w => readPieceAns w y
  | setHold x => exact K.host .setHold (K.setHoldAns h x)
  | releaseHold x => exact K.host .releaseHold (K.releaseHoldAns h x)
  | reservePiece x tag => exact K.host .reservePiece (K.reservePieceAns h x tag)
  | unreservePiece x tag => exact K.host .unreservePiece (K.unreservePieceAns h x tag)
  | setSlot a x y e => exact K.host .setSlot (K.setSlotAns h a x y e)
  | setZone z x y x0 x1 y0 y1 => exact K.host .setZone (K.setZoneAns h z x y x0 x1 y0 y1)
  | setReceiving x y => exact K.host .setReceiving (K.setReceivingAns h x y)
  | readSlot a => exact K.host .readSlot (readSlotAns h a)
  | readReceiving => exact K.host .readReceiving h
  | fit a => exact K.host .fit (K.searchAns h a none)
  | fitReserve a tag =>
    refine K.host .fitReserve ?_
    split
    · exact h
    · exact K.searchAns h a (some tag)
  | readSearch => exact K.host .readSearch (K.readSearchAns h)
  | walkStep => exact K.walkStep h
  | searchCompletion => exact K.searchCompletion h
  | stageNest z id x parts decls => exact K.host .stageNest (K.stageNestAns h z id x parts decls)
  | withdrawNest z id => exact K.host .withdrawNest (K.withdrawNestAns h z id)
  | declareRemnant z id i d => exact K.host .declareRemnant (K.declareRemnantAns h z id i d)
  | startNest z id => exact K.host .startNest (K.startNestAns h z id)
  | skipPart z id i => exact K.host .skipPart (K.skipPartAns h z id i)
  | closeNest z id => exact K.host .closeNest (K.closeNestAns h z id)
  | setChain t on => exact K.host .setChain (K.setChainAns h t on)
  | zoneCleared z => exact K.stationReq h .zoneCleared _ fun _ w => K.zoneClearedAns w z
  | readTable t => exact K.host .readTable (K.readTableAns h t)
  | readZone x z => exact K.shared h x .readZone fun _ w => readZoneAns w z
  | nextMark t => exact K.stationReq h .nextMark _ fun _ w => K.nextMarkAns w t
  | markDone z id i =>
    exact K.stationReq h .markDone _ fun _ w => K.markReportAns w z id i .done fun _ _ => K.takeMarkDone w _ _
  | markFailed z id i =>
    exact K.stationReq h .markFailed _ fun _ w => K.markReportAns w z id i .failed fun _ _ => K.takeMarkFailed w _ _
  | waiveMark z id i => exact K.host .waiveMark (K.waiveMarkAns h z id i)
  | nextBurn t => exact K.nextBurn h t
  | burnDone z id i =>
    exact K.stationReq h .burnDone _ fun _ w => burnReportAns w z id i true fun _ _ => K.takeBurnDone w
  | burnAbandon z id i =>
    exact K.stationReq h .burnAbandon _ fun _ w => burnReportAns w z id i false fun _ _ => K.takeBurnAbandon w
  | arcOnEdge t => exact K.arcOnEdge h t
  | arcOffEdge t onMs => exact K.arcOffEdge h t onMs
  | pierceTimeReached t => exact K.pierceTimeReached h t
  | arcTimeUnit t => exact K.arcTimeUnit h t
  | burnOvertime t => exact K.burnOvertime h t
  | stuckArcTimerExpiry t => exact K.stuckArcTimerExpiry h t
  | clearTableFault t => exact K.host .clearTableFault (K.clearTableFaultAns h t)
  | setBurnTimes p l => exact K.host .setBurnTimes (K.burnTimes h _ _)
  | mountTorch t id => exact K.host .mountTorch (K.mountTorchAns h t id)
  | unmountTorch t => exact K.host .unmountTorch (K.unmountTorchAns h t)
  | setTorch a => exact K.host .setTorch (K.setTorchAns h a)
  | resetTorch id => exact K.host .resetTorch (K.resetTorchAns h id)
  | readTorch id => exact K.host .readTorch (readTorchAns h id)
  | sampleTick lines => exact K.sampleTick h lines
  | ssiDataReady c => exact K.ssiDataReady h c
  | readyWaitExpiry c => exact K.readyWaitExpiry h c
  | masterReadEnd c bits high => exact K.masterReadEnd h c bits high
  | listenFrameEnd c bits p => exact K.listenFrameEnd h c bits p
  | quadratureTransition c a b a' b' => exact K.quadratureTransition h c a b a' b'
  | indexPulse c upper => exact K.indexPulse h c upper
  | homeHoist c => exact K.host .homeHoist (K.homeHoistAns h c)
  | setAxis c l a => exact K.host .setAxis (K.setAxisAns h c l a)
  | calibrateAxis c l a => exact K.host .calibrateAxis (K.calibrateAxisAns h c l a)
  | readSample => exact K.host .readSample (K.unitRead h .hall)
  | clearOrderFault c => exact K.host .clearOrderFault (K.clearOrderFaultAns h c)
  | setCrane c a => exact K.host .setCrane (K.setCraneAns h c a)
  | setRunway a => exact K.host .setRunway (K.runwayNext h _)
  | queueMove c x dest => exact K.host .queueMove (K.queueMoveAns h c x dest)
  | takeMove c => exact K.stationReq h .takeMove _ fun _ w => K.takeMoveAns w c
  | picked c id => exact K.stationReq h .picked _ fun _ w => K.craneReport w c id _ fun m => K.pickedAns w c m
  | placed c id => exact K.stationReq h .placed _ fun _ w => K.craneReport w c id _ fun m => K.placedAns w c m
  | moveAbandon c id => exact K.stationReq h .moveAbandon _ fun _ w => K.craneReport w c id _ fun m => K.abandonAns w c m
  | retargetMove id dest => exact K.host .retargetMove (K.retargetMoveAns h id dest)
  | cancelMove id => exact K.host .cancelMove (K.cancelMoveAns h id)
  | readCrane c => exact K.host .readCrane (K.readCraneAns h c)
  | pollTurnStart => exact K.pollTurnStart h
  | idleAnswer => exact K.idleAnswer h
  | badAnswer => exact .next (K.badAnswer h)
  | replyWindowExpiry => exact .next (K.badAnswer h)
  | pollTurnEnd => exact K.pollTurnEnd h
  | setStation a b => exact K.host .setStation (K.setStationAns h a b)
  | setPollList l r w => exact K.host .setPollList (K.setPollListAns h l r w)
  | readLink => exact K.host .readLink (K.unitRead h .link)
  | readNotices => exact K.host .readNotices (K.markSeen h)
  | setNoticeMask flags => exact K.host .setNoticeMask (K.mask h flags)
  | openHall => exact K.host .openHall (K.openHallAns h)
  | resumeHall => exact K.host .resumeHall (K.resumeHallAns h)
  | clearRegistry => exact K.host .clearRegistry (K.clearRegistryAns h)
  | hallStop => exact K.hallStop h
  | hallStopRelease => exact .next (K.stopInput h false)
  | deviceReset => exact .next (K.reset h)
  | stationUnknownRequest kind => exact K.stationUnknownRequest h kind

/-- A step keeps what every single change keeps; taking a command from the queue is one more of them. -/
theorem step {t : State} (hq : ∀ q, P { s with pending := q }) (h : P s) (e : step s = .next t) : P t := by
  unfold Sys2Proof.Machine.step at e
  split at e
  · injection e with e; exact e ▸ h
  · next c r hp =>
    obtain ⟨u, hu, hP⟩ := K.exec (hq r) c
    rw [hu] at e; injection e with e; exact e ▸ hP

end Kept

end Sys2Proof.Machine
end

section
/-! PROOFS. The queue and the canonical form of the banks as instances of what every command keeps: a step takes the front
command, every command gives a next state, and every bank stays canonical. -/

open Sys2Proof Sys2Proof.Machine

namespace Sys2Proof.Machine

/-! ## What a completion and a hall stop go through -/

/-- A property that runs over a list keep step by step holds after the run. -/
theorem foldl_holds {α : Type} {Q : State → Prop} {f : State → α → State} (step : ∀ s a, Q s → Q (f s a)) (l : List α)
    {s : State} (h : Q s) : Q (l.foldl f s) := Kept.foldl step l h

/-- The judging of one crane writes channels, axes and the hoist, and raises notices. -/
theorem judgeCrane_holds {Q : State → Prop} (channel : ∀ s c v, Q s → Q (s.setChannel c v))
    (axis : ∀ s k v, Q s → Q (s.setAxis k v)) (hoist : ∀ s c v, Q s → Q (s.setHoist c v))
    (notice : ∀ s u k, Q s → Q (raise s u k)) (cl : Collecting) {s : State} (c : Nat) (h : Q s) :
    Q (judgeCrane cl s c) := by
  have hssi : ∀ s letter, Q s → Q (judgeSsi cl c letter s) := fun s letter h => by
    have w := fun ch k x a => axis _ k a (channel s ch x h)
    unfold judgeSsi; dsimp only; split
    · exact notice _ _ _ (w _ _ _ _)
    · exact w _ _ _ _
  have hhoist : ∀ s, Q s → Q (judgeHoist cl c s) := fun s h => by
    have w := fun x k a => axis _ k a (hoist s c x h)
    exact iteInduction (fun _ => notice _ _ _ (w _ _ _)) fun _ => w _ _ _
  exact hhoist _ (hssi _ 1 (hssi _ 0 h))

/-- The settings that come into force write the Clearance Unit. -/
theorem applySettings_holds {Q : State → Prop} (crane : ∀ s c v, Q s → Q (s.setCrane c v))
    (runway : ∀ (s : State) r, Q s → Q { s with clu := { s.clu with runway := r, runwayNext := none } }) {s : State} (h : Q s) :
    Q (applySettings s) := by
  have w := foldl_holds (Q := Q) (f := fun s c => s.setCrane c
    { s.crane c with westIn := (s.crane c).west, eastIn := (s.crane c).east }) (fun s c => crane s c _) (List.range 3) h
  unfold applySettings; dsimp only; split
  · exact w
  · exact runway _ _ w

/-- An evaluation writes cranes, pairs and intruders, and raises notices. -/
theorem evaluate_holds {Q : State → Prop} (crane : ∀ s c v, Q s → Q (s.setCrane c v))
    (pair : ∀ s c v, Q s → Q (s.setPair c v)) (intruders : ∀ s z v, Q s → Q (s.setIntruders z v))
    (notice : ∀ s u k, Q s → Q (raise s u k)) {s : State} (h : Q s) : Q (evaluate s) := by
  have hgap : ∀ s c, Q s → Q (setGap s c) := fun s c h => by
    have w := fun v => pair s c v h
    unfold setGap; dsimp only; split
    · exact notice _ _ _ (notice _ _ _ (w _))
    · exact w _
  unfold evaluate
  refine foldl_holds (fun s c h => crane s c _ h) _ ?_
  refine foldl_holds (fun s z h => intruders s z _ h) _ ?_
  refine foldl_holds (fun s c h => crane s c _ h) _ ?_
  refine foldl_holds hgap _ ?_
  exact foldl_holds (fun s c h => crane s c _ h) _ h

theorem revokeIntruded_holds {Q : State → Prop} (revoked : ∀ s t c, Q s → Q (revoke s t c)) {s : State} (h : Q s) :
    Q (revokeIntruded s) := by
  refine foldl_holds (fun s t h => ?_) _ h
  split
  · split
    · exact revoked _ _ _ h
    · exact h
  · exact h

/-- A completion goes through writes of the Runway Sensor Unit and the Clearance Unit, notices and revocations alone. -/
theorem completeSample_holds {Q : State → Prop} (rsu : ∀ (s : State) r, Q s → Q { s with rsu := r })
    (clu : ∀ (s : State) c, Q s → Q { s with clu := c }) (notice : ∀ s u k, Q s → Q (raise s u k))
    (revoked : ∀ s t c, Q s → Q (revoke s t c)) (cl : Collecting) {s : State} (h : Q s) : Q (completeSample s cl) := by
  have a : Q (applySettings s) := applySettings_holds (fun s _ _ => clu s _) (fun s _ => clu s _) h
  have j : Q ((List.range 3).foldl (judgeCrane cl) (applySettings s)) :=
    foldl_holds (fun _ c h => judgeCrane_holds (fun s _ _ => rsu s _) (fun s _ _ => rsu s _) (fun s _ _ => rsu s _) notice
      cl c h) _ a
  exact revokeIntruded_holds revoked
    (evaluate_holds (fun s _ _ => clu s _) (fun s _ _ => clu s _) (fun s _ _ => clu s _) notice (rsu _ _ j))

/-! ## The queue -/

theorem pending_clearRegistry (s : State) : (clearRegistry s).pending = s.pending := by
  unfold clearRegistry; dsimp only; split <;> rfl

theorem pending_stopHall (s : State) : (stopHall s).pending = s.pending := by
  rw [stopHall_eq, pending_stopPermissives]
  exact (foldl_keeps (g := State.pending) (fun s t => pending_revoke s t _) _ _).trans rfl

/-- No single change touches the queue. -/
theorem kept_pending (q : List Instr) : Kept fun s => s.pending = q where
  reply h _ := h
  stopInput h _ := h
  mask h _ := h
  notice h _ _ := h
  unitRead h _ := h
  markSeen h := h
  fse h _ := h
  link h _ _ := h
  station h _ _ _ := h
  row h _ _ _ := h
  slot h _ _ := h
  bedPieces h _ _ := h
  bed h _ _ _ := h
  hook h _ _ := h
  table h _ _ := h
  zone h _ _ := h
  marks h _ _ := h
  monitor h _ _ := h
  torch h _ _ := h
  burnTimes h _ _ := h
  channel h _ _ := h
  axis h _ _ := h
  hoist h _ _ := h
  queue h _ _ := h
  endedMove h _ _ := h
  nextId h _ := h
  piece h _ _ _ _ _ := h
  counters h _ _ := h
  birth h _ _ _ _ _ := h
  death h _ _ _ := h
  grantEnds h _ _ _ _ := h
  grantMade h _ _ _ _ _ := h
  grantTime h _ _ _ _ := h
  burnState h _ _ _ _ := h
  orderFault h _ := h
  craneFigures h _ _ _ _ := h
  runwayNext h _ := h
  collect h _ _ _ := h
  collectRead h _ _ _ _ := h
  missTick h _ _ _ _ := h
  complete h cl _ := completeSample_holds (Q := fun s => s.pending = q) (fun _ _ h => h) (fun _ _ h => h)
    (fun _ _ _ h => h) (fun s t c h => (pending_revoke s t c).trans h) cl h
  openMode h _ := h
  stopHall h := (pending_stopHall _).trans h
  clear h _ := (pending_clearRegistry _).trans h
  reset h := h

/-- Settles O1. -/
theorem stepTakesTheFrontCommand : Obligations.StepTakesTheFrontCommand := fun _ _ => rfl

/-- Settles O2: the queue stands through every command, and an empty queue leaves the part as it is. -/
theorem everyCommandGivesANextState : Obligations.EveryCommandGivesANextState :=
  ⟨fun c s => (kept_pending s.pending).exec rfl c, fun s h => by simp [step, h]⟩

/-! ## Canonical banks -/

theorem Canonical.takeSample {s : State} (h : Canonical s) (cl : Collecting) : Canonical (takeSample cl s) := by
  have hc := bankWf_foldl_bankSet (fun _ => CraneSample.reset) (craneSample cl s) (List.range 3) (bankWf_nil _)
  simp_all [Canonical, Sys2Proof.Machine.takeSample]

theorem Canonical.completeSample {s : State} (h : Canonical s) (cl : Collecting) : Canonical (completeSample s cl) := by
  have a : Canonical (applySettings s) := applySettings_holds (fun _ c v h => h.setCrane c v) (fun _ _ h => h) h
  have j : Canonical ((List.range 3).foldl (judgeCrane cl) (applySettings s)) :=
    foldl_holds (fun _ c h => judgeCrane_holds (fun _ c v h => h.setChannel c v) (fun _ k v h => h.setAxis k v)
      (fun _ c v h => h.setHoist c v) (fun _ u k h => h.raise u k) cl c h) _ a
  exact revokeIntruded_holds (fun _ t c h => h.revoke t c) (j.takeSample cl).evaluate

theorem Canonical.stopHall {s : State} (h : Canonical s) : Canonical (stopHall s) := by
  have r : Canonical (revokeAll (Sys2Proof.Machine.raise (setMode s .stopped) .hall .hallStopped) .hallStop) :=
    foldl_holds (fun _ t h => h.revoke t _) _ (Canonical.raise (s := setMode s .stopped) h _ _)
  rw [stopHall_eq]
  exact foldl_holds (fun _ c h => h.setCrane c _) _ r

/-- CLEAR_REGISTRY empties a bank, leaves it, or changes every record of it. -/
theorem Canonical.clearRegistry {s : State} (h : Canonical s) : Canonical (clearRegistry s) := by
  have w : Canonical { s with
      srg := s.srg.clear, lmap := s.lmap.clear, fse := s.fse.clear, tbc := Tbc.reset, mkd := Mkd.reset,
      bsv := s.bsv.clear, mvc := { s.mvc with queues := [], ended := [] } } := by
    simp_all [Canonical, Srg.clear, Srg.reset, Lmap.clear, Tbc.reset, Mkd.reset, Bsv.clear, bankWf_nil, bankWf_bankMap]
  unfold Sys2Proof.Machine.clearRegistry; dsimp only; split
  · exact w.raise _ _
  · exact w

theorem canonical_reset : Canonical State.reset := by
  simp [Canonical, State.reset, Srg.reset, Lmap.reset, Tbc.reset, Mkd.reset, Bsv.reset, Rsu.reset, Sample.reset, Clu.reset,
    Mvc.reset, Slc.reset, Ppn.reset, bankWf_nil]

/-- Every single change keeps the banks canonical. -/
theorem kept_canonical : Kept Canonical where
  reply h _ := h
  stopInput h _ := h
  mask h _ := h
  notice h n v := h.setNotice n v
  unitRead h u := h.unitRead u
  markSeen h := h.markSeen
  fse h _ := h
  link h l e := by simp_all [Canonical]
  station h a v _ := h.setStation a v
  row h _ _ _ := h
  slot h n v := h.setSlot n v
  bedPieces h z _ := h.setBed z _
  bed h _ z v := h.setBed z v
  hook h c v := h.setHook c v
  table h t v := h.setTable t v
  zone h z v := h.setZone z v
  marks h t v := h.setMarks t v
  monitor h t v := h.setMonitor t v
  torch h n v := h.setTorch n v
  burnTimes h _ _ := h
  channel h c v := h.setChannel c v
  axis h k v := h.setAxis k v
  hoist h c v := h.setHoist c v
  queue h c v := h.setQueue c v
  endedMove h c v := h.setEndedMove c v
  nextId h _ := h
  piece h _ _ _ _ _ := h.setRecord _ _
  counters h _ _ := h
  birth h i p g _ e := by
    obtain ⟨hr, -, -, hp, hg⟩ := bankWf_dirInsert e h.1.2.1 h.1.2.2
    exact (h.ofSrg g (hr ▸ h.1.1) hp hg).setRecord _ _
  death {s} h x p _ := by
    obtain ⟨hp, hg⟩ := bankWf_dirDelete p.key h.1.2.1 h.1.2.2
    exact (h.ofSrg _ ((dirDelete_keeps s.srg p.key).1 ▸ h.1.1) hp hg).setRecord _ _
  grantEnds h t _ _ _ := (h.setBurn t _).setGrantHeld _ _
  grantMade h t _ _ _ _ := ((h.setBurn t _).setGrantHeld _ _).evaluateGrant
  grantTime h t _ _ _ := h.setBurn t _
  burnState h t _ _ _ := h.setBurn t _
  orderFault h c := h.setPair c _
  craneFigures h c _ _ _ := h.setCrane c _
  runwayNext h _ := h
  collect h cl hr hl := by simp_all [Canonical]
  collectRead h cl c o e := by simp_all [Canonical, bankWf_bankSet]
  missTick h cl _ _ e := by simp_all [Canonical]
  complete h cl _ := h.completeSample cl
  openMode h _ := h
  stopHall h := h.stopHall
  clear h _ := h.clearRegistry
  reset _ := canonical_reset

/-- Settles O3: the canonical form survives every single change, so every command keeps it. -/
theorem stepKeepsBanksCanonical : Obligations.StepKeepsBanksCanonical :=
  fun _ _ h e => kept_canonical.step (fun _ => h) h e

end Sys2Proof.Machine
end

section
/-! PROOFS. The key directory (R9 to R13): the items an entry holds, what an insert and a delete make of them, and that the
directory keeps its shape. -/

open Sys2Proof Sys2Proof.Machine

namespace Sys2Proof.Machine

/-! ## Entries and groups -/

section Entries

variable (g : Srg)

@[simp] theorem dirEntry_setDirEntry (i : Nat) (e : DirEntry) (j : Nat) :
    dirEntry (setDirEntry g i e) j = if j = i then e else dirEntry g j := bankGet_bankSet _ _ _ _ _

@[simp] theorem spillGroup_setDirEntry (i : Nat) (e : DirEntry) (n : Nat) :
    spillGroup (setDirEntry g i e) n = spillGroup g n := rfl

@[simp] theorem dirEntry_setSpillGroup (n : Nat) (v : SpillGroup) (i : Nat) :
    dirEntry (setSpillGroup g n v) i = dirEntry g i := rfl

@[simp] theorem spillGroup_setSpillGroup (n : Nat) (v : SpillGroup) (m : Nat) :
    spillGroup (setSpillGroup g n v) m = if m = n then v else spillGroup g m := bankGet_bankSet _ _ _ _ _

/-- The lowest-numbered free group (R12). -/
theorem freeGroup_eq_some {g : Srg} {n : Nat} : freeGroup g = some n ↔
    n < 512 ∧ (spillGroup g n).inUse = false ∧ ∀ m, m < n → (spillGroup g m).inUse = true := by
  simp [freeGroup, firstFrom_some, Config.spillGroups]

theorem freeGroup_eq_none {g : Srg} : freeGroup g = none ↔ ∀ n, n < 512 → (spillGroup g n).inUse = true := by
  simp [freeGroup, firstFrom_none, Config.spillGroups]

end Entries

/-! ## The slots of a group -/

/-- The lowest-numbered empty slot takes the item. -/
theorem fillSlot_append (i : DirItem) {before : List (Option DirItem)} (after : List (Option DirItem))
    (h : ∀ o ∈ before, o ≠ none) : fillSlot i (before ++ none :: after) = some (before ++ some i :: after) := by
  induction before with
  | nil => rfl
  | cons o r ih =>
    obtain ⟨it, rfl⟩ := Option.ne_none_iff_exists'.1 (h o (by simp))
    simp [fillSlot, ih fun o ho => h o (by simp [ho])]

theorem fillSlot_eq_none {i : DirItem} {l : List (Option DirItem)} : fillSlot i l = none ↔ ∀ o ∈ l, o ≠ none := by
  induction l with
  | nil => simp [fillSlot]
  | cons o r ih => cases o <;> simp [fillSlot, ih]

/-- A filled group holds the item beside those it held, in as many slots. -/
theorem fillSlot_eq_some {i : DirItem} {l l' : List (Option DirItem)} (h : fillSlot i l = some l') :
    l'.length = l.length ∧ (l'.filterMap id).Perm (i :: l.filterMap id) := by
  induction l generalizing l' with
  | nil => simp [fillSlot] at h
  | cons o r ih =>
    cases o with
    | none => simp only [fillSlot, Option.some.injEq] at h; subst h; simp
    | some j =>
      simp only [fillSlot, Option.map_eq_some_iff] at h
      obtain ⟨t, ht, rfl⟩ := h
      obtain ⟨hl, hp⟩ := ih ht
      exact ⟨by simp [hl], by simpa using (hp.cons j).trans (.swap i j _)⟩

@[simp] theorem length_dropKey (k : Key) (l : List (Option DirItem)) : (dropKey k l).length = l.length := by
  simp [dropKey]

theorem dropKey_cons (k : Key) (o : Option DirItem) (l : List (Option DirItem)) :
    dropKey k (o :: l) = (if o.any fun it => it.key = k then none else o) :: dropKey k l := by
  cases o <;> simp [dropKey]

theorem dropKey_eq_map (k : Key) (l : List (Option DirItem)) :
    dropKey k l = l.map fun o => if o.any fun it => it.key = k then none else o := by
  induction l with
  | nil => rfl
  | cons o l ih => rw [dropKey_cons, ih, List.map_cons]

/-- The items left where a key is dropped. -/
theorem filterMap_dropKey (k : Key) (l : List (Option DirItem)) :
    (dropKey k l).filterMap id = (l.filterMap id).filter fun it => it.key ≠ k := by
  induction l with
  | nil => rfl
  | cons o l ih =>
    rw [dropKey_cons]
    cases o with
    | none => simpa using ih
    | some it => by_cases hk : it.key = k <;> simpa [hk] using ih

theorem find_isSome {v : SpillGroup} {k : Key} : (v.find k).isSome = true ↔ ∃ it, some it ∈ v.slots ∧ it.key = k := by
  simp [SpillGroup.find, List.findSome?_isSome_iff, List.mem_filterMap]

/-! ## What an entry holds -/

/-- The items under entry `i` of the primary table: none, the direct one, or those of the group it names (R9). -/
def bucket (g : Srg) (i : Nat) : List DirItem :=
  match dirEntry g i with
  | .empty => []
  | .direct it => [it]
  | .spill n => (spillGroup g n).items

section Bucket

variable {g : Srg} {i n : Nat} {it : DirItem}

theorem bucket_empty (h : dirEntry g i = .empty) : bucket g i = [] := by simp [bucket, h]
theorem bucket_direct (h : dirEntry g i = .direct it) : bucket g i = [it] := by simp [bucket, h]
theorem bucket_spill (h : dirEntry g i = .spill n) : bucket g i = (spillGroup g n).items := by simp [bucket, h]

/-- A lookup searches the items under the key's hash. -/
theorem dirLookup_eq_findSome? (g : Srg) (k : Key) :
    dirLookup g k = (bucket g (keyHash k)).findSome? fun it => if it.key = k then some it.handle else none := by
  unfold dirLookup bucket
  cases dirEntry g (keyHash k) with
  | empty => rfl
  | direct it => by_cases h : it.key = k <;> simp [h]
  | spill n => rfl

theorem dirLookup_eq_none : dirLookup g k = none ↔ ∀ it ∈ bucket g (keyHash k), it.key ≠ k := by
  simp [dirLookup_eq_findSome?]

/-- In a directory of its shape no key stands twice under an entry. -/
theorem bucket_nodup (S : DirectoryShape g) (i : Nat) : ((bucket g i).map (·.key)).Nodup := by
  cases e : dirEntry g i with
  | empty => simp [bucket_empty e]
  | direct it => simp [bucket_direct e]
  | spill n => rw [bucket_spill e]; exact (S.2.1 i n e).2.2.2.2.1

/-- In a directory of its shape every key stands under its own hash. -/
theorem keyHash_of_mem_bucket (S : DirectoryShape g) (h : it ∈ bucket g i) : keyHash it.key = i := by
  cases e : dirEntry g i with
  | empty => simp [bucket_empty e] at h
  | direct x => rw [bucket_direct e, List.mem_singleton] at h; exact h ▸ S.1 i x e
  | spill n => rw [bucket_spill e] at h; exact (S.2.1 i n e).2.2.2.2.2 it h

/-- A lookup finds exactly what stands under the key's hash. -/
theorem dirLookup_eq_some (S : DirectoryShape g) {k : Key} {h : Handle} :
    dirLookup g k = some h ↔ (⟨k, h⟩ : DirItem) ∈ bucket g (keyHash k) := by
  have hn := bucket_nodup S (keyHash k)
  rw [dirLookup_eq_findSome?]
  generalize bucket g (keyHash k) = l at hn
  induction l with
  | nil => simp
  | cons a l ih =>
    obtain ⟨hnot, hn⟩ := List.nodup_cons.1 hn
    by_cases hk : a.key = k
    · simp only [List.findSome?_cons, hk, if_true, List.mem_cons]
      constructor
      · rintro ⟨⟩; exact .inl (by cases a; simp_all)
      · rintro (rfl | hm)
        · rfl
        · exact absurd (List.mem_map.2 ⟨_, hm, hk.symm⟩) hnot
    · have hne : (⟨k, h⟩ : DirItem) ≠ a := by rintro rfl; exact hk rfl
      simp [hk, ih hn, hne]

end Bucket

/-! ## Insert (R12) -/

/-- A key is refused as a duplicate exactly when a lookup finds it. -/
theorem dirInsert_duplicateKey {g : Srg} {k : Key} {h : Handle} :
    dirInsert g k h = .error .duplicateKey ↔ (dirLookup g k).isSome = true := by
  unfold dirInsert dirLookup
  cases dirEntry g (keyHash k) with
  | empty => simp
  | direct it =>
    by_cases hk : it.key = k
    · simp [hk]
    · simp only [hk, if_false]; cases freeGroup g <;> simp
  | spill n =>
    by_cases hf : ((spillGroup g n).find k).isSome = true
    · simp [hf]
    · simp only [hf]; cases fillSlot ⟨k, h⟩ (spillGroup g n).slots <;> simp

/-- An insert writes the directory alone, not the records nor the counters. -/
theorem dirInsert_keeps {g g' : Srg} {k : Key} {h : Handle} (e : dirInsert g k h = .ok g') :
    g'.records = g.records ∧ g'.creation = g.creation ∧ g'.remnant = g.remnant := by
  unfold dirInsert at e
  split at e
  · injection e with e; subst e; exact ⟨rfl, rfl, rfl⟩
  · split at e
    · cases e
    · split at e
      · cases e
      · injection e with e; subst e; exact ⟨rfl, rfl, rfl⟩
  · split at e
    · cases e
    · split at e
      · cases e
      · injection e with e; subst e; exact ⟨rfl, rfl, rfl⟩

/-- A directory and what an insert or a delete makes of it: the shape stands, and these items are under the entries. -/
def Holds (g' : Srg) (mem : Nat → DirItem → Prop) : Prop :=
  DirectoryShape g' ∧ ∀ i it, it ∈ bucket g' i ↔ mem i it

section Insert

variable {g : Srg} {k : Key} {h : Handle} (S : DirectoryShape g)

include S

theorem holds_insert_empty (he : dirEntry g (keyHash k) = .empty) :
    Holds (setDirEntry g (keyHash k) (.direct ⟨k, h⟩)) fun i it => i = keyHash k ∧ it = ⟨k, h⟩ ∨ it ∈ bucket g i := by
  obtain ⟨S1, S2, S3, S4⟩ := S
  refine ⟨⟨fun i it e => ?_, fun i n e => ?_, fun i j n e e' => ?_, fun n hn => ?_⟩, fun i it => ?_⟩
  · rw [dirEntry_setDirEntry] at e; split at e
    · next hi => injection e with e; rw [← e, hi]
    · exact S1 i it e
  · rw [dirEntry_setDirEntry] at e; split at e
    · cases e
    · exact S2 i n e
  · rw [dirEntry_setDirEntry] at e e'; split at e
    · cases e
    · split at e'
      · cases e'
      · exact S3 i j n e e'
  · obtain ⟨i, hi⟩ := S4 n hn
    exact ⟨i, by rw [dirEntry_setDirEntry, if_neg (by rintro rfl; rw [he] at hi; cases hi), hi]⟩
  · by_cases hi : i = keyHash k
    · subst hi; simp [bucket, he]
    · simp [bucket, hi]

/-- A free group takes the item of a DIRECT entry and the new one. -/
theorem holds_insert_direct {a : DirItem} {n : Nat} (he : dirEntry g (keyHash k) = .direct a) (hk : a.key ≠ k)
    (hf : freeGroup g = some n) :
    Holds (setDirEntry (setSpillGroup g n ⟨true, [some a, some ⟨k, h⟩, none, none]⟩) (keyHash k) (.spill n))
      fun i it => i = keyHash k ∧ it = ⟨k, h⟩ ∨ it ∈ bucket g i := by
  obtain ⟨S1, S2, S3, S4⟩ := S
  obtain ⟨hlt, hfree, -⟩ := freeGroup_eq_some.1 hf
  have hne : ∀ i m, dirEntry g i = .spill m → m ≠ n := fun i m e => by
    rintro rfl; rw [(S2 i m e).2.1] at hfree; cases hfree
  refine ⟨⟨fun i it e => ?_, fun i m e => ?_, fun i j m e e' => ?_, fun m hm => ?_⟩, fun i it => ?_⟩
  · simp only [dirEntry_setDirEntry, dirEntry_setSpillGroup] at e; split at e
    · cases e
    · exact S1 i it e
  · simp only [dirEntry_setDirEntry, dirEntry_setSpillGroup] at e; split at e
    · next hi =>
      injection e with e; subst e hi
      simp [SpillGroup.items, Config.spillGroups, hlt, hk, S1 _ _ he]
    · simpa [hne i m e] using S2 i m e
  · simp only [dirEntry_setDirEntry, dirEntry_setSpillGroup] at e e'; split at e <;> split at e'
    · next hi hj => rw [hi, hj]
    · next hj => injection e with e; subst e; exact absurd rfl (hne j _ e')
    · injection e' with e'; subst e'; exact absurd rfl (hne i _ e)
    · exact S3 i j m e e'
  · by_cases hmn : m = n
    · exact ⟨keyHash k, by simp [hmn]⟩
    · simp only [spillGroup_setDirEntry, spillGroup_setSpillGroup, if_neg hmn] at hm
      obtain ⟨i, hi⟩ := S4 m hm
      exact ⟨i, by rw [dirEntry_setDirEntry, if_neg (by rintro rfl; rw [he] at hi; cases hi)]; exact hi⟩
  · by_cases hi : i = keyHash k
    · subst hi; simp [bucket, he, SpillGroup.items, or_comm]
    · cases e : dirEntry g i with
      | spill m => simp [bucket, hi, e, hne i m e]
      | _ => simp [bucket, hi, e]

theorem holds_insert_spill {n : Nat} {sl : List (Option DirItem)} (he : dirEntry g (keyHash k) = .spill n)
    (hk : ∀ it ∈ (spillGroup g n).items, it.key ≠ k) (hs : fillSlot ⟨k, h⟩ (spillGroup g n).slots = some sl) :
    Holds (setSpillGroup g n ⟨true, sl⟩) fun i it => i = keyHash k ∧ it = ⟨k, h⟩ ∨ it ∈ bucket g i := by
  obtain ⟨S1, S2, S3, S4⟩ := S
  obtain ⟨hlen, hperm⟩ := fillSlot_eq_some hs
  have hperm : (sl.filterMap id).Perm (⟨k, h⟩ :: (spillGroup g n).items) := hperm
  refine ⟨⟨S1, fun i m e => ?_, S3, fun m hm => ?_⟩, fun i it => ?_⟩
  · by_cases hmn : m = n
    · subst hmn
      obtain rfl : i = keyHash k := S3 i _ m e he
      obtain ⟨h1, h2, h3, h4, h5, h6⟩ := S2 _ m e
      simp only [spillGroup_setSpillGroup, if_true, SpillGroup.items]
      refine ⟨h1, trivial, hlen.trans h3, ?_, ?_, fun it hit => ?_⟩
      · rw [hperm.length_eq]; simp only [List.length_cons]; omega
      · rw [(hperm.map _).nodup_iff, List.map_cons, List.nodup_cons]
        exact ⟨fun hm => by obtain ⟨it, hit, e⟩ := List.mem_map.1 hm; exact hk it hit e, h5⟩
      · obtain rfl | hit := List.mem_cons.1 (hperm.mem_iff.1 hit)
        · rfl
        · exact h6 it hit
    · simpa [hmn] using S2 i m e
  · by_cases hmn : m = n
    · exact ⟨keyHash k, by simpa [hmn] using he⟩
    · simp only [spillGroup_setSpillGroup, if_neg hmn] at hm
      exact S4 m hm
  · by_cases hi : i = keyHash k
    · subst hi; simpa [bucket, he, SpillGroup.items] using hperm.mem_iff (a := it)
    · cases e : dirEntry g i with
      | spill m =>
        have hmn : m ≠ n := by rintro rfl; exact hi (S3 _ _ _ e he)
        simp [bucket, hi, e, hmn]
      | _ => simp [bucket, hi, e]

/-- An insert that is taken adds the item under the key's hash. -/
theorem holds_dirInsert {g' : Srg} (e : dirInsert g k h = .ok g') :
    Holds g' fun i it => i = keyHash k ∧ it = ⟨k, h⟩ ∨ it ∈ bucket g i := by
  unfold dirInsert at e
  split at e
  · next he => injection e with e; subst e; exact holds_insert_empty S he
  · next a he =>
    split at e
    · cases e
    · next hk =>
      split at e
      · cases e
      · next n hf => injection e with e; subst e; exact holds_insert_direct S he hk hf
  · next n he =>
    split at e
    · cases e
    · next hk =>
      split at e
      · cases e
      · next sl hs =>
        injection e with e; subst e
        refine holds_insert_spill S he (fun it hit hkey => hk (find_isSome.2 ⟨it, ?_, hkey⟩)) hs
        simpa [SpillGroup.items] using hit

end Insert

/-! ## Delete (R13) -/

section Delete

variable {g : Srg} {k : Key} (S : DirectoryShape g)

include S

/-- An item under another entry than that of the key's hash is of another key. -/
theorem key_ne_of_mem_bucket {i : Nat} {it : DirItem} (hi : i ≠ keyHash k) (h : it ∈ bucket g i) : it.key ≠ k := by
  rintro rfl; exact hi (keyHash_of_mem_bucket S h).symm

theorem holds_delete_direct {a : DirItem} (he : dirEntry g (keyHash k) = .direct a) (hk : a.key = k) :
    Holds (setDirEntry g (keyHash k) .empty) fun i it => it ∈ bucket g i ∧ it.key ≠ k := by
  obtain ⟨S1, S2, S3, S4⟩ := id S
  refine ⟨⟨fun i it e => ?_, fun i n e => ?_, fun i j n e e' => ?_, fun n hn => ?_⟩, fun i it => ?_⟩
  · rw [dirEntry_setDirEntry] at e; split at e
    · cases e
    · exact S1 i it e
  · rw [dirEntry_setDirEntry] at e; split at e
    · cases e
    · exact S2 i n e
  · rw [dirEntry_setDirEntry] at e e'; split at e
    · cases e
    · split at e'
      · cases e'
      · exact S3 i j n e e'
  · obtain ⟨i, hi⟩ := S4 n hn
    exact ⟨i, by rw [dirEntry_setDirEntry, if_neg (by rintro rfl; rw [he] at hi; cases hi), hi]⟩
  · by_cases hi : i = keyHash k
    · subst hi
      simp only [bucket, dirEntry_setDirEntry, if_true, he, List.mem_singleton, List.not_mem_nil, false_iff]
      rintro ⟨rfl, hne⟩; exact hne hk
    · have hb : bucket (setDirEntry g (keyHash k) .empty) i = bucket g i := by simp [bucket, hi]
      rw [hb]; exact ⟨fun h => ⟨h, key_ne_of_mem_bucket S hi h⟩, And.left⟩

/-- A group left with one key gives its entry back as DIRECT and becomes free. -/
theorem holds_delete_last {n : Nat} {a : DirItem} (he : dirEntry g (keyHash k) = .spill n)
    (ha : ((spillGroup g n).items.filter fun it => it.key ≠ k) = [a]) :
    Holds (setDirEntry (setSpillGroup g n SpillGroup.reset) (keyHash k) (.direct a))
      fun i it => it ∈ bucket g i ∧ it.key ≠ k := by
  obtain ⟨S1, S2, S3, S4⟩ := id S
  have hmem : ∀ it, it ∈ (spillGroup g n).items ∧ it.key ≠ k ↔ it = a := fun it => by
    simpa using (congrArg (it ∈ ·) ha).to_iff
  have hne : ∀ i m, i ≠ keyHash k → dirEntry g i = .spill m → m ≠ n := fun i m hi e => by
    rintro rfl; exact hi (S3 _ _ _ e he)
  refine ⟨⟨fun i it e => ?_, fun i m e => ?_, fun i j m e e' => ?_, fun m hm => ?_⟩, fun i it => ?_⟩
  · simp only [dirEntry_setDirEntry, dirEntry_setSpillGroup] at e; split at e
    · next hi =>
      injection e with e; subst e hi
      exact (S2 _ n he).2.2.2.2.2 a ((hmem a).2 rfl).1
    · exact S1 i it e
  · simp only [dirEntry_setDirEntry, dirEntry_setSpillGroup] at e; split at e
    · cases e
    · next hi => simpa [hne i m hi e] using S2 i m e
  · simp only [dirEntry_setDirEntry, dirEntry_setSpillGroup] at e e'; split at e
    · cases e
    · split at e'
      · cases e'
      · exact S3 i j m e e'
  · by_cases hmn : m = n
    · simp [hmn, SpillGroup.reset] at hm
    · simp only [spillGroup_setDirEntry, spillGroup_setSpillGroup, if_neg hmn] at hm
      obtain ⟨i, hi⟩ := S4 m hm
      refine ⟨i, ?_⟩
      rw [dirEntry_setDirEntry, if_neg]
      · exact hi
      · rintro rfl; rw [he] at hi; injection hi with hi; exact hmn hi.symm
  · by_cases hi : i = keyHash k
    · subst hi
      dsimp only; rw [bucket_spill he, hmem]; simp [bucket]
    · have hb : bucket (setDirEntry (setSpillGroup g n SpillGroup.reset) (keyHash k) (.direct a)) i = bucket g i := by
        cases e : dirEntry g i with
        | spill m => simp [bucket, hi, e, hne i m hi e]
        | _ => simp [bucket, hi, e]
      rw [hb]; exact ⟨fun h => ⟨h, key_ne_of_mem_bucket S hi h⟩, And.left⟩

/-- A group left with two keys or more keeps them in their slots. -/
theorem holds_delete_spill {n : Nat} (he : dirEntry g (keyHash k) = .spill n)
    (hl : 2 ≤ ((spillGroup g n).items.filter fun it => it.key ≠ k).length) :
    Holds (setSpillGroup g n ⟨true, dropKey k (spillGroup g n).slots⟩) fun i it => it ∈ bucket g i ∧ it.key ≠ k := by
  obtain ⟨S1, S2, S3, S4⟩ := id S
  have hitems : (dropKey k (spillGroup g n).slots).filterMap id = (spillGroup g n).items.filter fun it => it.key ≠ k :=
    filterMap_dropKey k _
  refine ⟨⟨S1, fun i m e => ?_, S3, fun m hm => ?_⟩, fun i it => ?_⟩
  · by_cases hmn : m = n
    · subst hmn
      obtain ⟨h1, h2, h3, h4, h5, h6⟩ := S2 _ m e
      simp only [spillGroup_setSpillGroup, if_true, SpillGroup.items, hitems, length_dropKey]
      exact ⟨h1, trivial, h3, hl, h5.sublist (List.filter_sublist.map _), fun it hit => h6 it (List.mem_of_mem_filter hit)⟩
    · simpa [hmn] using S2 i m e
  · by_cases hmn : m = n
    · exact ⟨keyHash k, by simpa [hmn] using he⟩
    · simp only [spillGroup_setSpillGroup, if_neg hmn] at hm
      exact S4 m hm
  · by_cases hi : i = keyHash k
    · subst hi
      dsimp only; rw [bucket_spill he, bucket_spill (n := n) (by simpa using he)]
      simp only [spillGroup_setSpillGroup, if_true, SpillGroup.items, hitems]
      simp
    · have hb : bucket (setSpillGroup g n ⟨true, dropKey k (spillGroup g n).slots⟩) i = bucket g i := by
        cases e : dirEntry g i with
        | spill m =>
          have hmn : m ≠ n := by rintro rfl; exact hi (S3 _ _ _ e he)
          simp [bucket, e, hmn]
        | _ => simp [bucket, e]
      rw [hb]; exact ⟨fun h => ⟨h, key_ne_of_mem_bucket S hi h⟩, And.left⟩

/-- Of two keys or more in a group, none twice, a delete leaves one at least. -/
theorem items_filter_ne_nil {n : Nat} (he : dirEntry g (keyHash k) = .spill n) :
    ((spillGroup g n).items.filter fun it => it.key ≠ k) ≠ [] := by
  obtain ⟨-, -, -, hlen, hnodup, -⟩ := S.2.1 _ n he
  intro hnil
  have hall : ∀ it ∈ (spillGroup g n).items, it.key = k := fun it hit => by
    by_contra hk
    exact List.not_mem_nil (hnil ▸ List.mem_filter.2 ⟨hit, by simpa using hk⟩)
  match hl : (spillGroup g n).items with
  | [] => simp [hl] at hlen
  | [_] => simp [hl] at hlen
  | a :: b :: r =>
    rw [hl] at hnodup hall
    simp [hall a (by simp), hall b (by simp)] at hnodup

/-- The delete of a spilled key, by what is left of its group. -/
theorem dirDelete_spill {n : Nat} (he : dirEntry g (keyHash k) = .spill n) :
    (∃ a, ((spillGroup g n).items.filter fun it => it.key ≠ k) = [a] ∧
      dirDelete g k = setDirEntry (setSpillGroup g n SpillGroup.reset) (keyHash k) (.direct a)) ∨
    (2 ≤ ((spillGroup g n).items.filter fun it => it.key ≠ k).length ∧
      dirDelete g k = setSpillGroup g n ⟨true, dropKey k (spillGroup g n).slots⟩) := by
  have hitems : (dropKey k (spillGroup g n).slots).filterMap id = (spillGroup g n).items.filter fun it => it.key ≠ k :=
    filterMap_dropKey k _
  have hne := items_filter_ne_nil S he
  simp only [dirDelete, he, hitems]
  generalize (spillGroup g n).items.filter (fun it => it.key ≠ k) = rest at hne
  match rest, hne with
  | [], hne => exact absurd rfl hne
  | [a], _ => exact .inl ⟨a, rfl, rfl⟩
  | a :: b :: r, _ => exact .inr ⟨by simp, rfl⟩

/-- A delete takes the items of the key away. -/
theorem holds_dirDelete : Holds (dirDelete g k) fun i it => it ∈ bucket g i ∧ it.key ≠ k := by
  have hstands (hk : ∀ it ∈ bucket g (keyHash k), it.key ≠ k) : Holds g fun i it => it ∈ bucket g i ∧ it.key ≠ k := by
    refine ⟨S, fun i it => ⟨fun h => ⟨h, ?_⟩, And.left⟩⟩
    by_cases hi : i = keyHash k
    · exact hk it (hi ▸ h)
    · exact key_ne_of_mem_bucket S hi h
  cases he : dirEntry g (keyHash k) with
  | empty => simpa [dirDelete, he] using hstands (by simp [bucket_empty he])
  | direct a =>
    by_cases hk : a.key = k
    · simpa [dirDelete, he, hk] using holds_delete_direct S he hk
    · simpa [dirDelete, he, hk] using hstands (by simp [bucket_direct he, hk])
  | spill n =>
    obtain ⟨a, ha, e⟩ | ⟨hl, e⟩ := dirDelete_spill S he
    · rw [e]; exact holds_delete_last S he ha
    · rw [e]; exact holds_delete_spill S he hl

end Delete

/-! ## Lookups afterwards -/

theorem dirLookup_of_holds {g g' : Srg} {mem : Nat → DirItem → Prop} (S : DirectoryShape g) (H : Holds g' mem) {j : Key}
    (hj : ∀ h, mem (keyHash j) ⟨j, h⟩ ↔ (⟨j, h⟩ : DirItem) ∈ bucket g (keyHash j)) : dirLookup g' j = dirLookup g j :=
  Option.ext fun h => by rw [dirLookup_eq_some H.1, H.2, hj, dirLookup_eq_some S]

section Lookups

variable {g : Srg} {k : Key} (S : DirectoryShape g)

include S

theorem dirLookup_dirInsert_same {h : Handle} {g' : Srg} (e : dirInsert g k h = .ok g') : dirLookup g' k = some h := by
  have H := holds_dirInsert S e
  rw [dirLookup_eq_some H.1, H.2]
  exact .inl ⟨rfl, rfl⟩

theorem dirLookup_dirInsert_ne {h : Handle} {g' : Srg} (e : dirInsert g k h = .ok g') {j : Key} (hj : j ≠ k) :
    dirLookup g' j = dirLookup g j :=
  dirLookup_of_holds S (holds_dirInsert S e) fun _ => by simp [hj]

theorem dirLookup_dirDelete_same : dirLookup (dirDelete g k) k = none :=
  dirLookup_eq_none.2 fun _ hit => ((holds_dirDelete S).2 _ _ |>.1 hit).2

theorem dirLookup_dirDelete_ne {j : Key} (hj : j ≠ k) : dirLookup (dirDelete g k) j = dirLookup g j :=
  dirLookup_of_holds S (holds_dirDelete S) fun _ => by simp [hj]

end Lookups

/-- Settles O10: a lookup reads the items under the key's hash, of which an insert adds one and a delete takes one away. -/
theorem directoryFindsWhatItHolds : Obligations.DirectoryFindsWhatItHolds := by
  intro g k h S
  refine ⟨fun g' e => ⟨(holds_dirInsert S e).1, dirLookup_dirInsert_same S e, fun j hj => dirLookup_dirInsert_ne S e hj⟩,
    dirInsert_duplicateKey, (holds_dirDelete S).1, dirLookup_dirDelete_same S, fun j hj => dirLookup_dirDelete_ne S hj,
    fun n he => ?_⟩
  obtain ⟨a, ha, e⟩ | ⟨hl, e⟩ := dirDelete_spill S he
  · refine ⟨fun it hit => ?_, fun hl => ?_⟩
    · obtain rfl : a = it := List.singleton_inj.1 (ha.symm.trans hit)
      simp [e, SpillGroup.reset]
    · rw [ha] at hl; simp at hl
  · refine ⟨fun _ hit => ?_, fun _ => ?_⟩
    · simp only [hit] at hl; simp at hl
    · simp [e, he, dropKey_eq_map]

/-- Settles O9: the insert read entry by entry. -/
theorem insertFollowsTheTable : Obligations.InsertFollowsTheTable := by
  intro g k h
  refine ⟨fun he => by simp [dirInsert, he], fun it he => ⟨fun hk => by simp [dirInsert, he, hk], fun hk hf => ?_,
    fun n hk hlt hfree hb => ?_⟩, fun n he => ⟨fun hfound => ?_, fun hfull => ?_, fun before after hs hb hk => ?_⟩⟩
  · simp [dirInsert, he, hk, freeGroup_eq_none.2 hf]
  · simp [dirInsert, he, hk, freeGroup_eq_some.2 ⟨hlt, hfree, hb⟩]
  · simp [dirInsert, he, find_isSome.2 hfound]
  · have hnot : ¬ ((spillGroup g n).find k).isSome = true := fun hf => by
      obtain ⟨it, hit, hkey⟩ := find_isSome.1 hf
      obtain ⟨x, hx, hne⟩ := hfull _ hit
      injection hx with hx; exact hne (hx ▸ hkey)
    have hnone : fillSlot ⟨k, h⟩ (spillGroup g n).slots = none :=
      fillSlot_eq_none.2 fun o ho => by obtain ⟨x, rfl, -⟩ := hfull o ho; simp
    simp [dirInsert, he, hnot, hnone]
  · have hnot : ¬ ((spillGroup g n).find k).isSome = true := fun hf => by
      obtain ⟨it, hit, hkey⟩ := find_isSome.1 hf
      exact hk it hit hkey
    have hfill := fillSlot_append ⟨k, h⟩ after hb
    rw [← hs] at hfill
    simp [dirInsert, he, hnot, hfill]

end Sys2Proof.Machine
end

section
/-! PROOFS. The registry stays sound (R9): the directory keeps its shape, and gives for a key the live piece that carries
it. -/

open Sys2Proof Sys2Proof.Machine

namespace Sys2Proof.Machine

/-- The directory agrees with the records, in the words of `piece?`. -/
theorem registrySound_iff {s : State} : RegistrySound s ↔ DirectoryShape s.srg ∧
    ∀ k h, dirLookup s.srg k = some h ↔ ∃ p, s.piece? h = some p ∧ p.key = k := by
  simp only [piece?_eq_some]; exact Iff.rfl

/-- A live piece is amended; its key stands. -/
theorem RegistrySound.amend {s : State} (R : RegistrySound s) {h : Handle} {p q : Piece} (hp : s.piece? h = some p)
    (hq : q.key = p.key) : RegistrySound (s.setRecord h.index ⟨h.gen, some q⟩) := by
  obtain ⟨S, A⟩ := registrySound_iff.1 R
  refine registrySound_iff.2 ⟨S, fun k x => ?_⟩
  have hl : dirLookup (s.setRecord h.index ⟨h.gen, some q⟩).srg k = dirLookup s.srg k := rfl
  rw [hl, A, piece?_setRecord]
  by_cases hx : x.index = h.index
  · have hr := piece?_eq_some.1 hp
    by_cases hg : h.gen = x.gen <;> simp [State.piece?, hx, hr, hg, hq]
  · simp [hx]

/-- A piece becomes live in a free record, and its key is inserted (R14). -/
theorem RegistrySound.birth {s : State} (R : RegistrySound s) {i : Nat} {p : Piece} {g : Srg}
    (hi : (s.record i).live = none) (e : dirInsert s.srg p.key ⟨i, (s.record i).gen⟩ = .ok g) :
    RegistrySound (({ s with srg := g } : State).setRecord i ⟨(s.record i).gen, some p⟩) := by
  obtain ⟨S, A⟩ := registrySound_iff.1 R
  have hfresh : dirLookup s.srg p.key = none := by
    by_contra hsome
    have hdup := dirInsert_duplicateKey (h := ⟨i, (s.record i).gen⟩).2 (Option.isSome_iff_ne_none.2 hsome)
    rw [e] at hdup; cases hdup
  have hrecords : ∀ x : Handle, ({ s with srg := g } : State).piece? x = s.piece? x := fun x => by
    unfold State.piece? State.record; dsimp only; rw [(dirInsert_keeps e).1]
  refine registrySound_iff.2 ⟨(holds_dirInsert S e).1, fun k x => ?_⟩
  have hl : dirLookup (({ s with srg := g } : State).setRecord i ⟨(s.record i).gen, some p⟩).srg k = dirLookup g k := rfl
  have hold : x.index = i → s.piece? x = none := fun hx => by simp [State.piece?, hx, hi]
  rw [hl, piece?_setRecord, hrecords]
  by_cases hk : k = p.key
  · subst hk
    rw [dirLookup_dirInsert_same S e]
    by_cases hx : x.index = i
    · obtain ⟨j, gen⟩ := x
      simp only at hx; subst hx
      by_cases hg : (s.record j).gen = gen <;> simp [hg]
    · have hno : ¬ ∃ q, s.piece? x = some q ∧ q.key = p.key := fun hq => by
        rw [(A _ _).2 hq] at hfresh; cases hfresh
      have hne : (⟨i, (s.record i).gen⟩ : Handle) ≠ x := by rintro rfl; exact hx rfl
      simp only [if_neg hx, Option.some.injEq, hno, hne]
  · rw [dirLookup_dirInsert_ne S e hk, A]
    by_cases hx : x.index = i
    · simp [hx, hold hx, Ne.symm hk]
    · simp [hx]

/-- A live piece is retired, and its key deleted (R4). -/
theorem RegistrySound.death {s : State} (R : RegistrySound s) {h : Handle} {p : Piece} (hp : s.piece? h = some p) :
    RegistrySound (({ s with srg := dirDelete s.srg p.key } : State).setRecord h.index ⟨(h.gen + 1) % 256, none⟩) := by
  obtain ⟨S, A⟩ := registrySound_iff.1 R
  have hrecords : ∀ x : Handle, ({ s with srg := dirDelete s.srg p.key } : State).piece? x = s.piece? x := fun x => by
    unfold State.piece? State.record; dsimp only; rw [(dirDelete_keeps _ _).1]
  refine registrySound_iff.2 ⟨(holds_dirDelete S).1, fun k x => ?_⟩
  have hl : dirLookup (({ s with srg := dirDelete s.srg p.key } : State).setRecord h.index ⟨(h.gen + 1) % 256, none⟩).srg k =
      dirLookup (dirDelete s.srg p.key) k := rfl
  have hat : x.index = h.index → ∀ q, s.piece? x = some q → q = p := fun hx q hq => by
    have h1 := piece?_eq_some.1 hp
    have h2 := piece?_eq_some.1 hq
    rw [hx, h1] at h2; simp_all
  have hkey : ∀ q, s.piece? x = some q → q.key = p.key → x = h := fun q hq hk => by
    have h1 := (A p.key h).2 ⟨p, hp, rfl⟩
    have h2 := (A p.key x).2 ⟨q, hq, hk⟩
    rw [h1] at h2; injection h2 with h2; exact h2.symm
  rw [hl, piece?_setRecord, hrecords]
  by_cases hk : k = p.key
  · subst hk
    rw [dirLookup_dirDelete_same S]
    by_cases hx : x.index = h.index
    · simp [hx]
    · simp only [hx, if_false, reduceCtorEq, false_iff]
      rintro ⟨q, hq, hqk⟩
      exact hx (hkey q hq hqk ▸ rfl)
  · rw [dirLookup_dirDelete_ne S hk, A]
    by_cases hx : x.index = h.index
    · simp only [hx, if_true, ite_self, reduceCtorEq, false_and, exists_false, iff_false]
      rintro ⟨q, hq, hqk⟩
      exact hk (hqk.symm.trans (congrArg _ (hat hx q hq)))
    · simp [hx]

/-- A registry without a live piece and with an empty directory is sound. -/
theorem registrySound_of_empty {s : State} (hp : s.srg.primary = []) (hg : s.srg.groups = [])
    (hr : ∀ i, (s.record i).live = none) : RegistrySound s := by
  have he : ∀ i, dirEntry s.srg i = .empty := fun i => by simp [dirEntry, hp, bankGet]
  have hn : ∀ n, spillGroup s.srg n = SpillGroup.reset := fun n => by simp [spillGroup, hg, bankGet]
  refine registrySound_iff.2 ⟨?_, fun k h => ?_⟩
  · simp [DirectoryShape, he, hn, SpillGroup.reset]
  · simp [dirLookup, he, State.piece?, hr]

/-- A bank that lists no live piece reads none. -/
theorem live_bankGet {m : Bank PieceRecord} (h : ∀ e ∈ m, e.2.live = none) (i : Nat) :
    (bankGet (fun _ => PieceRecord.reset) m i).live = none := by
  induction m with
  | nil => rfl
  | cons e r ih =>
    obtain ⟨j, v⟩ := e
    simp only [bankGet]; split
    · exact h (j, v) (by simp)
    · exact ih fun e he => h e (by simp [he])

@[simp] theorem live_clear (r : PieceRecord) : r.clear.live = none := by
  unfold PieceRecord.clear; split
  · rfl
  · assumption

theorem registrySound_clearRegistry (s : State) : RegistrySound (clearRegistry s) := by
  have hsrg : (clearRegistry s).srg = s.srg.clear := by unfold clearRegistry; dsimp only; split <;> rfl
  refine registrySound_of_empty (by rw [hsrg]; rfl) (by rw [hsrg]; rfl) fun i => ?_
  unfold State.record
  rw [hsrg]
  refine live_bankGet (fun e he => ?_) i
  obtain ⟨x, -, hx⟩ := List.mem_map.1 (List.mem_of_mem_filter he)
  rw [← hx]; exact live_clear _

theorem registrySound_reset : RegistrySound State.reset := registrySound_of_empty rfl rfl fun _ => rfl

/-- Every single change keeps the registry sound. -/
theorem kept_registrySound : Kept RegistrySound where
  reply h _ := h
  stopInput h _ := h
  mask h _ := h
  notice h _ _ := h
  unitRead h _ := h
  markSeen h := h
  fse h _ := h
  link h _ _ := h
  station h _ _ _ := h
  row h _ _ _ := h
  slot h _ _ := h
  bedPieces h _ _ := h
  bed h _ _ _ := h
  hook h _ _ := h
  table h _ _ := h
  zone h _ _ := h
  marks h _ _ := h
  monitor h _ _ := h
  torch h _ _ := h
  burnTimes h _ _ := h
  channel h _ _ := h
  axis h _ _ := h
  hoist h _ _ := h
  queue h _ _ := h
  endedMove h _ _ := h
  nextId h _ := h
  piece h _ _ _ hp hq := h.amend hp hq
  counters h _ _ := h
  birth h _ _ _ hi e := h.birth hi e
  death h _ _ hp := h.death hp
  grantEnds h _ _ _ _ := h
  grantMade h _ _ _ _ _ := h
  grantTime h _ _ _ _ := h
  burnState h _ _ _ _ := h
  orderFault h _ := h
  craneFigures h _ _ _ _ := h
  runwayNext h _ := h
  collect h _ _ _ := h
  collectRead h _ _ _ _ := h
  missTick h _ _ _ _ := h
  complete h cl _ := completeSample_holds (Q := RegistrySound) (fun _ _ h => h) (fun _ _ h => h) (fun _ _ _ h => h)
    (fun s t c h => by unfold RegistrySound; rw [srg_revoke]; exact h) cl h
  openMode h _ := h
  stopHall {s} h := by unfold RegistrySound; rw [(stopHall_blocks s).1]; exact h
  clear _ _ := registrySound_clearRegistry _
  reset _ := registrySound_reset

/-- Settles O4: a piece is born with its key inserted and dies with its key deleted, and nothing else touches key or
directory. -/
theorem stepKeepsRegistrySound : Obligations.StepKeepsRegistrySound :=
  fun _ _ _ h e => kept_registrySound.step (fun _ => h) h e

end Sys2Proof.Machine
end

section
/-! PROOFS. The Clearance Unit's evaluation stage by stage (R142 to R151): what each stage writes, and the conditions of a
travel permissive. -/

open Sys2Proof Sys2Proof.Machine

namespace Sys2Proof.Machine

/-! ## Stages that write cranes -/

/-- A run over cranes that writes each from what the others leave alone, seen from one of them. -/
theorem crane_foldl_range {F : State → Nat → CraneClear} {f : State → Nat → State} (hf : ∀ s c, f s c = s.setCrane c (F s c))
    (hF : ∀ s c j, j ≠ c → F (f s j) c = F s c) {n c : Nat} (hc : c < n) (s : State) :
    ((List.range n).foldl f s).crane c = F s c := by
  obtain ⟨u, hu, ht⟩ := foldl_range_at (R := fun s t => F t c = F s c ∧ t.crane c = s.crane c) (f := f) hc
    (fun _ => ⟨rfl, rfl⟩) (fun h k => ⟨k.1.trans h.1, k.2.trans h.2⟩)
    (fun hj s => ⟨hF s c _ hj, by rw [hf, State.crane_setCrane, if_neg hj.symm]⟩) s
  rw [ht.2, hf, State.crane_setCrane, if_pos rfl, hu.1]

/-- A crane beyond those a run writes stands. -/
theorem crane_foldl_range_of_le {F : State → Nat → CraneClear} {f : State → Nat → State}
    (hf : ∀ s c, f s c = s.setCrane c (F s c)) {n c : Nat} (hc : n ≤ c) (s : State) :
    ((List.range n).foldl f s).crane c = s.crane c :=
  foldl_related (R := fun s t => t.crane c = s.crane c) (fun _ => rfl) (fun h k => k.trans h)
    (fun s j hj => by
      have hne : c ≠ j := by have := List.mem_range.1 hj; omega
      rw [hf, State.crane_setCrane, if_neg hne]) s

/-- Stage 1 for every crane (R143). -/
def allowed (s : State) : State := (List.range 3).foldl setAllowances s
/-- Stage 2 for every pair (R144, R145). -/
def gapped (s : State) : State := (List.range 2).foldl setGap s
/-- Stage 3 for every crane (R147). -/
def hooked (s : State) : State := (List.range 3).foldl setHookState s
/-- Stage 4 for every zone (R148). -/
def intruding (s : State) : State := (List.range 12).foldl setIntrusion s
/-- Stages 1 to 4. -/
def measured (s : State) : State := intruding (hooked (gapped (allowed s)))

theorem evaluate_eq (s : State) : evaluate s = (List.range 3).foldl setPermissives (measured s) := rfl

/-! ## Stages 1 to 4 -/

/-- What an evaluation reads and does not write stands: samples, runway, beds, grant-held flags and hall mode. -/
structure Reads (s t : State) : Prop where
  lmap : t.lmap = s.lmap
  rsu : t.rsu = s.rsu
  bsv : t.bsv = s.bsv
  runway : t.clu.runway = s.clu.runway
  mode : t.ppn.mode = s.ppn.mode

namespace Reads

variable {s t u : State}

theorem refl (s : State) : Reads s s := ⟨rfl, rfl, rfl, rfl, rfl⟩

theorem trans (h : Reads s t) (k : Reads t u) : Reads s u :=
  ⟨k.lmap.trans h.lmap, k.rsu.trans h.rsu, k.bsv.trans h.bsv, k.runway.trans h.runway, k.mode.trans h.mode⟩

theorem sampled (h : Reads s t) (c : Nat) : t.sampled c = s.sampled c := by simp only [State.sampled, h.rsu]
theorem bed (h : Reads s t) (z : Nat) : t.bed z = s.bed z := by simp only [State.bed, h.lmap]
theorem grantHeld (h : Reads s t) (z : Nat) : t.grantHeld z = s.grantHeld z := by simp only [State.grantHeld, h.bsv]

theorem foldl {f : State → Nat → State} (hf : ∀ s c, Reads s (f s c)) (l : List Nat) (s : State) : Reads s (l.foldl f s) :=
  foldl_related refl trans (fun s c _ => hf s c) s

theorem setCrane (s : State) (c : Nat) (v : CraneClear) : Reads s (s.setCrane c v) := ⟨rfl, rfl, rfl, rfl, rfl⟩

theorem setGap (s : State) (c : Nat) : Reads s (setGap s c) := by
  unfold Machine.setGap; dsimp only; split <;> exact ⟨rfl, rfl, rfl, rfl, rfl⟩

theorem allowed (s : State) : Reads s (allowed s) := foldl (fun s c => setCrane s c _) _ s
theorem gapped (s : State) : Reads s (gapped s) := foldl setGap _ s
theorem hooked (s : State) : Reads s (hooked s) := foldl (fun s c => setCrane s c _) _ s
theorem intruding (s : State) : Reads s (intruding s) := foldl (f := setIntrusion) (fun _ _ => ⟨rfl, rfl, rfl, rfl, rfl⟩) _ s
theorem measured (s : State) : Reads s (measured s) :=
  (((allowed s).trans (gapped _)).trans (hooked _)).trans (intruding _)
theorem evaluate (s : State) : Reads s (evaluate s) := (measured s).trans (foldl (fun s c => setCrane s c _) _ _)

end Reads

/-- A crane once its allowances are written (R143). -/
def withAllowances (s : State) (c : Nat) : CraneClear :=
  { s.crane c with
    aE := allowance s.clu.runway 1 (s.sampled c).dx, aW := allowance s.clu.runway (-1) (s.sampled c).dx,
    aN := allowance s.clu.runway 1 (s.sampled c).dy, aS := allowance s.clu.runway (-1) (s.sampled c).dy }

/-- The hook of a crane is HIGH (R147). -/
def hookHigh (s : State) (c : Nat) : Bool :=
  (s.sampled c).h.validity.placed && (s.clu.runway.overfly : Int) ≤ (s.sampled c).h.value

theorem crane_allowed (s : State) {c : Nat} (hc : c < 3) : (allowed s).crane c = withAllowances s c :=
  crane_foldl_range (F := withAllowances) (fun _ _ => rfl)
    (fun s c j hj => by simp [withAllowances, Ne.symm hj]) hc s

theorem crane_setGap (s : State) (c j : Nat) : (setGap s c).crane j = s.crane j := by
  unfold setGap; dsimp only; split <;> rfl

@[simp] theorem crane_gapped (s : State) (j : Nat) : (gapped s).crane j = s.crane j :=
  foldl_keeps (g := fun s => s.crane j) (fun s c => crane_setGap s c j) _ s

theorem crane_hooked (s : State) {c : Nat} (hc : c < 3) :
    (hooked s).crane c = { s.crane c with hook := if hookHigh s c then .high else .low } :=
  crane_foldl_range (F := fun s c => { s.crane c with hook := if hookHigh s c then .high else .low }) (fun _ _ => rfl)
    (fun s c j hj => by simp [hookHigh, Ne.symm hj]) hc s

@[simp] theorem crane_intruding (s : State) (j : Nat) : (intruding s).crane j = s.crane j :=
  foldl_keeps (f := setIntrusion) (g := fun s => s.crane j) (fun _ _ => rfl) _ s

@[simp] theorem pair_allowed (s : State) (j : Nat) : (allowed s).pair j = s.pair j :=
  foldl_keeps (f := setAllowances) (g := fun s => s.pair j) (fun _ _ => rfl) _ s

@[simp] theorem pair_hooked (s : State) (j : Nat) : (hooked s).pair j = s.pair j :=
  foldl_keeps (f := setHookState) (g := fun s => s.pair j) (fun _ _ => rfl) _ s

@[simp] theorem pair_intruding (s : State) (j : Nat) : (intruding s).pair j = s.pair j :=
  foldl_keeps (f := setIntrusion) (g := fun s => s.pair j) (fun _ _ => rfl) _ s

/-- A crane once stages 1 to 4 have run. -/
theorem crane_measured (s : State) {c : Nat} (hc : c < 3) :
    (measured s).crane c = { withAllowances s c with hook := if hookHigh s c then .high else .low } := by
  have hr : Reads s (gapped (allowed s)) := (Reads.allowed s).trans (Reads.gapped _)
  simp only [measured, crane_intruding, crane_hooked _ hc, crane_gapped, crane_allowed _ hc, hookHigh, hr.sampled, hr.runway]
  rfl

/-- The figures a gap is worked out from: places and extents in force (R144). -/
theorem pairGap_congr {s t : State} (hr : Reads s t) {c : Nat} (he : (t.crane c).eastIn = (s.crane c).eastIn)
    (hw : (t.crane (c + 1)).westIn = (s.crane (c + 1)).westIn) : pairGap t c = pairGap s c := by
  simp only [pairGap, hr.sampled, he, hw]

theorem pairGap_setGap (s : State) (c j : Nat) : pairGap (setGap s j) c = pairGap s c :=
  pairGap_congr (Reads.setGap s j) (by rw [crane_setGap]) (by rw [crane_setGap])

theorem pairGap_allowed (s : State) {c : Nat} (hc : c < 2) : pairGap (allowed s) c = pairGap s c :=
  pairGap_congr (Reads.allowed s) (by rw [crane_allowed s (by omega)]; rfl) (by rw [crane_allowed s (by omega)]; rfl)

theorem pair_setGap (s : State) (c j : Nat) : (setGap s c).pair j =
    if j = c then ⟨pairGap s c, (s.pair c).orderFault || (pairGap s c).any (· < 0)⟩ else s.pair j := by
  unfold setGap; dsimp only; split <;> simp

/-- A pair once stage 2 has run (R144, R145). -/
theorem pair_measured (s : State) {c : Nat} (hc : c < 2) :
    (measured s).pair c = ⟨pairGap s c, (s.pair c).orderFault || (pairGap s c).any (· < 0)⟩ := by
  have hrun : List.range 2 = [0, 1] := rfl
  obtain rfl | rfl : c = 0 ∨ c = 1 := by omega
  all_goals simp [measured, gapped, hrun, pair_setGap, pairGap_setGap, pairGap_allowed]

theorem intruders_foldl (s : State) {z : Nat} (hz : z < 12) :
    (intruding s).intruders z = (List.range 3).filter fun c => intrudes s c z := by
  obtain ⟨u, hu, ht⟩ := foldl_range_at (R := fun s t => (∀ c, intrudes t c z = intrudes s c z) ∧ t.intruders z = s.intruders z)
    (f := setIntrusion) hz (fun _ => ⟨fun _ => rfl, rfl⟩) (fun h k => ⟨fun c => (k.1 c).trans (h.1 c), k.2.trans h.2⟩)
    (fun hj s => ⟨fun _ => rfl, by simp [setIntrusion, hj.symm]⟩) s
  unfold intruding
  rw [ht.2, setIntrusion, State.intruders_setIntruders, if_pos rfl]
  simp only [hu.1]

/-! ## The conditions of a permissive -/

/-- All that the conditions of a permissive are worked out from, the permissives apart. -/
structure Figures (s t : State) : Prop extends Reads s t where
  pair : ∀ c, (t.pair c).orderFault = (s.pair c).orderFault
  westIn : ∀ c, (t.crane c).westIn = (s.crane c).westIn
  eastIn : ∀ c, (t.crane c).eastIn = (s.crane c).eastIn
  aE : ∀ c, (t.crane c).aE = (s.crane c).aE
  aW : ∀ c, (t.crane c).aW = (s.crane c).aW
  aN : ∀ c, (t.crane c).aN = (s.crane c).aN
  aS : ∀ c, (t.crane c).aS = (s.crane c).aS
  hook : ∀ c, (t.crane c).hook = (s.crane c).hook

theorem gapConds_congr {s t : State} (h : Figures s t) (w : Bool) (c : Nat) (d : Dir) : gapConds t w c d = gapConds s w c d := by
  have hg : ∀ c, pairGap t c = pairGap s c := fun c => pairGap_congr h.toReads (h.eastIn c) (h.westIn _)
  cases d <;> simp only [gapConds, pairConds, endConds, hg, h.sampled, h.runway, h.westIn, h.eastIn, h.aE, h.aW]

theorem keepOutFails_congr {s t : State} (h : Figures s t) (w : Bool) (c : Nat) (d : Dir) (z : Nat) :
    keepOutFails t w c d z = keepOutFails s w c d z := by
  simp only [keepOutFails, h.sampled, h.bed, h.grantHeld, h.runway, h.aE, h.aW, h.aN, h.aS, h.hook]

theorem condsOf_congr {s t : State} (h : Figures s t) (w : Bool) (c : Nat) (d : Dir) : condsOf t w c d = condsOf s w c d := by
  have hf : craneOrderFault t c = craneOrderFault s c := by simp only [craneOrderFault, h.pair]
  have hk : keepOutFails t w c d = keepOutFails s w c d := funext fun z => keepOutFails_congr h w c d z
  simp only [condsOf, h.mode, hf, h.sampled, gapConds_congr h, hk]

/-- A distance that is enough for a permissive that was off is enough for one that was on. -/
theorem falls_of_on {w : Bool} {n : Nat} {r x : Int} (h : falls true n r x = true) : falls w n r x = true := by
  cases w
  · simp only [falls, if_true, decide_eq_true_eq, Bool.false_eq_true, if_false] at h ⊢; omega
  · exact h

/-- When a permissive has no condition against it (R151). -/
theorem condsOf_eq_nil {s : State} {w : Bool} {c : Nat} {d : Dir} : condsOf s w c d = [] ↔
    s.ppn.mode = .opened ∧ craneOrderFault s c = false ∧ (s.sampled c).x.validity.placed = true ∧
    (((d == .n || d == .s) && !(s.sampled c).y.validity.placed) = false) ∧ gapConds s w c d = [] ∧
    ∀ z, z < 12 → keepOutFails s w c d z = false := by
  have hl : ((List.range 12).filter (keepOutFails s w c d)).map Cond.keepOut = [] ↔
      ∀ z, z < 12 → keepOutFails s w c d z = false := by simp [List.filter_eq_nil_iff]
  simp only [condsOf, List.append_eq_nil_iff, hl, and_assoc]
  simp

theorem pairConds_of_off {s : State} {w : Bool} {c me other : Nat} (h : pairConds s w c me other = []) :
    pairConds s true c me other = [] := by
  simp only [pairConds, List.append_eq_nil_iff, ite_eq_left_iff, ite_eq_right_iff, Option.any_eq_true, Bool.and_eq_true] at h ⊢
  refine ⟨h.1, ?_⟩
  rintro ⟨hp, x, hx, hf⟩
  exact h.2 ⟨hp, x, hx, falls_of_on hf⟩

theorem endConds_of_off {s : State} {w : Bool} {c : Nat} {east : Bool} (h : endConds s w c east = []) :
    endConds s true c east = [] := by
  simp only [endConds, ite_eq_right_iff, Bool.and_eq_true] at h ⊢
  rintro ⟨hp, hf⟩
  exact h ⟨hp, falls_of_on hf⟩

theorem gapConds_of_off {s : State} {w : Bool} {c : Nat} {d : Dir} (h : gapConds s w c d = []) : gapConds s true c d = [] := by
  cases d with
  | w =>
    simp only [gapConds] at h ⊢; split at h
    · next hc => rw [if_pos hc]; exact endConds_of_off h
    · next hc => rw [if_neg hc]; exact pairConds_of_off h
  | e =>
    simp only [gapConds] at h ⊢; split at h
    · next hc => rw [if_pos hc]; exact endConds_of_off h
    · next hc => rw [if_neg hc]; exact pairConds_of_off h
  | n => rfl
  | s => rfl

theorem keepOutFails_of_on {s : State} {w : Bool} {c : Nat} {d : Dir} {z : Nat} (h : keepOutFails s true c d z = true) :
    keepOutFails s w c d z = true := by
  cases d <;>
  · simp only [keepOutFails, Bool.and_eq_true] at h ⊢
    grind [falls_of_on]

/-- What holds nothing against a permissive that was off, with the hysteresis, holds nothing against one that was on. -/
theorem condsOf_of_off {s : State} {w : Bool} {c : Nat} {d : Dir} (h : condsOf s w c d = []) : condsOf s true c d = [] := by
  obtain ⟨hm, hf, hx, hy, hg, hk⟩ := condsOf_eq_nil.1 h
  refine condsOf_eq_nil.2 ⟨hm, hf, hx, hy, gapConds_of_off hg, fun z hz => ?_⟩
  by_contra hne
  have := keepOutFails_of_on (w := w) (by simpa using hne)
  rw [hk z hz] at this; cases this

/-! ## Stage 5, and the permissives at a grant -/

/-- The crane with the permissive of each direction as `f` gives it. -/
def CraneClear.mapPermissives (v : CraneClear) (f : Dir → Permissive → Permissive) : CraneClear :=
  { v with pW := f .w v.pW, pE := f .e v.pE, pN := f .n v.pN, pS := f .s v.pS }

@[simp] theorem permissive_mapPermissives (v : CraneClear) (f : Dir → Permissive → Permissive) (d : Dir) :
    (v.mapPermissives f).permissive d = f d (v.permissive d) := by cases d <;> rfl

/-- Writing permissives leaves the figures. -/
theorem figures_mapPermissives (s : State) (c : Nat) (f : Dir → Permissive → Permissive) :
    Figures s (s.setCrane c ((s.crane c).mapPermissives f)) where
  toReads := Reads.setCrane s c _
  pair _ := rfl
  westIn j := by rw [State.crane_setCrane]; split <;> simp_all [CraneClear.mapPermissives]
  eastIn j := by rw [State.crane_setCrane]; split <;> simp_all [CraneClear.mapPermissives]
  aE j := by rw [State.crane_setCrane]; split <;> simp_all [CraneClear.mapPermissives]
  aW j := by rw [State.crane_setCrane]; split <;> simp_all [CraneClear.mapPermissives]
  aN j := by rw [State.crane_setCrane]; split <;> simp_all [CraneClear.mapPermissives]
  aS j := by rw [State.crane_setCrane]; split <;> simp_all [CraneClear.mapPermissives]
  hook j := by rw [State.crane_setCrane]; split <;> simp_all [CraneClear.mapPermissives]

theorem Figures.refl (s : State) : Figures s s :=
  ⟨Reads.refl s, fun _ => rfl, fun _ => rfl, fun _ => rfl, fun _ => rfl, fun _ => rfl, fun _ => rfl, fun _ => rfl, fun _ => rfl⟩

theorem Figures.trans {s t u : State} (h : Figures s t) (k : Figures t u) : Figures s u where
  toReads := h.toReads.trans k.toReads
  pair c := (k.pair c).trans (h.pair c)
  westIn c := (k.westIn c).trans (h.westIn c)
  eastIn c := (k.eastIn c).trans (h.eastIn c)
  aE c := (k.aE c).trans (h.aE c)
  aW c := (k.aW c).trans (h.aW c)
  aN c := (k.aN c).trans (h.aN c)
  aS c := (k.aS c).trans (h.aS c)
  hook c := (k.hook c).trans (h.hook c)

/-- A run that works out the permissives of every crane by `g`, which reads the figures alone. -/
theorem permissives_run {g : State → Nat → Dir → Permissive → Permissive} {f : State → Nat → State}
    (hf : ∀ s c, f s c = s.setCrane c ((s.crane c).mapPermissives (g s c)))
    (hg : ∀ s t c, Figures s t → g t c = g s c) (s : State) :
    Figures s ((List.range 3).foldl f s) ∧
    (∀ c, c < 3 → ((List.range 3).foldl f s).crane c = (s.crane c).mapPermissives (g s c)) ∧
    ∀ c, 3 ≤ c → ((List.range 3).foldl f s).crane c = s.crane c := by
  refine ⟨foldl_related Figures.refl Figures.trans (fun s c _ => hf s c ▸ figures_mapPermissives s c _) s, fun c hc => ?_,
    fun c hc => crane_foldl_range_of_le hf hc s⟩
  refine crane_foldl_range (F := fun s c => (s.crane c).mapPermissives (g s c)) hf (fun s c j hj => ?_) hc s
  rw [hf, hg _ _ c (figures_mapPermissives s j _), State.crane_setCrane, if_neg hj.symm]

theorem permissiveAt_congr {s t : State} (c : Nat) (h : Figures s t) : permissiveAt t c = permissiveAt s c := by
  funext d p; simp only [permissiveAt, condsOf_congr h]

theorem permissiveAtGrant_congr {s t : State} (c : Nat) (h : Figures s t) : permissiveAtGrant t c = permissiveAtGrant s c := by
  funext d p; simp only [permissiveAtGrant, permissiveAt_congr c h]

/-- Stage 5 writes the permissives of the three cranes by the figures stages 1 to 4 leave (R151). -/
theorem evaluate_run (s : State) : Figures (measured s) (evaluate s) ∧
    (∀ c, c < 3 → (evaluate s).crane c = ((measured s).crane c).mapPermissives (permissiveAt (measured s) c)) ∧
    ∀ c, 3 ≤ c → (evaluate s).crane c = (measured s).crane c :=
  permissives_run (g := permissiveAt) (fun _ _ => rfl) (fun _ _ c h => permissiveAt_congr c h) (measured s)

/-- The permissives at a grant (R152). -/
theorem evaluateGrant_run (s : State) : Figures s (evaluateGrant s) ∧
    (∀ c, c < 3 → (evaluateGrant s).crane c = (s.crane c).mapPermissives (permissiveAtGrant s c)) ∧
    ∀ c, 3 ≤ c → (evaluateGrant s).crane c = s.crane c :=
  permissives_run (g := permissiveAtGrant) (fun _ _ => rfl) (fun _ _ c h => permissiveAtGrant_congr c h) s

@[simp] theorem pair_evaluate (s : State) (j : Nat) : (evaluate s).pair j = (measured s).pair j :=
  foldl_keeps (f := setPermissives) (g := fun s => s.pair j) (fun _ _ => rfl) _ _

@[simp] theorem intruders_evaluate (s : State) (z : Nat) : (evaluate s).intruders z = (measured s).intruders z :=
  foldl_keeps (f := setPermissives) (g := fun s => s.intruders z) (fun _ _ => rfl) _ _

/-- No stage but the last writes a permissive. -/
theorem permissive_measured (s : State) {c : Nat} (hc : c < 3) (d : Dir) :
    ((measured s).crane c).permissive d = (s.crane c).permissive d := by
  rw [crane_measured s hc]; cases d <;> rfl

theorem crane_measured_of_le (s : State) {c : Nat} (hc : 3 ≤ c) : (measured s).crane c = s.crane c := by
  have h1 : (allowed s).crane c = s.crane c := crane_foldl_range_of_le (F := withAllowances) (fun _ _ => rfl) hc s
  have h3 : ∀ s, (hooked s).crane c = s.crane c := fun s =>
    crane_foldl_range_of_le (F := fun s c => { s.crane c with hook := if hookHigh s c then .high else .low })
      (fun _ _ => rfl) hc s
  simp only [measured, crane_intruding, h3, crane_gapped, h1]

end Sys2Proof.Machine
end

section
/-! PROOFS. The travel permissives stay free of the conditions of R151: every single change either leaves what the
conditions are worked out from, eases it, or works the permissives out again. -/

open Sys2Proof Sys2Proof.Machine

namespace Sys2Proof.Machine

/-- What the conditions of a permissive are worked out from is in `t` as in `s`, or easier: a zone that holds no grant, a
pair without its order fault, the pieces on a bed. -/
structure Eases (s t : State) : Prop where
  rsu : ∀ c, t.sampled c = s.sampled c
  clu : t.clu.runway = s.clu.runway
  mode : t.ppn.mode = s.ppn.mode
  bed : ∀ z, { t.bed z with pieces := [] } = { s.bed z with pieces := [] }
  held : ∀ z, t.grantHeld z = true → s.grantHeld z = true
  fault : ∀ c, (t.pair c).orderFault = true → (s.pair c).orderFault = true
  westIn : ∀ c, (t.crane c).westIn = (s.crane c).westIn
  eastIn : ∀ c, (t.crane c).eastIn = (s.crane c).eastIn
  aE : ∀ c, (t.crane c).aE = (s.crane c).aE
  aW : ∀ c, (t.crane c).aW = (s.crane c).aW
  aN : ∀ c, (t.crane c).aN = (s.crane c).aN
  aS : ∀ c, (t.crane c).aS = (s.crane c).aS
  hook : ∀ c, (t.crane c).hook = (s.crane c).hook

theorem keepOutFails_eases {s t : State} (h : Eases s t) {w : Bool} {c : Nat} {d : Dir} {z : Nat}
    (hk : keepOutFails t w c d z = true) : keepOutFails s w c d z = true := by
  have hb := h.bed z
  simp only [BedRec.mk.injEq] at hb
  simp only [keepOutFails, h.rsu, h.clu, h.aE, h.aW, h.aN, h.aS, h.hook, hb, Bool.and_eq_true] at hk ⊢
  simp only [hk, h.held z hk.1.1.1.1, and_self]

theorem condsOf_eases {s t : State} (h : Eases s t) {w : Bool} {c : Nat} {d : Dir} (hc : condsOf s w c d = []) :
    condsOf t w c d = [] := by
  obtain ⟨hm, hf, hx, hy, hg, hk⟩ := condsOf_eq_nil.1 hc
  have hgap : ∀ c, pairGap t c = pairGap s c := fun c => by simp only [pairGap, h.rsu, h.eastIn, h.westIn]
  have hconds : gapConds t w c d = gapConds s w c d := by
    cases d <;> simp only [gapConds, pairConds, endConds, hgap, h.rsu, h.clu, h.westIn, h.eastIn, h.aE, h.aW]
  refine condsOf_eq_nil.2 ⟨h.mode.trans hm, ?_, by rw [h.rsu, hx], by rw [h.rsu, hy], hconds.trans hg, fun z hz => ?_⟩
  · have hstands : ∀ c, (s.pair c).orderFault = false → (t.pair c).orderFault = false := fun c hs => by
      by_contra hne
      have := h.fault c (by simpa using hne)
      rw [hs] at this; cases this
    simp only [craneOrderFault, Bool.or_eq_false_iff, Bool.and_eq_false_imp] at hf ⊢
    exact ⟨fun hl => hstands c (hf.1 hl), fun hl => hstands (c - 1) (hf.2 hl)⟩
  · by_contra hne
    have := keepOutFails_eases h (by simpa using hne)
    rw [hk z hz] at this; cases this

/-- Permissives that stand stay free of conditions where what these are worked out from is eased. -/
theorem TravelSafe.eases {s t : State} (T : TravelSafe s) (h : Eases s t)
    (hp : ∀ c d, ((t.crane c).permissive d).on = true → ((s.crane c).permissive d).on = true) : TravelSafe t :=
  fun c d hon => ⟨(T c d (hp c d hon)).1, condsOf_eases h (T c d (hp c d hon)).2⟩

theorem travelSafe_of_off {s : State} (h : ∀ c d, ((s.crane c).permissive d).on = false) : TravelSafe s :=
  fun c d hon => by rw [h c d] at hon; cases hon

/-- Beyond the three cranes no permissive is on. -/
theorem TravelSafe.beyond {s : State} (T : TravelSafe s) {c : Nat} (hc : 3 ≤ c) (d : Dir) :
    ((s.crane c).permissive d).on = false := by
  by_contra hne
  have := (T c d (by simpa using hne)).1
  omega

/-- Outside the OPEN hall no permissive is on. -/
theorem TravelSafe.off {s : State} (T : TravelSafe s) (hm : s.ppn.mode ≠ .opened) (c : Nat) (d : Dir) :
    ((s.crane c).permissive d).on = false := by
  by_contra hne
  exact hm (condsOf_eq_nil.1 (T c d (by simpa using hne)).2).1

/-- A crane amended but for its permissives, extents, allowances and hook state. -/
theorem TravelSafe.amendCrane {s : State} (T : TravelSafe s) (c k w e : Nat) :
    TravelSafe (s.setCrane c { s.crane c with capacity := k, west := w, east := e }) := by
  have hcrane : ∀ j, (s.setCrane c { s.crane c with capacity := k, west := w, east := e }).crane j =
      if j = c then { s.crane j with capacity := k, west := w, east := e } else s.crane j := fun j => by
    rw [State.crane_setCrane]; split <;> simp_all
  refine T.eases ⟨fun _ => rfl, rfl, rfl, fun _ => rfl, fun _ h => h, fun _ h => h, fun j => ?_, fun j => ?_, fun j => ?_,
    fun j => ?_, fun j => ?_, fun j => ?_, fun j => ?_⟩ fun j d h => ?_
  case refine_8 => rw [hcrane] at h; split at h <;> cases d <;> exact h
  all_goals rw [hcrane]; split <;> rfl

/-- A revocation lowers at most grant-held flags. -/
theorem TravelSafe.revoke {s : State} (T : TravelSafe s) (t : Nat) (c : Cause) : TravelSafe (revoke s t c) := by
  have hcrane : ∀ j, (Machine.revoke s t c).crane j = s.crane j := fun j => by simp only [State.crane, clu_revoke]
  refine T.eases ⟨fun j => by simp only [State.sampled, rsu_revoke], by rw [clu_revoke], ppn_mode_revoke ..,
    fun j => by simp only [State.bed, lmap_revoke], fun z hz => ?_, fun j hj => ?_, ?_, ?_, ?_, ?_, ?_, ?_, ?_⟩ fun j d h => ?_
  · cases hg : (s.burn t).grant with
    | none => rwa [revoke_of_no_grant hg] at hz
    | some g =>
      rw [grantHeld_revoke hg] at hz; split at hz
      · cases hz
      · exact hz
  · simpa only [State.pair, clu_revoke] using hj
  case refine_10 => rwa [hcrane] at h
  all_goals exact fun j => by rw [hcrane]

theorem TravelSafe.grantMade {s : State} (T : TravelSafe s) {t : State} (hc : ∀ c, t.crane c = s.crane c) :
    TravelSafe (evaluateGrant t) := by
  obtain ⟨hf, hlow, hhigh⟩ := evaluateGrant_run t
  intro c d hon
  obtain hlt | hge := Nat.lt_or_ge c 3
  · refine ⟨hlt, ?_⟩
    rw [hlow c hlt, permissive_mapPermissives, permissiveAtGrant] at hon
    rw [condsOf_congr hf]
    split at hon
    · next hp =>
      simp only [permissiveAt, List.isEmpty_iff] at hon
      exact condsOf_of_off hon
    · next hp => exact absurd hon hp
  · rw [hhigh c hge, hc, T.beyond hge] at hon; cases hon

/-- Stage 5 works out the permissives of the three cranes from the figures that stand after the evaluation. -/
theorem travelSafe_evaluate {s : State} (h : ∀ c, 3 ≤ c → ∀ d, ((s.crane c).permissive d).on = false) :
    TravelSafe (evaluate s) := by
  obtain ⟨hf, hlow, hhigh⟩ := evaluate_run s
  intro c d hon
  obtain hlt | hge := Nat.lt_or_ge c 3
  · refine ⟨hlt, ?_⟩
    rw [hlow c hlt, permissive_mapPermissives] at hon
    simp only [permissiveAt, List.isEmpty_iff] at hon
    rw [condsOf_congr hf]
    exact condsOf_of_off hon
  · rw [hhigh c hge, crane_measured_of_le s hge, h c hge d] at hon; cases hon

theorem crane_applySettings_of_le (s : State) {c : Nat} (hc : 3 ≤ c) : (applySettings s).crane c = s.crane c := by
  have h := crane_foldl_range_of_le (F := fun s c => { s.crane c with westIn := (s.crane c).west, eastIn := (s.crane c).east })
    (f := fun s c => s.setCrane c { s.crane c with westIn := (s.crane c).west, eastIn := (s.crane c).east })
    (fun _ _ => rfl) hc s
  unfold applySettings; dsimp only; split
  · exact h
  · exact h

/-- The judging of the axes leaves the Clearance Unit. -/
theorem clu_judged (cl : Collecting) (s : State) : ((List.range 3).foldl (judgeCrane cl) s).clu = s.clu :=
  foldl_holds (Q := fun t => t.clu = s.clu) (fun _ c h => judgeCrane_holds (Q := fun t => t.clu = s.clu) (fun _ _ _ h => h)
    (fun _ _ _ h => h) (fun _ _ _ h => h) (fun _ _ _ h => h) cl c h) _ rfl

theorem TravelSafe.completeSample {s : State} (T : TravelSafe s) (cl : Collecting) : TravelSafe (completeSample s cl) := by
  refine revokeIntruded_holds (fun _ t c h => h.revoke t c) (travelSafe_evaluate fun c hc d => ?_)
  have h : (takeSample cl ((List.range 3).foldl (judgeCrane cl) (applySettings s))).crane c = (applySettings s).crane c := by
    simp only [State.crane, takeSample, clu_judged]
  rw [h, crane_applySettings_of_le s hc, T.beyond hc]

theorem crane_stopPermissives_of_le (s : State) {c : Nat} (hc : 3 ≤ c) : (stopPermissives s).crane c = s.crane c :=
  crane_foldl_range_of_le
    (F := fun s c => { s.crane c with
      pW := (s.crane c).pW.stop, pE := (s.crane c).pE.stop, pN := (s.crane c).pN.stop, pS := (s.crane c).pS.stop })
    (fun _ _ => rfl) hc s

/-- As the hall stops every permissive goes off (R153). -/
theorem TravelSafe.stopHall {s : State} (T : TravelSafe s) : TravelSafe (stopHall s) := by
  refine travelSafe_of_off fun c d => ?_
  obtain hlt | hge := Nat.lt_or_ge c 3
  · exact (stopHall_permissive s hlt d).1
  · have h : (revokeAll (raise (setMode s .stopped) .hall .hallStopped) .hallStop).clu = s.clu :=
      (foldl_keeps (g := State.clu) (fun s t => clu_revoke s t _) _ _).trans rfl
    rw [stopHall_eq, crane_stopPermissives_of_le _ hge, State.crane, h]
    exact T.beyond hge d

theorem clu_clearRegistry (s : State) : (clearRegistry s).clu = s.clu := by
  unfold clearRegistry; dsimp only; split <;> rfl

theorem kept_travelSafe : Kept TravelSafe where
  reply h _ := h
  stopInput h _ := h
  mask h _ := h
  notice h _ _ := h
  unitRead h _ := h
  markSeen h := h
  fse h _ := h
  link h _ _ := h
  station h _ _ _ := h
  row h _ _ _ := h
  slot h _ _ := h
  bedPieces h z l := by
    refine h.eases ⟨fun _ => rfl, rfl, rfl, fun j => ?_, fun _ h => h, fun _ h => h, fun _ => rfl, fun _ => rfl, fun _ => rfl,
      fun _ => rfl, fun _ => rfl, fun _ => rfl, fun _ => rfl⟩ fun _ _ h => h
    rw [State.bed_setBed]; split <;> simp_all
  bed h hm z v := travelSafe_of_off fun c d => h.off (by rw [hm]; decide) c d
  hook h _ _ := h
  table h _ _ := h
  zone h _ _ := h
  marks h _ _ := h
  monitor h _ _ := h
  torch h _ _ := h
  burnTimes h _ _ := h
  channel h _ _ := h
  axis h _ _ := h
  hoist h _ _ := h
  queue h _ _ := h
  endedMove h _ _ := h
  nextId h _ := h
  piece h _ _ _ _ _ := h
  counters h _ _ := h
  birth h _ _ _ _ _ := h
  death h _ _ _ := h
  grantEnds h t g e _ := by
    refine h.eases ⟨fun _ => rfl, rfl, rfl, fun _ => rfl, fun z hz => ?_, fun _ h => h, fun _ => rfl, fun _ => rfl,
      fun _ => rfl, fun _ => rfl, fun _ => rfl, fun _ => rfl, fun _ => rfl⟩ fun _ _ h => h
    rw [State.grantHeld_setGrantHeld] at hz; split at hz
    · cases hz
    · exact hz
  grantMade h _ _ _ _ _ := h.grantMade fun _ => rfl
  grantTime h _ _ _ _ := h
  burnState h _ _ _ _ := h
  orderFault h c := by
    refine h.eases ⟨fun _ => rfl, rfl, rfl, fun _ => rfl, fun _ h => h, fun j hj => ?_, fun _ => rfl, fun _ => rfl,
      fun _ => rfl, fun _ => rfl, fun _ => rfl, fun _ => rfl, fun _ => rfl⟩ fun _ _ h => h
    rw [State.pair_setPair] at hj; split at hj
    · cases hj
    · exact hj
  craneFigures h c k w e := h.amendCrane c k w e
  runwayNext h _ := h
  collect h _ _ _ := h
  collectRead h _ _ _ _ := h
  missTick h _ _ _ _ := h
  complete h cl _ := h.completeSample cl
  openMode h hm := travelSafe_of_off fun c d => h.off hm c d
  stopHall h := h.stopHall
  clear {s} h hm := travelSafe_of_off fun c d => by
    rw [State.crane, clu_clearRegistry]; exact h.off (by rw [hm]; decide) c d
  reset _ := travelSafe_of_off fun _ d => by cases d <;> rfl

/-- Settles O6: the evaluations work the permissives out anew, the hall's stop puts them off, and every other change leaves
what holds them off, or eases it. -/
theorem stepKeepsTravelSafe : Obligations.StepKeepsTravelSafe :=
  fun _ _ h e => kept_travelSafe.step (fun _ => h) h e

end Sys2Proof.Machine
end

section
/-! PROOFS. Torch permissives and grant-held flags stay with the grants, and bindings with their roles (R96, R97, R177). -/

open Sys2Proof Sys2Proof.Machine

namespace Sys2Proof.Machine

/-! ## Bindings -/

theorem bindingsOk_completeSample {s : State} (h : BindingsOk s) (cl : Collecting) : BindingsOk (completeSample s cl) :=
  completeSample_holds (Q := BindingsOk) (fun _ _ h => h) (fun _ _ h => h) (fun _ _ _ h => h)
    (fun s t c h => by unfold BindingsOk State.station; rw [slc_revoke]; exact h) cl h

theorem bindingsOk_stopHall {s : State} (h : BindingsOk s) : BindingsOk (stopHall s) := by
  obtain ⟨-, -, -, -, -, -, hslc⟩ := stopHall_blocks s
  unfold BindingsOk State.station; rw [hslc]; exact h

theorem bindingsOk_clearRegistry {s : State} (h : BindingsOk s) : BindingsOk (clearRegistry s) := by
  unfold clearRegistry; dsimp only; split <;> exact h

theorem bindingsOk_reset : BindingsOk State.reset := nofun

/-- Only SET_STATION writes a binding, and it takes a unit of the role (R177). -/
theorem kept_bindingsOk : Kept BindingsOk where
  reply h _ := h
  stopInput h _ := h
  mask h _ := h
  notice h _ _ := h
  unitRead h _ := h
  markSeen h := h
  fse h _ := h
  link h l e := by unfold BindingsOk State.station; dsimp only; rw [e]; exact h
  station {s} h a v hv := by
    intro b r u hb
    rw [State.station_setStation] at hb
    split at hb
    · obtain hv | hv := hv
      · exact h a r u (hv ▸ hb)
      · exact hv r u hb
    · exact h b r u hb
  row h _ _ _ := h
  slot h _ _ := h
  bedPieces h _ _ := h
  bed h _ _ _ := h
  hook h _ _ := h
  table h _ _ := h
  zone h _ _ := h
  marks h _ _ := h
  monitor h _ _ := h
  torch h _ _ := h
  burnTimes h _ _ := h
  channel h _ _ := h
  axis h _ _ := h
  hoist h _ _ := h
  queue h _ _ := h
  endedMove h _ _ := h
  nextId h _ := h
  piece h _ _ _ _ _ := h
  counters h _ _ := h
  birth h _ _ _ _ _ := h
  death h _ _ _ := h
  grantEnds h _ _ _ _ := h
  grantMade h _ _ _ _ _ := h
  grantTime h _ _ _ _ := h
  burnState h _ _ _ _ := h
  orderFault h _ := h
  craneFigures h _ _ _ _ := h
  runwayNext h _ := h
  collect h _ _ _ := h
  collectRead h _ _ _ _ := h
  missTick h _ _ _ _ := h
  complete h cl _ := bindingsOk_completeSample h cl
  openMode h _ := h
  stopHall h := bindingsOk_stopHall h
  clear h _ := bindingsOk_clearRegistry h
  reset _ := bindingsOk_reset

/-! ## Torches -/

/-- What TorchSafe says of the burn record of table `t`, the hall mode apart. -/
structure Burn.Sound (t : Nat) (b : Burn) : Prop where
  permissive : b.permissive = true ↔ b.state = .granted
  grant : b.state = .granted ↔ b.grant.isSome = true
  table : b.permissive = true → t < 6

/-- TorchSafe but for the hall mode, which changes before the grants end (R105). -/
structure Torches (s : State) : Prop where
  burn : ∀ t, (s.burn t).Sound t
  held : ∀ z, s.grantHeld z = true ↔ ∃ g, (s.burn (zoneTable z)).grant = some g ∧ g.ref.zone (zoneTable z) = z

theorem torchSafe_iff {s : State} : TorchSafe s ↔ Torches s ∧ ∀ t, (s.burn t).permissive = true → s.ppn.mode = .opened :=
  ⟨fun ⟨hb, hz⟩ => ⟨⟨fun t => ⟨(hb t).1, (hb t).2.1, fun h => ((hb t).2.2 h).1⟩, hz⟩, fun t h => ((hb t).2.2 h).2⟩,
    fun ⟨⟨hb, hz⟩, hm⟩ => ⟨fun t => ⟨(hb t).permissive, (hb t).grant, fun h => ⟨(hb t).table h, hm t h⟩⟩, hz⟩⟩

theorem Burn.sound_idle (t : Nat) (e : Option (PartRef × GrantEnd)) : Burn.Sound t ⟨.idle, none, e, false⟩ := by
  constructor <;> simp

theorem Burn.Sound.off {t : Nat} {b : Burn} (h : b.Sound t) (hn : b.grant = none ∨ b.state = .fault) :
    b.grant = none ∧ b.permissive = false := by
  have hg : b.state ≠ .granted := by
    obtain hn | hn := hn
    · exact fun he => by simpa [hn] using h.grant.1 he
    · rw [hn]; decide
  constructor
  · by_contra hne; exact hg (h.grant.2 (Option.isSome_iff_ne_none.2 hne))
  · by_contra hne; exact hg (h.permissive.1 (by simpa using hne))

theorem zoneTable_zone (r : PartRef) (t : Nat) : zoneTable (r.zone t) = t := zoneTable_zoneOf t r.bed

/-- The grant of table `t` ends, and with it the flag of its zone. -/
theorem Torches.ends {s u : State} (T : Torches s) {t : Nat} {g : Grant} {e : Option (PartRef × GrantEnd)}
    (hg : (s.burn t).grant = some g) (hb : ∀ j, u.burn j = if j = t then ⟨.idle, none, e, false⟩ else s.burn j)
    (hh : ∀ j, u.grantHeld j = if j = g.ref.zone t then false else s.grantHeld j) : Torches u := by
  refine ⟨fun j => ?_, fun z => ?_⟩
  · rw [hb]; split
    · exact Burn.sound_idle _ _
    · exact T.burn j
  · rw [hh, hb]
    by_cases ht : zoneTable z = t
    · rw [if_pos ht]
      have hold := T.held z
      rw [ht, hg] at hold
      by_cases hz : z = g.ref.zone t
      · simp [hz]
      · have : s.grantHeld z = false := by
          by_contra hne
          obtain ⟨g', e, hz'⟩ := hold.1 (by simpa using hne)
          cases e; exact hz hz'.symm
        simp [hz, this]
    · have hz : z ≠ g.ref.zone t := fun hz => ht (hz ▸ zoneTable_zone g.ref t)
      rw [if_neg ht, if_neg hz]; exact T.held z

/-- A table without a grant is given one, and its zone the flag. -/
theorem Torches.made {s u : State} (T : Torches s) {t : Nat} {g : Grant} (ht : t < 6) (hs : (s.burn t).state ≠ .granted)
    (hb : ∀ j, u.burn j = if j = t then ⟨.granted, some g, none, true⟩ else s.burn j)
    (hh : ∀ j, u.grantHeld j = if j = g.ref.zone t then true else s.grantHeld j) : Torches u := by
  refine ⟨fun j => ?_, fun z => ?_⟩
  · rw [hb]; split
    · next hj => constructor <;> simp [hj, ht]
    · exact T.burn j
  · rw [hh, hb]
    by_cases hzt : zoneTable z = t
    · rw [if_pos hzt]
      by_cases hz : z = g.ref.zone t
      · simp [hz, zoneTable_zone]
      · have : s.grantHeld z = false := by
          by_contra hne
          obtain ⟨g', e, -⟩ := (T.held z).1 (by simpa using hne)
          rw [hzt] at e
          exact hs ((T.burn t).grant.2 (by simp [e]))
        simp [hz, hzt, this, Ne.symm hz]
    · have hz : z ≠ g.ref.zone t := fun hz => hzt (hz ▸ zoneTable_zone g.ref t)
      rw [if_neg hzt, if_neg hz]; exact T.held z

/-- A table's burn record changes, its grant the same but for its times. -/
theorem Torches.amend {s u : State} (T : Torches s) {t : Nat} {b : Burn} (hs : b.Sound t)
    (hg : b.grant.map Grant.ref = (s.burn t).grant.map Grant.ref) (hb : ∀ j, u.burn j = if j = t then b else s.burn j)
    (hh : ∀ j, u.grantHeld j = s.grantHeld j) : Torches u := by
  refine ⟨fun j => ?_, fun z => ?_⟩
  · rw [hb]; split
    · next hj => exact hj ▸ hs
    · exact T.burn j
  · rw [hh, hb, T.held]
    by_cases ht : zoneTable z = t
    · rw [if_pos ht]
      have hex : ∀ o : Option Grant, (∃ g, o = some g ∧ g.ref.zone (zoneTable z) = z) ↔
          ∃ r, o.map Grant.ref = some r ∧ r.zone (zoneTable z) = z := fun o => by cases o <;> simp
      rw [hex, hex, hg, ht]
    · rw [if_neg ht]

theorem Torches.revoke {s : State} (T : Torches s) (t : Nat) (c : Cause) : Torches (revoke s t c) := by
  cases hg : (s.burn t).grant with
  | none => rwa [revoke_of_no_grant hg]
  | some g => exact T.ends hg (burn_revoke hg c) (grantHeld_revoke hg c)

/-- A revocation puts no permissive on. -/
theorem permissive_of_revoke {s : State} {t j : Nat} {c : Cause} (h : ((Machine.revoke s t c).burn j).permissive = true) :
    (s.burn j).permissive = true := by
  cases hg : (s.burn t).grant with
  | none => rwa [revoke_of_no_grant hg] at h
  | some g =>
    rw [burn_revoke hg] at h; split at h
    · cases h
    · exact h

theorem TorchSafe.revoke {s : State} (T : TorchSafe s) (t : Nat) (c : Cause) : TorchSafe (revoke s t c) := by
  obtain ⟨hT, hm⟩ := torchSafe_iff.1 T
  exact torchSafe_iff.2 ⟨hT.revoke t c, fun j hj => (ppn_mode_revoke s t c).trans (hm j (permissive_of_revoke hj))⟩

theorem TorchSafe.completeSample {s : State} (T : TorchSafe s) (cl : Collecting) : TorchSafe (completeSample s cl) :=
  completeSample_holds (Q := TorchSafe) (fun _ _ h => h) (fun _ _ h => h) (fun _ _ _ h => h) (fun _ t c h => h.revoke t c) cl T

/-- Where every grant has ended no torch permissive is on. -/
theorem Torches.safe_of_no_grant {s : State} (T : Torches s) (h : ∀ t, t < 6 → (s.burn t).grant = none) : TorchSafe s :=
  torchSafe_iff.2 ⟨T, fun t ht => absurd (h t ((T.burn t).table ht)) (Option.isSome_iff_ne_none.1
    ((T.burn t).grant.1 ((T.burn t).permissive.1 ht)))⟩

theorem TorchSafe.stopHall {s : State} (T : TorchSafe s) : TorchSafe (stopHall s) := by
  obtain ⟨hT, -⟩ := torchSafe_iff.1 T
  have hr : Torches (revokeAll (raise (setMode s .stopped) .hall .hallStopped) .hallStop) :=
    foldl_holds (Q := Torches) (fun _ t h => h.revoke t _) _ (s := raise (setMode s .stopped) .hall .hallStopped)
      ⟨hT.burn, hT.held⟩
  have h : Torches (Machine.stopHall s) :=
    ⟨fun t => by rw [stopHall_eq, burn_stopPermissives]; exact hr.burn t,
      fun z => by rw [stopHall_eq, burn_stopPermissives, grantHeld_stopPermissives]; exact hr.held z⟩
  refine h.safe_of_no_grant fun t ht => ?_
  cases hg : (s.burn t).grant with
  | none => rw [stopHall_burn_of_no_grant ht hg, hg]
  | some g => rw [(stopHall_of_grant ht hg).1]

/-- CLEAR_REGISTRY forgets the ended grants alone (R190). -/
theorem burn_clearRegistry {s : State} (h : Canonical s) (t : Nat) :
    (clearRegistry s).burn t = { s.burn t with ended := none } := by
  have hb : (clearRegistry s).burn t = bankGet (fun _ => Burn.reset)
      (bankMap (fun _ => Burn.reset) (fun _ v => { v with ended := none }) s.bsv.burns) t := by
    unfold clearRegistry; dsimp only; split <;> rfl
  rw [hb, bankGet_bankMap _ _ h.2.2.2.1.1 _ rfl]; rfl

theorem grantHeld_clearRegistry (s : State) (z : Nat) : (clearRegistry s).grantHeld z = s.grantHeld z := by
  unfold clearRegistry; dsimp only; split <;> rfl

theorem mode_clearRegistry (s : State) : (clearRegistry s).ppn.mode = s.ppn.mode := by
  unfold clearRegistry; dsimp only; split <;> rfl

theorem TorchSafe.clearRegistry {s : State} (T : TorchSafe s) (h : Canonical s) : TorchSafe (clearRegistry s) := by
  obtain ⟨hT, hm⟩ := torchSafe_iff.1 T
  refine torchSafe_iff.2 ⟨⟨fun t => ?_, fun z => ?_⟩, fun t ht => ?_⟩
  · rw [burn_clearRegistry h]; exact ⟨(hT.burn t).permissive, (hT.burn t).grant, (hT.burn t).table⟩
  · rw [burn_clearRegistry h, grantHeld_clearRegistry]; exact hT.held z
  · rw [burn_clearRegistry h] at ht; rw [mode_clearRegistry]; exact hm t ht

theorem torchSafe_reset : TorchSafe State.reset := by
  refine torchSafe_iff.2 ⟨⟨fun t => Burn.sound_idle t none, fun z => ?_⟩, nofun⟩
  exact ⟨nofun, fun ⟨g, e, _⟩ => by cases e⟩

@[simp] theorem burn_evaluateGrant (s : State) (j : Nat) : (evaluateGrant s).burn j = s.burn j := by
  rw [State.burn, (evaluateGrant_run s).1.bsv]; rfl

@[simp] theorem grantHeld_evaluateGrant (s : State) (j : Nat) : (evaluateGrant s).grantHeld j = s.grantHeld j :=
  (evaluateGrant_run s).1.grantHeld j

/-- The torches are safe in a canonical state whose bindings name units of their roles. -/
structure TorchKept (s : State) : Prop where
  canonical : Canonical s
  bindings : BindingsOk s
  torch : TorchSafe s

/-- The changes that concern neither grants nor hall mode need no more than what the other two invariants need. -/
theorem kept_torchSafe : Kept TorchKept where
  reply h r := ⟨kept_canonical.reply h.1 r, h.2, h.3⟩
  stopInput h b := ⟨kept_canonical.stopInput h.1 b, h.2, h.3⟩
  mask h m := ⟨kept_canonical.mask h.1 m, h.2, h.3⟩
  notice h n v := ⟨kept_canonical.notice h.1 n v, h.2, h.3⟩
  unitRead h u := ⟨kept_canonical.unitRead h.1 u, h.2, h.3⟩
  markSeen h := ⟨kept_canonical.markSeen h.1, h.2, h.3⟩
  fse h f := ⟨kept_canonical.fse h.1 f, h.2, h.3⟩
  link h l e := ⟨kept_canonical.link h.1 l e, kept_bindingsOk.link h.2 l e, h.3⟩
  station h a v hv := ⟨kept_canonical.station h.1 a v hv, kept_bindingsOk.station h.2 a v hv, h.3⟩
  row h l x y := ⟨kept_canonical.row h.1 l x y, h.2, h.3⟩
  slot h n v := ⟨kept_canonical.slot h.1 n v, h.2, h.3⟩
  bedPieces h z l := ⟨kept_canonical.bedPieces h.1 z l, h.2, h.3⟩
  bed h hm z v := ⟨kept_canonical.bed h.1 hm z v, h.2, h.3⟩
  hook h c v := ⟨kept_canonical.hook h.1 c v, h.2, h.3⟩
  table h t v := ⟨kept_canonical.table h.1 t v, h.2, h.3⟩
  zone h z v := ⟨kept_canonical.zone h.1 z v, h.2, h.3⟩
  marks h t v := ⟨kept_canonical.marks h.1 t v, h.2, h.3⟩
  monitor h t v := ⟨kept_canonical.monitor h.1 t v, h.2, h.3⟩
  torch h n v := ⟨kept_canonical.torch h.1 n v, h.2, h.3⟩
  burnTimes h p l := ⟨kept_canonical.burnTimes h.1 p l, h.2, h.3⟩
  channel h c v := ⟨kept_canonical.channel h.1 c v, h.2, h.3⟩
  axis h k v := ⟨kept_canonical.axis h.1 k v, h.2, h.3⟩
  hoist h c v := ⟨kept_canonical.hoist h.1 c v, h.2, h.3⟩
  queue h c v := ⟨kept_canonical.queue h.1 c v, h.2, h.3⟩
  endedMove h c v := ⟨kept_canonical.endedMove h.1 c v, h.2, h.3⟩
  nextId h n := ⟨kept_canonical.nextId h.1 n, h.2, h.3⟩
  piece h x p q e hk := ⟨kept_canonical.piece h.1 x p q e hk, h.2, h.3⟩
  counters h r c := ⟨kept_canonical.counters h.1 r c, h.2, h.3⟩
  birth h i p g hi e := ⟨kept_canonical.birth h.1 i p g hi e, h.2, h.3⟩
  death h x p e := ⟨kept_canonical.death h.1 x p e, h.2, h.3⟩
  grantEnds {s} h t g e hg := by
    obtain ⟨hT, hm⟩ := torchSafe_iff.1 h.3
    refine ⟨kept_canonical.grantEnds h.1 t g e hg, h.2, torchSafe_iff.2 ⟨hT.ends (e := some (g.ref, e)) hg
      (fun j => by simp) (fun j => by simp), fun j hj => hm j ?_⟩⟩
    rw [State.burn_setGrantHeld, State.burn_setBurn] at hj; split at hj
    · cases hj
    · exact hj
  grantMade {s} h t g hm hr hs := by
    obtain ⟨hT, -⟩ := torchSafe_iff.1 h.3
    obtain ⟨a, ha⟩ := hr
    refine ⟨kept_canonical.grantMade h.1 t g hm ⟨a, ha⟩ hs, kept_bindingsOk.grantMade h.2 t g hm ⟨a, ha⟩ hs,
      torchSafe_iff.2 ⟨hT.made (g := g) (by simpa [unitOk] using h.2 a _ _ ha) hs (fun j => by simp) (fun j => by simp),
        fun j _ => ?_⟩⟩
    rw [(evaluateGrant_run _).1.mode]; exact hm
  grantTime {s} h t g n hg := by
    obtain ⟨hT, hm⟩ := torchSafe_iff.1 h.3
    have hb := hT.burn t
    refine ⟨kept_canonical.grantTime h.1 t g n hg, h.2, torchSafe_iff.2 ⟨hT.amend
      (b := { s.burn t with grant := some { g with arcTime := n } }) ⟨hb.permissive, by simpa [hg] using hb.grant, hb.table⟩
      (by simp [hg]) (fun j => by simp) (fun j => by simp), fun j hj => hm j ?_⟩⟩
    rw [State.burn_setBurn] at hj; split at hj
    · next he => exact he ▸ hj
    · exact hj
  burnState {s} h t x hx hn := by
    obtain ⟨hT, hm⟩ := torchSafe_iff.1 h.3
    obtain ⟨hgrant, hoff⟩ := (hT.burn t).off hn
    refine ⟨kept_canonical.burnState h.1 t x hx hn, h.2, torchSafe_iff.2 ⟨hT.amend (b := { s.burn t with state := x })
      ⟨by simp [hoff, hx], by simp [hgrant, hx], by simp [hoff]⟩ rfl (fun j => by simp) (fun j => by simp),
      fun j hj => hm j ?_⟩⟩
    rw [State.burn_setBurn] at hj; split at hj
    · next he => exact he ▸ hj
    · exact hj
  orderFault h c := ⟨kept_canonical.orderFault h.1 c, h.2, h.3⟩
  craneFigures h c k w e := ⟨kept_canonical.craneFigures h.1 c k w e, h.2, h.3⟩
  runwayNext h r := ⟨kept_canonical.runwayNext h.1 r, h.2, h.3⟩
  collect h cl hr hl := ⟨kept_canonical.collect h.1 cl hr hl, h.2, h.3⟩
  collectRead h cl c o e := ⟨kept_canonical.collectRead h.1 cl c o e, h.2, h.3⟩
  missTick h cl n m e := ⟨kept_canonical.missTick h.1 cl n m e, h.2, h.3⟩
  complete h cl e := ⟨kept_canonical.complete h.1 cl e, bindingsOk_completeSample h.2 cl, h.3.completeSample cl⟩
  openMode h hm := by
    obtain ⟨hT, -⟩ := torchSafe_iff.1 h.3
    exact ⟨kept_canonical.openMode h.1 hm, h.2, torchSafe_iff.2 ⟨⟨hT.burn, hT.held⟩, fun _ _ => rfl⟩⟩
  stopHall h := ⟨h.1.stopHall, bindingsOk_stopHall h.2, h.3.stopHall⟩
  clear h _ := ⟨h.1.clearRegistry, bindingsOk_clearRegistry h.2, h.3.clearRegistry h.1⟩
  reset _ := ⟨canonical_reset, bindingsOk_reset, torchSafe_reset⟩

/-- Settles O5: each table's flags follow its grant through every change; a grant is made only for a table a binding names,
and CLEAR_REGISTRY needs the banks canonical. -/
theorem stepKeepsTorchSafe : Obligations.StepKeepsTorchSafe :=
  ⟨fun _ _ hc hb ht e => (kept_torchSafe.step (fun _ => ⟨hc, hb, ht⟩) ⟨hc, hb, ht⟩ e).torch,
    fun _ _ hb e => kept_bindingsOk.step (fun _ => hb) hb e⟩

/-- Settles O7: after device reset every bank is empty and everything is off. -/
theorem resetMeetsTheInvariants : Obligations.ResetMeetsTheInvariants :=
  ⟨canonical_reset, registrySound_reset, bindingsOk_reset, torchSafe_reset,
    travelSafe_of_off fun _ d => by cases d <;> rfl⟩

end Sys2Proof.Machine
end

section
/-! PROOFS. What an evaluation measures and which permissives it sets (R143 to R153). -/

open Sys2Proof Sys2Proof.Machine

namespace Sys2Proof.Machine

/-! ## Allowances (R143) -/

theorem ceilDiv_bounds (a : Nat) {b : Nat} (hb : 0 < b) : a ≤ ceilDiv a b * b ∧ ceilDiv a b * b < a + b := by
  have hle := Nat.div_mul_le_self (a + b - 1) b
  have hlt := Nat.lt_mul_div_succ (a + b - 1) hb
  rw [Nat.mul_add, Nat.mul_comm b] at hlt
  unfold ceilDiv
  omega

/-- What the allowance at `v` mm per sample has to be (R143). -/
def AllowanceIs (r : Runway) (v : Int) (n : Nat) : Prop :=
  (v ≤ 0 → n = 0) ∧
    (0 < v → (r.lookAhead * v ≤ 20000 * r.period →
        (n : Int) * r.period ≥ v * r.lookAhead ∧ ((n : Int) - 1) * r.period < v * r.lookAhead) ∧
      (20000 * r.period < r.lookAhead * v → n = 20000))

theorem allowanceOf_is (r : Runway) (hp : 0 < r.period) (v : Int) : AllowanceIs r v (allowanceOf r v) := by
  unfold AllowanceIs allowanceOf
  refine ⟨fun hv => if_neg (by omega), fun hv => ?_⟩
  obtain ⟨k, rfl⟩ := Int.eq_ofNat_of_zero_le hv.le
  rw [if_pos hv, Int.toNat_natCast]
  obtain ⟨hge, hlt⟩ := ceilDiv_bounds (k * r.lookAhead) hp
  have hcomm : r.lookAhead * k = k * r.lookAhead := Nat.mul_comm ..
  refine ⟨fun h => ?_, fun h => ?_⟩
  · have ha : k * r.lookAhead ≤ 20000 * r.period := by rw [← hcomm]; exact_mod_cast h
    have hq : ceilDiv (k * r.lookAhead) r.period ≤ 20000 := by
      have : ceilDiv (k * r.lookAhead) r.period * r.period < 20001 * r.period := by omega
      have := Nat.lt_of_mul_lt_mul_right this
      omega
    rw [Config.allowanceCap, min_eq_right hq, sub_mul]
    constructor
    · exact_mod_cast hge
    · zify at hlt; omega
  · have ha : 20000 * r.period < k * r.lookAhead := by rw [← hcomm]; exact_mod_cast h
    exact min_eq_left (Nat.le_of_mul_le_mul_right (by simp only [Config.allowanceCap]; omega) hp)

theorem allowance_none (r : Runway) (sign : Int) : allowance r sign none = 20000 := rfl

theorem allowance_is (r : Runway) (hp : 0 < r.period) (sign : Int) (d : Option Int) (v : Int)
    (hv : d.map (sign * ·) = some v) : AllowanceIs r v (allowance r sign d) := by
  obtain ⟨x, rfl, rfl⟩ := Option.map_eq_some_iff.1 hv
  exact allowanceOf_is r hp _

/-! ## Cranes, pairs and zones of an evaluation -/

/-- A crane once an evaluation has run. -/
theorem crane_evaluate (s : State) {c : Nat} (hc : c < 3) : (evaluate s).crane c =
    ({ withAllowances s c with hook := if hookHigh s c then .high else .low } : CraneClear).mapPermissives
      (permissiveAt (measured s) c) := by
  rw [(evaluate_run s).2.1 c hc, crane_measured s hc]

theorem hook_evaluate (s : State) {c : Nat} (hc : c < 3) :
    ((evaluate s).crane c).hook = if hookHigh s c then .high else .low := by rw [crane_evaluate s hc]; rfl

/-- What was raised stays raised. -/
def Raises (s t : State) : Prop := ∀ j, s.notice j = some false → t.notice j = some false

theorem setGap_raises (s : State) (c : Nat) : Raises s (setGap s c) := by
  unfold setGap; dsimp only; split
  · exact fun j h => notice_raise_of_raised (notice_raise_of_raised h ..) ..
  · exact fun j h => h

/-- A gap below 0 of a pair without its order fault raises ORDER_FAULT at both cranes (R145). -/
theorem setGap_raised {s : State} {c : Nat} (hf : (s.pair c).orderFault = false) (hg : (pairGap s c).any (· < 0) = true) :
    (setGap s c).notice (noticeCode (.crane c) .orderFault) = some false ∧
      (setGap s c).notice (noticeCode (.crane (c + 1)) .orderFault) = some false := by
  unfold setGap
  simp only [hf, hg, Bool.not_false, Bool.and_self, if_true]
  exact ⟨notice_raise_of_raised (notice_raise_same ..) .., notice_raise_same ..⟩

@[simp] theorem notice_evaluate (s : State) (j : Nat) : (evaluate s).notice j = (gapped (allowed s)).notice j := by
  have h1 : ∀ u : State, ((List.range 3).foldl setPermissives u).notice j = u.notice j :=
    foldl_keeps (f := setPermissives) (g := fun s => s.notice j) (fun _ _ => rfl) _
  have h2 : ∀ u : State, (intruding u).notice j = u.notice j :=
    foldl_keeps (f := setIntrusion) (g := fun s => s.notice j) (fun _ _ => rfl) _
  have h3 : ∀ u : State, (hooked u).notice j = u.notice j :=
    foldl_keeps (f := setHookState) (g := fun s => s.notice j) (fun _ _ => rfl) _
  rw [evaluate_eq, h1, measured, h2, h3]

theorem evaluate_raised {s : State} {c : Nat} (hc : c < 2) (hf : (s.pair c).orderFault = false)
    (hg : (pairGap s c).any (· < 0) = true) :
    (evaluate s).notice (noticeCode (.crane c) .orderFault) = some false ∧
      (evaluate s).notice (noticeCode (.crane (c + 1)) .orderFault) = some false := by
  obtain ⟨u, ⟨hpair, hgap, -⟩, -, -, hraises⟩ := foldl_range_at (f := setGap)
    (R := fun s t => t.pair c = s.pair c ∧ pairGap t c = pairGap s c ∧ Raises s t) hc (fun _ => ⟨rfl, rfl, fun _ h => h⟩)
    (fun h k => ⟨k.1.trans h.1, k.2.1.trans h.2.1, fun j hj => k.2.2 j (h.2.2 j hj)⟩)
    (fun {j} hj s => ⟨by rw [pair_setGap, if_neg hj.symm], pairGap_setGap s c j, setGap_raises s j⟩) (allowed s)
  obtain ⟨hwest, heast⟩ := setGap_raised (s := u) (c := c) (by rw [hpair, pair_allowed, hf])
    (by rw [hgap, pairGap_allowed s hc, hg])
  rw [notice_evaluate, notice_evaluate, gapped]
  exact ⟨hraises _ hwest, hraises _ heast⟩

/-! ## What an evaluation measures -/

theorem pairGap_of_seen {s : State} {c : Nat}
    (h : (s.sampled c).x.validity.placed = true ∧ (s.sampled (c + 1)).x.validity.placed = true) :
    pairGap s c = some (((s.sampled (c + 1)).x.value - (s.crane (c + 1)).westIn) -
      ((s.sampled c).x.value + (s.crane c).eastIn)) := by simp [pairGap, h.1, h.2]

theorem pairGap_of_unseen {s : State} {c : Nat}
    (h : ¬ ((s.sampled c).x.validity.placed = true ∧ (s.sampled (c + 1)).x.validity.placed = true)) :
    pairGap s c = none := by simp only [pairGap, Bool.and_eq_true, if_neg h]

theorem inSpan_iff {lo hi m : Nat} {v : Int} : inSpan lo hi m v = true ↔ (lo : Int) - m ≤ v ∧ v ≤ hi + m := by
  simp [inSpan]

theorem spanDistance_le_iff {lo hi R : Nat} {v : Int} (h : lo ≤ hi) :
    spanDistance lo hi v ≤ R ↔ (lo : Int) ≤ v + R ∧ v ≤ hi + R := by
  unfold spanDistance; split
  · omega
  · split <;> omega

/-- A crane intrudes a configured zone by its place and a LOW hook, or, where its place is unknown, by the stale reach
(R148, R149). -/
theorem intrudes_iff {s : State} {c z : Nat} (hb : (s.bed z).x0 ≤ (s.bed z).x1) :
    let b := s.bed z
    let x := (s.sampled c).x.value
    let y := (s.sampled c).y.value
    let r := s.clu.runway
    let placed := (s.sampled c).x.validity.placed = true ∧ (s.sampled c).y.validity.placed = true
    let above := (s.crane c).hook = .low ∧ (b.x0 : Int) - r.margin ≤ x ∧ x ≤ b.x1 + r.margin ∧
      (b.y0 : Int) - r.margin ≤ y ∧ y ≤ b.y1 + r.margin
    let near := (s.sampled c).goodX = false ∨ ((b.x0 : Int) ≤ x + r.reach ∧ x ≤ b.x1 + r.reach)
    intrudes s c z = true ↔ b.configured = true ∧ ((placed ∧ above) ∨ (¬ placed ∧ near)) := by
  intro b x y r placed above near
  simp only [intrudes, Bool.and_eq_true]
  by_cases hp : placed
  · rw [if_pos hp]
    simp only [Bool.and_eq_true, beq_iff_eq, inSpan_iff, and_assoc, hp, not_true, false_and, or_false, true_and, b, x, y, r,
      above]
  · rw [if_neg hp]
    simp only [Bool.or_eq_true, Bool.not_eq_true', decide_eq_true_eq, spanDistance_le_iff hb, hp, not_false_iff, false_and,
      false_or, true_and, b, x, r, near]

/-- Settles O45: each stage's figures stand through the stages after it. -/
theorem evaluationMeasures : Obligations.EvaluationMeasures := by
  unfold Obligations.EvaluationMeasures
  intro s t r m ahead
  refine ⟨fun hp c hc => ?allowances, fun c hc => ?gaps, fun c hc => ?hooks, fun c z hc hz => ?intrusion⟩
  case allowances =>
    have hone : ∀ d : Option Int, d.map (1 * ·) = d := fun d => by cases d <;> simp
    have hneg : ∀ d : Option Int, d.map (-1 * ·) = d.map (- ·) := fun d => by cases d <;> simp
    have hahead : ∀ d, ahead d (allowance r 1 d) := fun d =>
      ⟨fun h => by rw [h]; rfl, fun v h => allowance_is r hp 1 d v (by rw [hone, h])⟩
    have hback : ∀ d : Option Int, ahead (d.map (- ·)) (allowance r (-1) d) := fun d =>
      ⟨fun h => by rw [Option.map_eq_none_iff.1 h]; rfl, fun v h => allowance_is r hp (-1) d v (by rw [hneg, h])⟩
    have hcrane : t.crane c = _ := crane_evaluate s hc
    rw [hcrane]
    exact ⟨hahead _, hback _, hahead _, hback _⟩
  case gaps =>
    intro g seen
    have hpair : t.pair c = _ := (pair_evaluate s c).trans (pair_measured s hc)
    rw [hpair]
    refine ⟨fun h => pairGap_of_seen h, fun h => pairGap_of_unseen h, ?_, fun hf h hg => ?_⟩
    · by_cases h : seen
      · simp [pairGap_of_seen h, h, g, m]
      · simp [pairGap_of_unseen h, h]
    · exact evaluate_raised hc hf (by rw [pairGap_of_seen h]; exact decide_eq_true hg)
  case hooks =>
    have hhook : (t.crane c).hook = _ := hook_evaluate s hc
    rw [hhook]
    by_cases h : hookHigh s c = true
    · simpa [h] using by simpa [hookHigh] using h
    · simpa [h] using by simpa [hookHigh] using h
  case intrusion =>
    intro b x y R placed above near hb
    let u := hooked (gapped (allowed s))
    have hreads : Reads s u := ((Reads.allowed s).trans (Reads.gapped _)).trans (Reads.hooked _)
    have hintruders : t.intruders z = (List.range 3).filter fun c => intrudes u c z :=
      (intruders_evaluate s z).trans (intruders_foldl u hz)
    have hhook : (u.crane c).hook = (t.crane c).hook :=
      (congrArg CraneClear.hook (crane_intruding u c)).symm.trans ((evaluate_run s).1.hook c).symm
    have hiff := intrudes_iff (s := u) (c := c) (z := z) (by rw [hreads.bed]; exact hb)
    simp only [hreads.bed, hreads.sampled, hreads.runway, hhook] at hiff
    rw [hintruders, List.mem_filter, List.mem_range]
    exact ⟨fun h => hiff.1 h.2, fun h => ⟨hc, hiff.2 h⟩⟩

end Sys2Proof.Machine
end

section
/-! PROOFS. The conditions of every travel permissive (R150 to R153), one by one, and the requests of the Clearance Unit. -/

open Sys2Proof Sys2Proof.Machine

namespace Sys2Proof.Machine

/-! ## Which conditions there are -/

/-- The hysteresis a permissive that was off has to clear beside what is required (R151). -/
def slack (s : State) (w : Bool) : Int := if w = true then 0 else s.clu.runway.hysteresis

theorem falls_iff {s : State} {w : Bool} {r x : Int} :
    falls w s.clu.runway.hysteresis r x = true ↔ x < r + slack s w := by
  cases w <;> simp [falls, slack]

section Members

variable {s : State} {w : Bool} {c : Nat} {d : Dir}

theorem mem_pairConds {k : Cond} {me other : Nat} : k ∈ pairConds s w c me other ↔
    (k = .neighbourStale ∧ (s.sampled other).x.validity.placed = false) ∨
    (k = .neighbour ∧ (s.sampled me).x.validity.placed = true ∧ ∃ g, pairGap s c = some g ∧
      g < (s.clu.runway.separation : Int) + (s.crane c).aE + (s.crane (c + 1)).aW + slack s w) := by
  simp only [pairConds, List.mem_append, Bool.and_eq_true, Option.any_eq_true, falls_iff]
  refine or_congr ?_ ?_
  · split <;> simp_all
  · split <;> simp_all

theorem mem_endConds {k : Cond} {east : Bool} : k ∈ endConds s w c east ↔
    k = .runwayEnd ∧ (s.sampled c).x.validity.placed = true ∧
      (if east then (s.clu.runway.length : Int) - ((s.sampled c).x.value + (s.crane c).eastIn)
        else (s.sampled c).x.value - (s.crane c).westIn) <
      (s.clu.runway.separation : Int) + (if east then (s.crane c).aE else (s.crane c).aW) + slack s w := by
  simp only [endConds, Bool.and_eq_true, falls_iff, List.mem_ite_nil_right, List.mem_singleton]
  exact and_comm

/-- The conditions toward a neighbour or the runway's end are of these three kinds alone. -/
theorem kind_of_mem_gapConds {k : Cond} (h : k ∈ gapConds s w c d) : k = .neighbourStale ∨ k = .neighbour ∨ k = .runwayEnd := by
  cases d <;> simp only [gapConds] at h
  case n => cases h
  case s => cases h
  all_goals
    split at h
    · exact .inr (.inr (mem_endConds.1 h).1)
    · obtain ⟨h, -⟩ | ⟨h, -⟩ := mem_pairConds.1 h
      · exact .inl h
      · exact .inr (.inl h)

theorem not_mem_gapConds {k : Cond} (h : k ≠ .neighbourStale ∧ k ≠ .neighbour ∧ k ≠ .runwayEnd) : k ∉ gapConds s w c d :=
  fun hk => by obtain hk | hk | hk := kind_of_mem_gapConds hk <;> simp [hk] at h

theorem mem_condsOf_mode : .mode ∈ condsOf s w c d ↔ s.ppn.mode ≠ .opened := by
  have hg : .mode ∉ gapConds s w c d := not_mem_gapConds (by decide)
  by_cases hm : s.ppn.mode = .opened <;> simp [condsOf, hg, hm]

theorem mem_condsOf_orderFault : .orderFault ∈ condsOf s w c d ↔ craneOrderFault s c = true := by
  have hg : .orderFault ∉ gapConds s w c d := not_mem_gapConds (by decide)
  by_cases hm : craneOrderFault s c = true <;> simp [condsOf, hg, hm]

theorem mem_condsOf_staleX : .staleX ∈ condsOf s w c d ↔ (s.sampled c).x.validity.placed = false := by
  have hg : .staleX ∉ gapConds s w c d := not_mem_gapConds (by decide)
  by_cases hm : (s.sampled c).x.validity.placed = true <;> simp [condsOf, hg, hm]

theorem mem_condsOf_staleY : .staleY ∈ condsOf s w c d ↔
    (d = .n ∨ d = .s) ∧ (s.sampled c).y.validity.placed = false := by
  have hg : .staleY ∉ gapConds s w c d := not_mem_gapConds (by decide)
  simp [condsOf, hg]

theorem mem_condsOf_gap {k : Cond} (h : k = .neighbourStale ∨ k = .neighbour ∨ k = .runwayEnd) :
    k ∈ condsOf s w c d ↔ k ∈ gapConds s w c d := by
  obtain rfl | rfl | rfl := h <;> simp [condsOf]

theorem mem_condsOf_keepOut {z : Nat} (hz : z < 12) : .keepOut z ∈ condsOf s w c d ↔ keepOutFails s w c d z = true := by
  have hg : .keepOut z ∉ gapConds s w c d := not_mem_gapConds (by simp)
  simp [condsOf, hg, hz]

end Members

theorem mem_gapConds_neighbourStale {s : State} {w : Bool} {c : Nat} {d : Dir} (hc : c < 3) :
    .neighbourStale ∈ gapConds s w c d ↔
      (d = .e ∧ c < 2 ∧ (s.sampled (c + 1)).x.validity.placed = false) ∨
      (d = .w ∧ 0 < c ∧ (s.sampled (c - 1)).x.validity.placed = false) := by
  cases d with
  | n => simp [gapConds]
  | s => simp [gapConds]
  | w =>
    by_cases h0 : c = 0
    · simp [gapConds, h0, mem_endConds]
    · simp [gapConds, h0, mem_pairConds, Nat.pos_of_ne_zero h0]
  | e =>
    by_cases h2 : c = 2
    · simp [gapConds, h2, mem_endConds]
    · have hlt : c < 2 := by omega
      simp [gapConds, h2, mem_pairConds, hlt]

/-- A judged gap is one between cranes whose X is placed (R144). -/
theorem placed_of_pairGap {s : State} {c : Nat} {g : Int} (h : pairGap s c = some g) :
    (s.sampled c).x.validity.placed = true ∧ (s.sampled (c + 1)).x.validity.placed = true := by
  by_contra hne
  rw [pairGap_of_unseen hne] at h; cases h

theorem mem_gapConds_neighbour {s : State} {w : Bool} {c : Nat} {d : Dir} (hc : c < 3) :
    .neighbour ∈ gapConds s w c d ↔
      (d = .e ∧ c < 2 ∧ ∃ g, pairGap s c = some g ∧
        g < (s.clu.runway.separation : Int) + (s.crane c).aE + (s.crane (c + 1)).aW + slack s w) ∨
      (d = .w ∧ 0 < c ∧ ∃ g, pairGap s (c - 1) = some g ∧
        g < (s.clu.runway.separation : Int) + (s.crane (c - 1)).aE + (s.crane c).aW + slack s w) := by
  cases d with
  | n => simp [gapConds]
  | s => simp [gapConds]
  | w =>
    by_cases h0 : c = 0
    · simp [gapConds, h0, mem_endConds]
    · have hc1 : c - 1 + 1 = c := by omega
      have hplaced : ∀ {g}, pairGap s (c - 1) = some g → (s.sampled c).x.validity.placed = true := fun h =>
        hc1 ▸ (placed_of_pairGap h).2
      simp only [gapConds, h0, if_false, mem_pairConds, hc1, reduceCtorEq, false_and, true_and, false_or,
        Nat.pos_of_ne_zero h0]
      exact ⟨fun h => h.2, fun ⟨g, hg, h⟩ => ⟨hplaced hg, g, hg, h⟩⟩
  | e =>
    by_cases h2 : c = 2
    · simp [gapConds, h2, mem_endConds]
    · have hlt : c < 2 := by omega
      simp only [gapConds, h2, if_false, mem_pairConds, reduceCtorEq, false_and, true_and, false_or, or_false, hlt]
      exact ⟨fun h => h.2, fun ⟨g, hg, h⟩ => ⟨(placed_of_pairGap hg).1, g, hg, h⟩⟩

theorem mem_gapConds_runwayEnd {s : State} {w : Bool} {c : Nat} {d : Dir} :
    .runwayEnd ∈ gapConds s w c d ↔ (s.sampled c).x.validity.placed = true ∧
      ((d = .w ∧ c = 0 ∧ (s.sampled c).x.value - (s.crane c).westIn <
          (s.clu.runway.separation : Int) + (s.crane c).aW + slack s w) ∨
       (d = .e ∧ c = 2 ∧ (s.clu.runway.length : Int) - ((s.sampled c).x.value + (s.crane c).eastIn) <
          (s.clu.runway.separation : Int) + (s.crane c).aE + slack s w)) := by
  cases d with
  | n => simp [gapConds]
  | s => simp [gapConds]
  | w =>
    by_cases h0 : c = 0
    · simp [gapConds, h0, mem_endConds]
    · simp [gapConds, h0, mem_pairConds]
  | e =>
    by_cases h2 : c = 2
    · simp [gapConds, h2, mem_endConds]
    · simp [gapConds, h2, mem_pairConds]

/-! ## The permissives of an evaluation -/

/-- A permissive at a completion, by the figures that stand after it (R151). -/
theorem permissive_evaluate (s : State) {c : Nat} (hc : c < 3) (d : Dir) :
    ((evaluate s).crane c).permissive d =
      ⟨(condsOf (evaluate s) ((s.crane c).permissive d).on c d).isEmpty,
        condsOf (evaluate s) ((s.crane c).permissive d).on c d⟩ := by
  obtain ⟨hf, hlow, -⟩ := evaluate_run s
  rw [hlow c hc, permissive_mapPermissives, permissive_measured s hc, permissiveAt, condsOf_congr hf]

theorem conds_evaluate (s : State) {c : Nat} (hc : c < 3) (d : Dir) :
    (((evaluate s).crane c).permissive d).conds = condsOf (evaluate s) ((s.crane c).permissive d).on c d := by
  rw [permissive_evaluate s hc]

theorem pairGap_evaluate (s : State) {c : Nat} (hc : c < 2) : pairGap (evaluate s) c = ((evaluate s).pair c).gap := by
  rw [pair_evaluate, pair_measured s hc]
  exact pairGap_congr (Reads.evaluate s) (by rw [crane_evaluate s (by omega)]; rfl) (by rw [crane_evaluate s (by omega)]; rfl)

/-- The keep-out term of a permissive, by the distance to the zone's grown rectangle in its direction (R150). -/
theorem keepOutFails_iff {s : State} {w : Bool} {c : Nat} {d : Dir} {z : Nat} :
    let r := s.clu.runway
    let b := s.bed z
    let x := (s.sampled c).x.value
    let y := (s.sampled c).y.value
    let M : Int := r.margin
    let Y := (s.sampled c).y.validity.placed = true
    let inX := b.x0 - M ≤ x ∧ x ≤ b.x1 + M
    let inY := ¬ Y ∨ (b.y0 - M ≤ y ∧ y ≤ b.y1 + M)
    let short (dist : Int) (a : Nat) : Prop := 0 ≤ dist ∧ dist < a + M + slack s w
    keepOutFails s w c d z = true ↔ s.grantHeld z = true ∧ b.configured = true ∧ (s.crane c).hook = .low ∧
      (s.sampled c).x.validity.placed = true ∧
      ((d = .e ∧ inY ∧ short (b.x0 - M - x) (s.crane c).aE) ∨
       (d = .w ∧ inY ∧ short (x - (b.x1 + M)) (s.crane c).aW) ∨
       (d = .n ∧ Y ∧ inX ∧ short (b.y0 - M - y) (s.crane c).aN) ∨
       (d = .s ∧ Y ∧ inX ∧ short (y - (b.y1 + M)) (s.crane c).aS)) := by
  intro r b x y M Y inX inY short
  have hY : (!(s.sampled c).y.validity.placed) = true ↔ ¬ Y := by simp [Y]
  cases d <;>
    simp only [keepOutFails, Bool.and_eq_true, Bool.or_eq_true, hY, beq_iff_eq, decide_eq_true_eq, inSpan_iff, falls_iff,
      and_assoc, reduceCtorEq, false_and, true_and, false_or, or_false, b, x, y, M, Y, inX, inY, short, r]

/-! ## The permissives at a grant, and as the hall stops -/

theorem permissive_evaluateGrant (s : State) {c : Nat} (hc : c < 3) (d : Dir) :
    ((evaluateGrant s).crane c).permissive d = permissiveAtGrant s c d ((s.crane c).permissive d) := by
  rw [(evaluateGrant_run s).2.1 c hc, permissive_mapPermissives]

theorem mem_stop_of_mem {p : Permissive} {x : Cond} (h : x ∈ p.conds) : x ∈ p.stop.conds := by
  unfold Permissive.stop; split
  · exact h
  · exact List.mem_cons_of_mem _ h

/-- Settles O46: the conditions one by one, from the figures that stand after the evaluation. -/
theorem evaluationSetsPermissives : Obligations.EvaluationSetsPermissives := by
  unfold Obligations.EvaluationSetsPermissives
  refine ⟨fun s c d hc => ?conditions, fun s c z d hc hz => ?keepOut, fun s c d hc => ?changes⟩
  case conditions =>
    intro t r m p back
    have hp : p = ⟨(condsOf t ((s.crane c).permissive d).on c d).isEmpty, condsOf t ((s.crane c).permissive d).on c d⟩ :=
      permissive_evaluate s hc d
    have hr : Reads s t := Reads.evaluate s
    have hback : slack t ((s.crane c).permissive d).on = back := by simp only [slack, hr.runway]; rfl
    have hgap : ∀ j, j < 2 → pairGap t j = (t.pair j).gap := fun j hj => pairGap_evaluate s hj
    have hextents : (t.crane c).westIn = (s.crane c).westIn ∧ (t.crane c).eastIn = (s.crane c).eastIn := by
      have hcrane : t.crane c = _ := crane_evaluate s hc
      rw [hcrane]; exact ⟨rfl, rfl⟩
    have hm : t.sampled = m := funext hr.sampled
    clear_value t
    rw [hp]
    refine ⟨List.isEmpty_iff, ?_, ?_, ?_, ?_, ?_, ?_, ?_⟩
    · exact mem_condsOf_mode.trans (by rw [hr.mode])
    · exact mem_condsOf_orderFault.trans (by simp [craneOrderFault])
    · exact mem_condsOf_staleX.trans (by rw [hm])
    · exact mem_condsOf_staleY.trans (by rw [hm])
    · exact (mem_condsOf_gap (.inl rfl)).trans ((mem_gapConds_neighbourStale hc).trans (by rw [hm]))
    · refine (mem_condsOf_gap (.inr (.inl rfl))).trans ((mem_gapConds_neighbour hc).trans ?_)
      rw [hback, hr.runway]
      refine or_congr (and_congr_right fun _ => and_congr_right fun hlt => ?_)
        (and_congr_right fun _ => and_congr_right fun hpos => ?_)
      · rw [hgap c hlt]
      · rw [hgap (c - 1) (by omega)]
    · refine (mem_condsOf_gap (.inr (.inr rfl))).trans (mem_gapConds_runwayEnd.trans ?_)
      rw [hback, hr.runway, hm, hextents.1, hextents.2]
  case keepOut =>
    intro t r b x y M Y back inX inY short
    have hr : Reads s t := Reads.evaluate s
    have hback : slack t ((s.crane c).permissive d).on = back := by simp only [slack, hr.runway]; rfl
    have hiff := keepOutFails_iff (s := t) (w := ((s.crane c).permissive d).on) (c := c) (d := d) (z := z)
    simp only [hback, hr.runway, hr.sampled, hr.bed, hr.grantHeld] at hiff
    have hp : ((t.crane c).permissive d).conds = condsOf t ((s.crane c).permissive d).on c d :=
      conds_evaluate s hc d
    clear_value t
    rw [hp]
    exact (mem_condsOf_keepOut hz).trans hiff
  case changes =>
    intro p g q
    have hg : g = permissiveAtGrant s c d p := permissive_evaluateGrant s hc d
    have hq : q = p.stop := permissive_stopPermissives s hc d
    clear_value g q
    rw [hg, hq]
    refine ⟨fun hoff => if_neg (by simp [hoff]), fun hon => ?_, on_stop p, mode_mem_stop p, fun x => mem_stop_of_mem⟩
    simp [permissiveAtGrant, permissiveAt, hon]

/-! ## The requests of the Clearance Unit -/

/-- A host request's answer, as the model works it out. -/
theorem Answers.of_ans {i : Instr} {s t : State} {k : ReqKind} {st : Status} {r : ReplyRecord} {a : Ans}
    (hx : exec i s = hostAnswer k a) (ha : a = ⟨t, st, r⟩) : Answers i s k st r t := by
  rw [ha] at hx; exact hx

theorem lt_massOf_iff {s : State} {h : Handle} {x : Nat} : x < massOf s h ↔ ∃ p, s.piece? h = some p ∧ x < p.mass := by
  unfold massOf; split <;> simp_all

theorem tooLight_iff {s : State} {c x : Nat} : tooLight s c x = true ↔
    (∃ h p, s.hook c = some h ∧ s.piece? h = some p ∧ x < p.mass) ∨
    ∃ m p, m ∈ s.queue c ∧ s.piece? m.piece = some p ∧ x < p.mass := by
  have hhook : (s.hook c).any (fun h => decide (x < massOf s h)) = true ↔
      ∃ h p, s.hook c = some h ∧ s.piece? h = some p ∧ x < p.mass := by
    simp [Option.any_eq_true, lt_massOf_iff]
  have hqueue : (s.queue c).any (fun m => decide (x < massOf s m.piece)) = true ↔
      ∃ m p, m ∈ s.queue c ∧ s.piece? m.piece = some p ∧ x < p.mass := by
    simp [lt_massOf_iff]
  rw [tooLight, Bool.or_eq_true]
  exact or_congr hhook hqueue

theorem settle_eq (given : Option Nat) {lo hi : Nat} (h : lo ≤ hi) (kept : Nat) : settle given lo hi kept =
    match given with
    | some v => if v < lo then lo else if hi < v then hi else v
    | none => kept := by
  cases given with
  | none => rfl
  | some v =>
    simp only [settle, Option.map_some, Option.getD_some, clamp]
    split
    · omega
    · split <;> omega

theorem clu_revokeIntruded (s : State) : (revokeIntruded s).clu = s.clu :=
  revokeIntruded_holds (Q := fun t => t.clu = s.clu) (fun _ _ _ h => (clu_revoke ..).trans h) rfl

theorem runwayNext_evaluate (s : State) : (evaluate s).clu.runwayNext = s.clu.runwayNext :=
  evaluate_holds (Q := fun t => t.clu.runwayNext = s.clu.runwayNext) (fun _ _ _ h => h) (fun _ _ _ h => h) (fun _ _ _ h => h)
    (fun _ _ _ h => h) rfl

/-- The settings that wait come into force, and none waits any more (R155). -/
theorem runway_applySettings (s : State) : (applySettings s).clu.runway = s.clu.runwayNext.getD s.clu.runway ∧
    (applySettings s).clu.runwayNext = none := by
  let t := (List.range 3).foldl (fun s c =>
    s.setCrane c { s.crane c with westIn := (s.crane c).west, eastIn := (s.crane c).east }) s
  have ht : t.clu.runway = s.clu.runway ∧ t.clu.runwayNext = s.clu.runwayNext :=
    foldl_holds (Q := fun t => t.clu.runway = s.clu.runway ∧ t.clu.runwayNext = s.clu.runwayNext)
      (f := fun s c => s.setCrane c { s.crane c with westIn := (s.crane c).west, eastIn := (s.crane c).east })
      (fun _ _ h => h) _ ⟨rfl, rfl⟩
  have h : applySettings s = match t.clu.runwayNext with
    | none => t
    | some r => { t with clu := { t.clu with runway := r, runwayNext := none } } := rfl
  rw [h, ht.2]
  cases hn : s.clu.runwayNext with
  | none => exact ⟨ht.1, ht.2.trans hn⟩
  | some r => exact ⟨rfl, rfl⟩

theorem crane_applySettings (s : State) {c : Nat} (hc : c < 3) :
    (applySettings s).crane c = { s.crane c with westIn := (s.crane c).west, eastIn := (s.crane c).east } := by
  have h := crane_foldl_range (F := fun s c => { s.crane c with westIn := (s.crane c).west, eastIn := (s.crane c).east })
    (f := fun s c => s.setCrane c { s.crane c with westIn := (s.crane c).west, eastIn := (s.crane c).east })
    (fun _ _ => rfl) (fun s c j hj => by simp [hj.symm]) hc s
  unfold applySettings; dsimp only; split
  · exact h
  · exact h

/-- What a completion leaves of the Clearance Unit comes from the evaluation of the judged sample. -/
theorem clu_completeSample (s : State) (cl : Collecting) : ∃ u : State, u.clu = (applySettings s).clu ∧
    (completeSample s cl).clu = (evaluate u).clu := by
  have htake : ∀ u, (takeSample cl u).clu = u.clu := fun _ => rfl
  refine ⟨takeSample cl ((List.range 3).foldl (judgeCrane cl) (applySettings s)), ?_, ?_⟩
  · rw [htake, clu_judged]
  · rw [completeSample, clu_revokeIntruded]

/-- The fields of SET_CRANE (R154). -/
theorem craneRange_iff {c : Nat} {a : CraneArg} : craneRange c a = true ↔
    c ≤ 2 ∧ (∀ x, a.capacity = some x → x ≤ 100000) ∧ (∀ x, a.west = some x → x ≤ 30000) ∧
      ∀ x, a.east = some x → x ≤ 30000 := by
  have hopt : ∀ (hi : Nat) (o : Option Nat), optFits (inRange 0 hi) o = true ↔ ∀ x, o = some x → x ≤ hi := fun hi o => by
    cases o <;> simp [optFits, inRange]
  simp only [craneRange, Bool.and_eq_true, hopt, decide_eq_true_eq, and_assoc]
  exact and_congr_left fun _ => Nat.lt_succ_iff

/-- Settles O47: the settings accepted come into force before the evaluation of a completion, which leaves them. -/
theorem clearanceIsSettled : Obligations.ClearanceIsSettled := by
  unfold Obligations.ClearanceIsSettled
  refine ⟨fun s c => ⟨?clearOrderFault, fun a => ?setCrane⟩, fun s a => ?setRunway⟩
  case clearOrderFault =>
    intro i vx vy g seen
    refine ⟨fun h => .of_ans rfl (if_pos h), fun h hf => .of_ans rfl ?_, fun h hf => ⟨fun hno => .of_ans rfl ?_,
      fun hseen hg => .of_ans rfl ?_⟩⟩
    all_goals simp only [clearOrderFaultAns, pairRecord, xValidity, if_neg (show ¬ 2 ≤ c by omega), hf]
    · rfl
    · by_cases hseen : seen
      · obtain ⟨x, hx, hlt⟩ := hno.resolve_left (not_not.2 hseen)
        have hany : (s.pair c).gap.any (· < 0) = true := by rw [show (s.pair c).gap = some x from hx]; simpa using hlt
        obtain ⟨hx, hy⟩ := hseen
        simp only [vx, vy] at hx hy
        simp [hx, hy, hany, g, vx, vy]
      · have hunseen : ((s.sampled c).x.validity.placed && (s.sampled (c + 1)).x.validity.placed) = false := by
          simpa [seen, vx, vy] using hseen
        simp only [hunseen]; rfl
    · have hany : (s.pair c).gap.any (· < 0) = false := by
        rw [Option.any_eq_false]
        exact fun x hx => by simpa using hg x hx
      obtain ⟨hx, hy⟩ := hseen
      simp only [vx, vy] at hx hy
      simp [hx, hy, hany, okWith, g, vx, vy]
  case setCrane =>
    intro i v fields heavy w
    have hheavy : a.capacity.any (tooLight s c) = true ↔ heavy := by
      simp only [Option.any_eq_true, tooLight_iff]; rfl
    refine ⟨fun h => .of_ans rfl ?_, fun h hm => .of_ans rfl ?_, fun h hm hh => .of_ans rfl ?_, fun h hm hh => .of_ans rfl ?_⟩
    all_goals unfold setCraneAns
    · rw [if_pos (by simpa using mt craneRange_iff.1 h)]; rfl
    all_goals rw [if_neg (by simpa using craneRange_iff.2 h)]
    · rw [if_pos hm]; rfl
    all_goals rw [if_neg (not_not.2 hm)]
    · rw [if_pos (hheavy.2 hh)]; rfl
    · rw [if_neg (mt hheavy.1 hh)]; rfl
  case setRunway =>
    intro k pick r
    have hpick : ∀ given lo hi kept, lo ≤ hi → settle given lo hi kept = pick given lo hi kept :=
      fun given lo hi kept h => settle_eq given h kept
    have hr : acceptRunway a k = r := by
      simp only [acceptRunway, r]
      congr 1 <;> exact hpick _ _ _ _ (by decide)
    refine ⟨.of_ans rfl (by rw [← hr]; rfl), fun cl => ?_⟩
    obtain ⟨u, hu, hdone⟩ := clu_completeSample s cl
    obtain ⟨hrunway, hnext⟩ := runway_applySettings s
    refine ⟨?_, ?_, fun c hc => ?_⟩
    · rw [hdone, (Reads.evaluate u).runway, hu, hrunway]
    · rw [hdone, runwayNext_evaluate, hu, hnext]
    · have hcrane : (completeSample s cl).crane c = (evaluate u).crane c := by rw [State.crane, hdone]; rfl
      have hbefore : u.crane c = (applySettings s).crane c := by rw [State.crane, hu]; rfl
      have h : ((evaluate u).crane c).westIn = (u.crane c).westIn ∧ ((evaluate u).crane c).eastIn = (u.crane c).eastIn := by
        rw [crane_evaluate u hc]; exact ⟨rfl, rfl⟩
      rw [hcrane, h.1, h.2, hbefore, crane_applySettings s hc]
      exact ⟨rfl, rfl⟩

end Sys2Proof.Machine
end

section
/-! PROOFS. The checks of a handle, and the requests that read a piece (R2, R20, R21). -/

open Sys2Proof Sys2Proof.Machine

namespace Sys2Proof.Machine

/-! ## Answers to a station -/

/-- The answer to a station's request that passes the checks of R178, as the model works it out. -/
theorem StationAnswers.of_ans {i : Instr} {s t : State} {a u : Nat} {role : Role} {k : ReqKind} {st : Status} {r : ReplyRecord}
    {unit : Option Nat} {body : State → Ans} (hx : exec i s = stationRequest k unit body s) (h : s.serves a role u)
    (hr : roleAllows role k = true) (hu : unit.any (· ≠ u) = false) (hb : body (answering s a) = ⟨t, st, r⟩) :
    StationAnswers i s a k st r t := by
  unfold StationAnswers
  rw [hx, stationRequest_serves h hr hu, hb]

theorem roleAllows_readPiece (r : Role) : roleAllows r .readPiece = true := rfl
theorem roleAllows_lookupKey (r : Role) : roleAllows r .lookupKey = true := rfl
theorem roleAllows_readZone (r : Role) : roleAllows r .readZone = true := rfl

@[simp] theorem checkHandle_answering (s : State) (a : Nat) (h : Handle) : checkHandle (answering s a) h = checkHandle s h := by
  simp only [checkHandle, record_answering]

/-! ## The checks of a handle (R2) -/

section Checks

variable {s : State} {h : Handle}

theorem checkHandle_range (hi : 2047 < h.index) : checkHandle s h = .error .range :=
  if_pos (by simp only [Config.pieceRecords]; omega)

theorem checkHandle_stale (hi : h.index ≤ 2047) (hg : (s.record h.index).gen ≠ h.gen) : checkHandle s h = .error .stale := by
  have hlt : ¬ Config.pieceRecords ≤ h.index := by simp only [Config.pieceRecords]; omega
  rw [checkHandle, if_neg hlt, if_pos hg]

theorem checkHandle_notFound (hi : h.index ≤ 2047) (hr : s.record h.index = ⟨h.gen, none⟩) :
    checkHandle s h = .error .notFound := by
  have hlt : ¬ Config.pieceRecords ≤ h.index := by simp only [Config.pieceRecords]; omega
  simp [checkHandle, hlt, hr]

end Checks

/-! ## Reads -/

theorem readPieceAns_error {s : State} {h : Handle} {st : Status} (e : checkHandle s h = .error st) :
    readPieceAns h s = refuse s st := by simp [readPieceAns, e]

theorem readPieceAns_names {s : State} {h : Handle} {p : Piece} (n : s.names h p) :
    readPieceAns h s = okWith s (.piece (pieceView s h p)) := by simp [readPieceAns, checkHandle_names n]

/-- The fields of LOOKUP_KEY (R5, R20). -/
theorem keyOk_iff {k : Key} : keyOk k = true ↔ heatOk k.heat = true ∧ (1 ≤ k.seq ∧ k.seq ≤ 65535) ∧ k.seq ≠ 32768 := by
  simp [keyOk, inRange, and_assoc]

theorem lookupKeyAns_found {s : State} {k : Key} {h : Handle} {p : Piece} (hk : keyOk k = true)
    (hl : dirLookup s.srg k = some h) (hp : s.piece? h = some p) :
    lookupKeyAns k s = okWith s (.keyed h (pieceView s h p)) := by simp [lookupKeyAns, hk, hl, hp]

theorem lookupKeyAns_range {s : State} {k : Key} (hk : ¬ keyOk k = true) : lookupKeyAns k s = refuse s .range := by
  simp [lookupKeyAns, hk]

theorem lookupKeyAns_notFound {s : State} {k : Key} (hk : keyOk k = true) (hl : dirLookup s.srg k = none) :
    lookupKeyAns k s = refuse s .notFound := by simp [lookupKeyAns, hk, hl]

/-- A check of its handle that fails is the answer to every request that starts with it. -/
theorem refuses_of_checkHandle {s : State} {h : Handle} {st : Status} (e : checkHandle s h = .error st) (tag : Nat) :
    ∀ x ∈ [(Instr.retirePiece h, ReqKind.retirePiece), (.setHold h, .setHold), (.releaseHold h, .releaseHold),
      (.reservePiece h tag, .reservePiece), (.unreservePiece h tag, .unreservePiece)], Refuses x.1 s x.2 st := by
  simp only [List.forall_mem_cons, List.not_mem_nil, false_imp_iff, implies_true, and_true]
  refine ⟨.of_ans rfl ?_, .of_ans rfl ?_, .of_ans rfl ?_, .of_ans rfl ?_, .of_ans rfl ?_⟩
  · simp [retirePieceAns, e, refuse]
  · simp [setHoldAns, e, refuse]
  · simp [releaseHoldAns, e, refuse]
  · simp [reservePieceAns, e, refuse]
  · simp [unreservePieceAns, e, refuse]

/-- The place of a handle that a list holds once before it. -/
theorem idxOf_between {h : Handle} {below : List Handle} (hb : h ∉ below) (above : List Handle) :
    (below ++ h :: above).idxOf h = below.length := by
  rw [List.idxOf_append_of_notMem hb, List.idxOf_cons_self, Nat.add_zero]

/-- Settles O11: the host's and the stations' requests start with the same check, and it reads the registry alone. -/
theorem handlesNameLivePieces : Obligations.HandlesNameLivePieces := by
  unfold Obligations.HandlesNameLivePieces
  refine ⟨fun s h => ?host, fun s h p a r u n => ?found, fun s k a r u => ?lookup, fun s h tag c l d a r u => ?checks,
    fun s h p below above hb => ?view⟩
  case host =>
    exact ⟨fun hi => .of_ans rfl (readPieceAns_error (checkHandle_range hi)),
      fun hi hg => .of_ans rfl (readPieceAns_error (checkHandle_stale hi hg)),
      fun hi hr => .of_ans rfl (readPieceAns_error (checkHandle_notFound hi hr)),
      fun p n => .of_ans rfl (readPieceAns_names n)⟩
  case found =>
    have hp := piece?_names n
    refine ⟨fun hs => .of_ans rfl hs (roleAllows_readPiece r) rfl ?_, fun k hh h1 h2 h3 hl => ⟨.of_ans rfl ?_,
      fun hs => .of_ans rfl hs (roleAllows_lookupKey r) rfl ?_⟩⟩
    · simp [readPieceAns, checkHandle_names n, okWith]
    all_goals have hk := keyOk_iff.2 ⟨hh, ⟨h1, h2⟩, h3⟩
    · exact lookupKeyAns_found hk hl hp
    · simp [lookupKeyAns, hk, hl, hp, okWith]
  case lookup =>
    intro fields both
    refine ⟨fun hf => ⟨.of_ans rfl ?_, fun hs => .of_ans rfl hs (roleAllows_lookupKey r) rfl ?_⟩,
      fun hf hl => ⟨.of_ans rfl ?_, fun hs => .of_ans rfl hs (roleAllows_lookupKey r) rfl ?_⟩⟩
    · exact lookupKeyAns_range (mt keyOk_iff.1 hf)
    · exact lookupKeyAns_range (mt keyOk_iff.1 hf)
    · exact lookupKeyAns_notFound (keyOk_iff.2 hf) hl
    · exact lookupKeyAns_notFound (keyOk_iff.2 hf) (by rw [srg_answering]; exact hl)
  case checks =>
    intro all
    have hall : ∀ st, checkHandle s h = .error st → all st := fun st e => by
      refine ⟨refuses_of_checkHandle e tag, fun hd hc hq => .of_ans rfl ?_,
        fun hs => .of_ans rfl hs (roleAllows_readPiece r) rfl (readPieceAns_error (by rw [checkHandle_answering, e]))⟩
      have hroom : ¬ Config.queueRoom ≤ (s.queue c).length := by simp only [Config.queueRoom]; omega
      simp [queueMoveAns, hd, e, refuse, hroom, Nat.not_le.2 (Nat.lt_succ_of_le hc)]
    exact ⟨fun hi => hall _ (checkHandle_range hi), fun hi hg => hall _ (checkHandle_stale hi hg),
      fun hi hr => hall _ (checkHandle_notFound hi hr)⟩
  case view =>
    intro lies
    refine ⟨fun n hp hs => ?_, fun hp hs => ?_, rfl, rfl, fun n => by simp [viewOf, piece?_names n]⟩
    · simp [pieceView, pieceDepth, piecePos, hp, hs, idxOf_between hb, lies]; omega
    · simp [pieceView, piecePos, hp, hs, idxOf_between hb, lies]; omega

end Sys2Proof.Machine
end

section
/-! PROOFS. The creation of pieces (R6, R7, R14), and the requests that enrol them (R15, R16). -/

open Sys2Proof Sys2Proof.Machine

namespace Sys2Proof.Machine

/-! ## Counters that run round -/

/-- A number in a count from 1 to `M` that starts again after `M`. -/
def roundFrom (M c j : Nat) : Nat := (c - 1 + j) % M + 1

theorem roundFrom_zero {M c : Nat} (h1 : 1 ≤ c) (hM : c ≤ M) : roundFrom M c 0 = c := by
  rw [roundFrom, Nat.add_zero, Nat.mod_eq_of_lt (by omega)]; omega

theorem roundFrom_succ {M : Nat} (hM : 0 < M) (c j : Nat) :
    roundFrom M c (j + 1) = if M ≤ roundFrom M c j then 1 else roundFrom M c j + 1 := by
  have hlt := Nat.mod_lt (c - 1 + j) hM
  have hsucc : (c - 1 + (j + 1)) % M = ((c - 1 + j) % M + 1) % M := by rw [← Nat.add_assoc, Nat.mod_add_mod]
  unfold roundFrom
  rw [hsucc]
  split
  · rw [show (c - 1 + j) % M + 1 = M by omega, Nat.mod_self]
  · rw [Nat.mod_eq_of_lt (by omega)]

/-- Fewer than `M` numbers of the count do not meet. -/
theorem roundFrom_inj {M c i j : Nat} (hi : i < M) (hj : j < M) (h : roundFrom M c i = roundFrom M c j) : i = j := by
  have hmod : c - 1 + i ≡ c - 1 + j [MOD M] := Nat.succ_injective h
  exact Nat.ModEq.eq_of_lt_of_lt (Nat.ModEq.add_left_cancel' _ hmod) hi hj

theorem next32_iterate {c : Nat} (h1 : 1 ≤ c) (hM : c ≤ 4294967295) (j : Nat) : next32^[j] c = roundFrom 4294967295 c j := by
  induction j with
  | zero => rw [Function.iterate_zero_apply, roundFrom_zero h1 hM]
  | succ j ih => rw [Function.iterate_succ_apply', ih, roundFrom_succ (by omega)]; rfl

/-! ## The creation sequence (R6) -/

/-- The draw goes on past the numbers in use. -/
theorem freeCreated_spec (s : State) (fuel c : Nat) : ∃ n, n ≤ fuel ∧ freeCreated s fuel c = next32^[n] c ∧
    (∀ m, m < n → createdInUse s (next32^[m] c) = true) ∧ (n < fuel → createdInUse s (next32^[n] c) = false) := by
  induction fuel generalizing c with
  | zero => exact ⟨0, le_rfl, rfl, nofun, nofun⟩
  | succ fuel ih =>
    by_cases h : createdInUse s c = true
    · obtain ⟨n, hn, he, hb, hf⟩ := ih (next32 c)
      refine ⟨n + 1, by omega, by simp [freeCreated, h, he], fun m hm => ?_, fun hlt => hf (by omega)⟩
      cases m with
      | zero => exact h
      | succ m => exact hb m (by omega)
    · exact ⟨0, by omega, by simp [freeCreated, h], nofun, fun _ => by simpa using h⟩

/-- The live pieces, in a canonical bank. -/
theorem mem_livePieces {s : State} (h : Canonical s) {x : Handle} {p : Piece} : (x, p) ∈ s.livePieces ↔ s.piece? x = some p := by
  rw [piece?_eq_some]
  simp only [State.livePieces, List.mem_filterMap, Option.map_eq_some_iff, Prod.mk.injEq]
  constructor
  · rintro ⟨⟨i, g, l⟩, hm, q, hl, rfl, rfl⟩
    simp only at hl; subst hl
    exact ((mem_bank _ h.1.1).1 hm).1
  · intro hr
    exact ⟨(x.index, ⟨x.gen, some p⟩), (mem_bank _ h.1.1).2 ⟨hr, by simp [PieceRecord.reset]⟩, p, rfl, rfl, rfl⟩

theorem createdInUse_iff {s : State} (h : Canonical s) (c : Nat) :
    createdInUse s c = true ↔ ∃ x p, s.piece? x = some p ∧ p.created = c := by
  simp only [createdInUse, List.any_eq_true, Prod.exists, mem_livePieces h, beq_iff_eq]

/-- There are no more live pieces than records. -/
theorem length_livePieces_le {s : State} (h : Canonical s) (hlive : ∀ i, 2048 ≤ i → (s.record i).live = none) :
    s.livePieces.length ≤ 2048 := by
  have hindex : s.livePieces.map (fun e => e.1.index) =
      (s.srg.records.filter fun e => e.2.live.isSome).map (·.1) := by
    unfold State.livePieces
    induction s.srg.records with
    | nil => rfl
    | cons e r ih => cases he : e.2.live <;> simp [he, ih]
  have hnodup : (s.livePieces.map fun e => e.1.index).Nodup := by
    rw [hindex]
    exact (((bankWf_iff _ _).1 h.1.1).1.imp fun hlt => Nat.ne_of_lt hlt).sublist (List.filter_sublist.map _)
  have hsub : (s.livePieces.map fun e => e.1.index) ⊆ List.range 2048 := fun i hi => by
    obtain ⟨⟨x, p⟩, hm, rfl⟩ := List.mem_map.1 hi
    by_contra hge
    have hr := piece?_eq_some.1 ((mem_livePieces h).1 hm)
    have := hlive x.index (by simpa using hge)
    rw [hr] at this; cases this
  simpa using (hnodup.subperm hsub).length_le

/-- 2,049 numbers of the count are not all in use: there are no more than 2,048 pieces. -/
theorem exists_not_createdInUse {s : State} (h : Canonical s) (hlive : ∀ i, 2048 ≤ i → (s.record i).live = none) {c : Nat}
    (h1 : 1 ≤ c) (hM : c ≤ 4294967295) : ∃ m, m < 2049 ∧ createdInUse s (next32^[m] c) = false := by
  by_contra hall
  have huse : ∀ m, m < 2049 → createdInUse s (next32^[m] c) = true := fun m hm => by
    by_contra hne; exact hall ⟨m, hm, by simpa using hne⟩
  have hnodup : ((List.range 2049).map fun m => next32^[m] c).Nodup := by
    refine List.Nodup.map_on (fun i hi j hj e => ?_) List.nodup_range
    rw [next32_iterate h1 hM, next32_iterate h1 hM] at e
    exact roundFrom_inj (by have := List.mem_range.1 hi; omega) (by have := List.mem_range.1 hj; omega) e
  have hsub : ((List.range 2049).map fun m => next32^[m] c) ⊆ s.livePieces.map fun e => e.2.created := fun x hx => by
    obtain ⟨m, hm, rfl⟩ := List.mem_map.1 hx
    obtain ⟨e, he, hc⟩ := List.any_eq_true.1 (huse m (List.mem_range.1 hm))
    exact List.mem_map.2 ⟨e, he, by simpa using hc⟩
  have hle := (hnodup.subperm hsub).length_le
  have := length_livePieces_le h hlive
  rw [List.length_map, List.length_range, List.length_map] at hle
  omega

/-- The sequence drawn is the first from the counter on that no live piece carries (R6). -/
theorem drawCreated_spec {s : State} (h : Canonical s) (hlive : ∀ i, 2048 ≤ i → (s.record i).live = none)
    (h1 : 1 ≤ s.srg.creation) (hM : s.srg.creation ≤ 4294967295) : createdInUse s (drawCreated s) = false ∧
      ∃ n, drawCreated s = next32^[n] s.srg.creation ∧ ∀ m, m < n → createdInUse s (next32^[m] s.srg.creation) = true := by
  obtain ⟨n, hn, he, hb, hf⟩ := freeCreated_spec s (Config.pieceRecords + 1) s.srg.creation
  obtain ⟨m, hm, hfree⟩ := exists_not_createdInUse h hlive h1 hM
  have hlt : n < 2049 := by
    by_contra hge
    have := hb m (by simp only [Config.pieceRecords] at hn; omega)
    rw [hfree] at this; cases this
  exact ⟨(congrArg (createdInUse s) he).trans (hf hlt), n, he, hb⟩

/-! ## Creation with a given key (R12, R14) -/

section Creation

variable {s : State} {p : Piece} {i : Nat}

theorem createKeyed_duplicate (h : (dirLookup s.srg p.key).isSome = true) : createKeyed s p = .error .duplicateKey := by
  simp [createKeyed, h]

theorem createKeyed_full (h : dirLookup s.srg p.key = none) (hf : s.full) : createKeyed s p = .error .registryFull := by
  simp [createKeyed, h, freeRecord_eq_none hf]

theorem createKeyed_free (h : dirLookup s.srg p.key = none) (hf : s.lowestFree i) : createKeyed s p = createAt s i p := by
  obtain ⟨hi, hl, hb⟩ := hf
  simp [createKeyed, h, freeRecord_eq_some hi hl hb]

theorem createAt_error {st : Status} (h : dirInsert s.srg p.key (s.handleAt i) = .error st) :
    createAt s i p = .error st := by
  simp only [State.handleAt] at h
  simp [createAt, h]

/-- A new piece joins its collection with its key in the directory and its record written. -/
theorem createAt_ok {g : Srg} (h : dirInsert s.srg p.key (s.handleAt i) = .ok g) : createAt s i p = .ok (s.handleAt i,
    joinPlace (({ s with srg := g } : State).setRecord i ⟨(s.handleAt i).gen, some p⟩) p.place (s.handleAt i) p.thickness) := by
  simp only [State.handleAt] at h ⊢
  simp [createAt, h]

end Creation

/-! ## ENROL_PLATE (R15) -/

theorem plateMass_eq (len wid thickness : Nat) :
    plateMass len wid thickness = (len * wid * thickness * 785 + 999999999) / 1000000000 := by
  unfold plateMass ceilDiv; rw [Nat.add_sub_assoc (by norm_num)]; norm_num

theorem remnantMass_eq (net thickness : Nat) : remnantMass net thickness = (net * thickness * 785 + 9999999) / 10000000 := by
  unfold remnantMass ceilDiv; rw [Nat.add_sub_assoc (by norm_num)]; norm_num

theorem keyOkFor_plate {k : Key} : keyOkFor .plate k = true ↔ heatOk k.heat = true ∧ 1 ≤ k.seq ∧ k.seq ≤ 32767 := by
  simp [keyOkFor, inRange]

theorem keyOkFor_remnant {k : Key} : keyOkFor .remnant k = true ↔ heatOk k.heat = true ∧ 32769 ≤ k.seq ∧ k.seq ≤ 65535 := by
  simp [keyOkFor, inRange]

/-- The fields of ENROL_PLATE. -/
theorem plateFields_iff {key : Key} {grade thickness len wid : Nat} :
    (keyOkFor .plate key && steelOk grade thickness && outlineOk len wid) = true ↔
      heatOk key.heat = true ∧ (1 ≤ key.seq ∧ key.seq ≤ 32767) ∧ grade ≤ 63 ∧ (30 ≤ thickness ∧ thickness ≤ 1000) ∧
        (1000 ≤ len ∧ len ≤ 18000) ∧ 500 ≤ wid ∧ wid ≤ 4800 := by
  simp only [Bool.and_eq_true, keyOkFor_plate, steelOk_iff, outlineOk_iff, and_assoc]

theorem bnot_of_not {b : Bool} (h : ¬ b = true) : (!b) = true := by simpa using h

theorem not_bnot {b : Bool} (h : b = true) : ¬ (!b) = true := by simpa using h

/-- The plate of ENROL_PLATE in figures (R8, R14). -/
theorem newPlate_eq (key : Key) (grade thickness len wid created : Nat) : newPlate key grade thickness len wid created =
    { key := key, kind := .plate, grade := grade, thickness := thickness, len := len, wid := wid, rects := [],
      net := len * wid / 100, mass := (len * wid * thickness * 785 + 999999999) / 1000000000,
      state := .arriving, place := .receiving, reservation := none, hold := false, move := none, created := created } := by
  rw [newPlate, plateMass_eq]; rfl

/-- Past its checks ENROL_PLATE creates the plate. -/
theorem enrolPlateAns_fits {key : Key} {grade thickness len wid : Nat} {s : State} (hm : s.ppn.mode ≠ .stopped)
    (hf : (keyOkFor .plate key && steelOk grade thickness && outlineOk len wid) = true)
    (hroom : s.lmap.receiving.length < 32) : enrolPlateAns key grade thickness len wid s =
      match createKeyed s (newPlate key grade thickness len wid (drawCreated s)) with
      | .error e => refuse s e
      | .ok (h, t) =>
        okWith { t with srg := { t.srg with creation := next32 (drawCreated s) } }
          (pieceRecord { t with srg := { t.srg with creation := next32 (drawCreated s) } } h) := by
  have hrow : ¬ Config.rowRoom ≤ s.lmap.receiving.length := by simp only [Config.rowRoom]; omega
  rw [enrolPlateAns, if_neg hm, if_neg (not_bnot hf), if_neg hrow] <;> rfl

/-- Settles O12: the checks in order, then a creation; and of 2,049 numbers from the counter on one is free. -/
theorem enrolPlateCreates : Obligations.EnrolPlateCreates := by
  unfold Obligations.EnrolPlateCreates
  refine ⟨fun s key grade thickness len wid => ?enrol, fun l => ?heat, fun s hc hlive h1 hM => ?created⟩
  case enrol =>
    intro c fields
    have hfields := plateFields_iff (key := key) (grade := grade) (thickness := thickness) (len := len) (wid := wid)
    refine ⟨fun hm => .of_ans rfl (if_pos hm), fun hm hf => .of_ans rfl ?_, fun hm hf hroom => .of_ans rfl ?_,
      fun hm hf hroom => ?_⟩
    · rw [enrolPlateAns, if_neg hm, if_pos (bnot_of_not (mt hfields.1 hf))]; rfl
    · rw [enrolPlateAns, if_neg hm, if_neg (not_bnot (hfields.2 hf)), if_pos (show Config.rowRoom ≤ _ from hroom)]; rfl
    have hans := enrolPlateAns_fits (len := len) (wid := wid) hm (hfields.2 hf) hroom
    rw [newPlate_eq] at hans
    refine ⟨fun hd => .of_ans rfl ?_, fun hd => ⟨fun hfull => .of_ans rfl ?_, fun i hi hl hb => ?_⟩⟩
    · rw [hans, createKeyed_duplicate hd]; rfl
    · rw [hans, createKeyed_full hd hfull]; rfl
    intro h
    refine ⟨fun he => .of_ans rfl ?_, fun g hg => ?_⟩
    · rw [hans, createKeyed_free hd ⟨hi, hl, hb⟩, createAt_error he]; rfl
    intro p t t'
    have hp : t'.piece? h = some p := by
      show (({ s with srg := g } : State).setRecord i ⟨h.gen, some p⟩).piece? h = some p
      simp [h]
    refine .of_ans rfl ?_
    rw [hans, createKeyed_free hd ⟨hi, hl, hb⟩, createAt_ok hg]
    exact congrArg (Ans.mk t' .ok) (pieceRecord_eq hp)
  case heat => exact heatOk_iff.trans (by simp only [heatChar_iff])
  case created =>
    have hnames : ∀ {x p}, s.names x p ↔ s.piece? x = some p := fun {x p} => by
      refine ⟨piece?_names, fun hp => ⟨?_, piece?_eq_some.1 hp⟩⟩
      by_contra hge
      have := hlive x.index (by simp only [Config.pieceRecords] at hge; omega)
      rw [piece?_eq_some.1 hp] at this; cases this
    obtain ⟨hfree, n, he, hb⟩ := drawCreated_spec hc hlive h1 hM
    refine ⟨fun x p hn e => ?_, n, he, fun m hm => ?_⟩
    · rw [(createdInUse_iff hc _).2 ⟨x, p, piece?_names hn, e⟩] at hfree; cases hfree
    · obtain ⟨x, p, hp, hcr⟩ := (createdInUse_iff hc _).1 (hb m hm)
      exact ⟨x, p, hnames.2 hp, hcr⟩

end Sys2Proof.Machine
end

section
/-! PROOFS. Remnants: the fields of a declaration, the key drawn, the creation (R7, R8, R16). -/

open Sys2Proof Sys2Proof.Machine

namespace Sys2Proof.Machine

/-! ## The fields of a declaration (R1, R8) -/

theorem foldl_max_le {l : List Nat} {a n : Nat} : l.foldl max a ≤ n ↔ a ≤ n ∧ ∀ x ∈ l, x ≤ n := by
  induction l generalizing a with
  | nil => simp
  | cons x l ih => rw [List.foldl_cons, ih]; simp [and_assoc]

theorem foldl_add_eq_sum (l : List Nat) : l.foldl (· + ·) 0 = l.sum := (List.sum_eq_foldl (xs := l)).symm

theorem rectOk_iff {len wid : Nat} {r : Rect} : rectOk len wid r = true ↔
    (1 ≤ r.len ∧ r.len ≤ 18000) ∧ (1 ≤ r.wid ∧ r.wid ≤ 4800) ∧ r.len ≤ len ∧ r.wid ≤ wid ∧ r.dx + r.len ≤ 18000 ∧
      r.dy + r.wid ≤ 4800 := by
  simp only [rectOk, Bool.and_eq_true, inRange_iff, decide_eq_true_eq, and_assoc]

theorem netOk_iff {rects : List Rect} {net : Nat} : netOk rects net = true ↔
    (∀ r ∈ rects, r.len * r.wid / 100 ≤ net) ∧ net ≤ (rects.map fun r => r.len * r.wid / 100).sum := by
  simp only [netOk, Bool.and_eq_true, decide_eq_true_eq, foldl_max_le, foldl_add_eq_sum, Nat.zero_le, true_and,
    List.forall_mem_map, area]

theorem remnantOk_iff {d : DeclArg} : remnantOk d = true ↔ RemnantFields d := by
  simp only [remnantOk, RemnantFields, OutlineFields, Bool.and_eq_true, outlineOk_iff, inRange_iff, List.all_eq_true,
    rectOk_iff, netOk_iff, and_assoc]

/-! ## The key drawn (R7) -/

theorem nextRemnant_eq (n : Nat) : nextRemnant n = if n < 32767 then n + 1 else 1 := by
  obtain h | h := Nat.lt_or_ge n 32767
  · rw [if_pos h, nextRemnant, if_neg (show ¬ Config.maxRemnant ≤ n by simp only [Config.maxRemnant]; omega)]
  · rw [if_neg (by omega), nextRemnant, if_pos (show Config.maxRemnant ≤ n from h)]

theorem remnantKey_eq (s : State) (heat : List Nat) (j : Nat) :
    s.remnantKey heat j = ⟨heat, 32768 + nextRemnant^[j] s.srg.remnant⟩ := by
  rw [State.remnantKey, show nextRemnant = fun n => if n < 32767 then n + 1 else 1 from funext nextRemnant_eq]

theorem drawRemnant_some {s : State} {heat : List Nat} {fuel n j : Nat} (hj : j < fuel)
    (hf : dirLookup s.srg ⟨heat, 32768 + nextRemnant^[j] n⟩ = none)
    (hb : ∀ m, m < j → dirLookup s.srg ⟨heat, 32768 + nextRemnant^[m] n⟩ ≠ none) :
    drawRemnant s heat fuel n = some (nextRemnant^[j] n) := by
  induction fuel generalizing n j with
  | zero => omega
  | succ fuel ih =>
    cases j with
    | zero =>
      rw [Function.iterate_zero_apply] at hf
      simp [drawRemnant, hf]
    | succ j =>
      have h0 : (dirLookup s.srg ⟨heat, 32768 + n⟩).isSome = true := Option.isSome_iff_ne_none.2 (hb 0 (by omega))
      rw [drawRemnant, if_pos h0, Function.iterate_succ_apply]
      exact ih (by omega) hf fun m hm => hb (m + 1) (by omega)

theorem drawRemnant_none {s : State} {heat : List Nat} {fuel n : Nat}
    (h : ∀ j, j < fuel → dirLookup s.srg ⟨heat, 32768 + nextRemnant^[j] n⟩ ≠ none) : drawRemnant s heat fuel n = none := by
  induction fuel generalizing n with
  | zero => rfl
  | succ fuel ih =>
    have h0 : (dirLookup s.srg ⟨heat, 32768 + n⟩).isSome = true := Option.isSome_iff_ne_none.2 (h 0 (by omega))
    rw [drawRemnant, if_pos h0]
    exact ih fun j hj => h (j + 1) (by omega)

theorem drawRemnant_drawsKey {s : State} {heat : List Nat} {key : Key} (h : s.drawsKey heat key) :
    ∃ n, key = ⟨heat, 32768 + n⟩ ∧ drawRemnant s heat Config.maxRemnant s.srg.remnant = some n := by
  obtain ⟨j, hj, hk, hf, hb⟩ := h
  simp only [remnantKey_eq] at hk hb
  exact ⟨_, hk, drawRemnant_some hj (hk ▸ hf) hb⟩

theorem drawRemnant_drawsNone {s : State} {heat : List Nat} (h : s.drawsNone heat) :
    drawRemnant s heat Config.maxRemnant s.srg.remnant = none :=
  drawRemnant_none fun j hj => by have := h j hj; rwa [remnantKey_eq] at this

/-! ## Creation of a remnant -/

section Creation

variable {s : State} {heat : List Nat} {p : Piece} {i : Nat} {key : Key}

theorem freeRecord_lowestFree (h : s.lowestFree i) : freeRecord s = some i := freeRecord_eq_some h.1 h.2.1 h.2.2

theorem createRemnant_full (h : s.full) : createRemnant s heat p = (.error .registryFull, s) := by
  simp [createRemnant, freeRecord_eq_none h]

theorem createRemnant_noKey (hi : s.lowestFree i) (h : s.drawsNone heat) :
    createRemnant s heat p = (.error .duplicateKey, s) := by
  simp [createRemnant, freeRecord_lowestFree hi, drawRemnant_drawsNone h]

theorem createRemnant_directoryFull (hi : s.lowestFree i) (h : s.drawsKey heat key)
    (he : dirInsert s.srg key (s.handleAt i) = .error .directoryFull) :
    createRemnant s heat p = (.error .directoryFull, withoutRemnant s key) := by
  obtain ⟨n, rfl, hn⟩ := drawRemnant_drawsKey h
  simp only [createRemnant, freeRecord_lowestFree hi, hn]
  rw [createAt_error (p := { p with key := ⟨heat, 32768 + n⟩, created := drawCreated s }) he, withoutRemnant,
    Nat.add_sub_cancel_left]

/-- A remnant on the bed of a zone: both counters move past what was drawn. -/
theorem createRemnant_ok {z : Nat} {g : Srg} (hz : p.place = .zone z) (hi : s.lowestFree i) (h : s.drawsKey heat key)
    (hg : dirInsert s.srg key (s.handleAt i) = .ok g) : createRemnant s heat p =
      (.ok (s.handleAt i), withRemnant s z i g { p with key := key, created := drawCreated s }) := by
  obtain ⟨n, rfl, hn⟩ := drawRemnant_drawsKey h
  simp only [createRemnant, freeRecord_lowestFree hi, hn]
  rw [createAt_ok (p := { p with key := ⟨heat, 32768 + n⟩, created := drawCreated s }) hg]
  have hcount : nextRemnant n = if 32768 + n < 65535 then 32768 + n - 32767 else 1 := by
    rw [nextRemnant_eq]; split <;> split <;> omega
  simp only [hz, hcount]
  rfl

end Creation

/-- What a creation shows of its remnant. -/
theorem piece?_withRemnant (s : State) (z i : Nat) (g : Srg) (p : Piece) :
    (withRemnant s z i g p).piece? (s.handleAt i) = some p := by
  show (({ s with srg := g } : State).setRecord i ⟨(s.handleAt i).gen, some p⟩).piece? (s.handleAt i) = some p
  simp [State.handleAt]

/-- The remnant of ENROL_REMNANT in figures (R8, R16). -/
theorem newRemnant_drawn (s : State) (heat : List Nat) (grade thickness : Nat) (d : DeclArg) (z : Nat) (key : Key) :
    { newRemnant heat grade thickness d z with key := key, created := drawCreated s } =
      remnantAt s z key grade thickness d := by
  simp only [newRemnant, remnantAt, remnantMass_eq]

/-- Settles O13: the checks in order, then the creation of a remnant. -/
theorem enrolRemnantCreates : Obligations.EnrolRemnantCreates := by
  unfold Obligations.EnrolRemnantCreates
  intro s za z i heat grade thickness d key c fields
  have hfields : (heatOk heat && steelOk grade thickness && remnantOk d) = true ↔ fields := by
    have hsteel : steelOk grade thickness = true ↔ SteelFields grade thickness := steelOk_iff
    simp only [Bool.and_eq_true, hsteel, remnantOk_iff, and_assoc]; rfl
  refine ⟨fun hm => .of_ans rfl (if_pos hm), fun hm hf => .of_ans rfl ?_, fun hm hz hf => ?_⟩
  · rw [enrolRemnantAns, if_neg hm]
    cases hz : zoneArg? za with
    | none => rfl
    | some k =>
      have hno := hf.resolve_left (by simp [hz])
      simp only [if_pos (bnot_of_not (mt hfields.1 hno))]; rfl
  have hans : enrolRemnantAns za heat grade thickness d s =
      if (s.zone z).phase ≠ .cut then refuse s .badState
      else if Config.bedRoom ≤ (s.bed z).pieces.length then refuse s .noRoom
      else match createRemnant s heat (newRemnant heat grade thickness d z) with
        | (.error e, s) => refuse s e
        | (.ok h, s) => okWith s (pieceRecord s h) := by
    rw [enrolRemnantAns, if_neg hm, hz]
    simp only [if_neg (not_bnot (hfields.2 hf))] <;> rfl
  refine ⟨fun hp => .of_ans rfl (hans.trans (if_pos hp)), fun hp hroom => .of_ans rfl ?_, fun hp hroom => ?_⟩
  · rw [hans, if_neg (not_not.2 hp), if_pos (show Config.bedRoom ≤ _ from hroom)]; rfl
  rw [if_neg (not_not.2 hp), if_neg (show ¬ Config.bedRoom ≤ _ by simp only [Config.bedRoom]; omega)] at hans
  refine ⟨fun hfull => .of_ans rfl ?_, fun hi hn => .of_ans rfl ?_, fun hi hk => ⟨fun he => .of_ans rfl ?_, fun g hg => ?_⟩⟩
  · rw [hans, createRemnant_full hfull]; rfl
  · rw [hans, createRemnant_noKey hi hn]; rfl
  · rw [hans, createRemnant_directoryFull hi hk he]; rfl
  · intro p t
    refine .of_ans rfl ?_
    rw [hans, createRemnant_ok (z := z) rfl hi hk hg, newRemnant_drawn]
    exact congrArg (Ans.mk t .ok) (pieceRecord_eq (piece?_withRemnant s z i g p))

end Sys2Proof.Machine
end

section
/-! PROOFS. RESTORE_PIECE, RETIRE_PIECE, and the hold and reservation of a piece (R17 to R19, R22 to R24). -/

open Sys2Proof Sys2Proof.Machine

namespace Sys2Proof.Machine

/-! ## The piece and the place that RESTORE_PIECE describes (R17, R18) -/

theorem placeArg?_iff (l : LocArg) (pl : Place) : placeArg? l = some pl ↔
    (l = .receiving ∧ pl = .receiving) ∨
    (∃ x, l = .slot x ∧ x.bay ≤ 9 ∧ x.slot ≤ 15 ∧ pl = .slot (16 * x.bay + x.slot)) ∨
    (∃ x, l = .zone x ∧ x.table ≤ 5 ∧ x.bed ≤ 1 ∧ pl = .zone (2 * x.table + x.bed)) ∨
    ∃ x, l = .hook x ∧ x ≤ 2 ∧ pl = .hook x := by
  cases l with
  | receiving => simp [placeArg?, eq_comm]
  | slot a =>
    by_cases h : a.bay ≤ 9 ∧ a.slot ≤ 15
    · simp [placeArg?, slotArg?_eq h.1 h.2, h, eq_comm]
    · have hn : slotArg? a = none := slotArg?_none (by omega)
      simp only [placeArg?, hn, Option.map_none]
      simp; tauto
  | zone z =>
    by_cases h : z.table ≤ 5 ∧ z.bed ≤ 1
    · simp [placeArg?, zoneArg?_eq h.1 h.2, h, eq_comm]
    · have hn : zoneArg? z = none := zoneArg?_none (by omega)
      simp only [placeArg?, hn, Option.map_none]
      simp; tauto
  | hook c =>
    by_cases h : c ≤ 2
    · simp [placeArg?, Nat.lt_succ_of_le h, h, eq_comm]
    · simp [placeArg?, h, show ¬ c < 3 by omega]
  | other k => simp [placeArg?]

/-- A plate as its fields describe it. -/
def platePiece (a : RestoreArg) (pl : Place) : Piece :=
  { key := a.key, kind := .plate, grade := a.grade, thickness := a.thickness, len := a.len, wid := a.wid, rects := [],
    net := a.len * a.wid / 100, mass := (a.len * a.wid * a.thickness * 785 + 999999999) / 1000000000,
    state := stateAt pl, place := pl, reservation := none, hold := a.hold, move := none, created := a.created }

/-- A remnant as its fields describe it. -/
def remnantPiece (a : RestoreArg) (pl : Place) : Piece :=
  { key := a.key, kind := .remnant, grade := a.grade, thickness := a.thickness, len := a.len, wid := a.wid,
    rects := a.rects, net := a.net, mass := (a.net * a.thickness * 785 + 9999999) / 10000000,
    state := stateAt pl, place := pl, reservation := none, hold := a.hold, move := none, created := a.created }

/-- The fields that plate and remnant share. -/
def RestoreCommon (a : RestoreArg) : Prop :=
  SteelFields a.grade a.thickness ∧ 1 ≤ a.created ∧ a.created ≤ 4294967295 ∧ heatOk a.key.heat = true
/-- The fields of a plate. -/
def RestorePlate (a : RestoreArg) : Prop :=
  a.kind = 0 ∧ (1 ≤ a.key.seq ∧ a.key.seq ≤ 32767) ∧ OutlineFields a.len a.wid
/-- The fields of a remnant. -/
def RestoreRemnant (a : RestoreArg) : Prop :=
  a.kind = 1 ∧ (32769 ≤ a.key.seq ∧ a.key.seq ≤ 65535) ∧ RemnantFields ⟨a.len, a.wid, a.rects, a.net⟩

theorem restored_eq (a : RestoreArg) (pl : Place) [Decidable (RestoreCommon a)] [Decidable (RestorePlate a)]
    [Decidable (RestoreRemnant a)] : restored a pl =
      if RestoreCommon a then
        if RestorePlate a then some (platePiece a pl) else if RestoreRemnant a then some (remnantPiece a pl) else none
      else none := by
  have hsteel : (steelOk a.grade a.thickness && inRange 1 Config.max32 a.created) = true ↔
      SteelFields a.grade a.thickness ∧ 1 ≤ a.created ∧ a.created ≤ 4294967295 := by
    rw [Bool.and_eq_true, steelOk_iff, inRange_iff]; exact Iff.rfl
  have hplate : (keyOkFor .plate a.key && outlineOk a.len a.wid) = true ↔
      heatOk a.key.heat = true ∧ (1 ≤ a.key.seq ∧ a.key.seq ≤ 32767) ∧ OutlineFields a.len a.wid := by
    rw [Bool.and_eq_true, keyOkFor_plate, outlineOk_iff, and_assoc]; exact Iff.rfl
  have hremnant : (keyOkFor .remnant a.key && remnantOk ⟨a.len, a.wid, a.rects, a.net⟩) = true ↔
      heatOk a.key.heat = true ∧ (32769 ≤ a.key.seq ∧ a.key.seq ≤ 65535) ∧ RemnantFields ⟨a.len, a.wid, a.rects, a.net⟩ := by
    rw [Bool.and_eq_true, keyOkFor_remnant, remnantOk_iff, and_assoc]
  unfold restored
  by_cases hs : SteelFields a.grade a.thickness ∧ 1 ≤ a.created ∧ a.created ≤ 4294967295
  · rw [if_neg (not_bnot (hsteel.2 hs))]
    by_cases h0 : a.kind = 0
    · have hr : ¬ RestoreRemnant a := fun h => by simp [h.1] at h0
      rw [if_pos h0]
      by_cases hp : heatOk a.key.heat = true ∧ (1 ≤ a.key.seq ∧ a.key.seq ≤ 32767) ∧ OutlineFields a.len a.wid
      · rw [if_pos (hplate.2 hp), if_pos ⟨hs.1, hs.2.1, hs.2.2, hp.1⟩, if_pos ⟨h0, hp.2⟩, newPlate_eq]
        rfl
      · rw [if_neg (mt hplate.1 hp), if_neg hr]
        split
        · next hc => rw [if_neg fun h => hp ⟨hc.2.2.2, h.2⟩]
        · rfl
    · have hp : ¬ RestorePlate a := fun h => h0 h.1
      rw [if_neg h0, if_neg hp]
      by_cases h1 : a.kind = 1
      · rw [if_pos h1]
        by_cases hr : heatOk a.key.heat = true ∧ (32769 ≤ a.key.seq ∧ a.key.seq ≤ 65535) ∧
            RemnantFields ⟨a.len, a.wid, a.rects, a.net⟩
        · rw [if_pos (hremnant.2 hr), if_pos ⟨hs.1, hs.2.1, hs.2.2, hr.1⟩, if_pos ⟨h1, hr.2⟩]
          simp only [newRemnant, remnantMass_eq]
          rfl
        · rw [if_neg (mt hremnant.1 hr)]
          split
          · next hc => rw [if_neg fun h => hr ⟨hc.2.2.2, h.2⟩]
          · rfl
      · rw [if_neg h1, if_neg fun h : RestoreRemnant a => h1 h.1, ite_self]
  · rw [if_pos (bnot_of_not (mt hsteel.1 hs)), if_neg fun h : RestoreCommon a => hs ⟨h.1, h.2.1, h.2.2.1⟩]

theorem restored_place {a : RestoreArg} {pl : Place} {p : Piece} (h : restored a pl = some p) :
    p.place = pl ∧ p.state = stateAt pl := by
  classical
  rw [restored_eq] at h
  split at h
  · split at h
    · injection h with h; subst h; exact ⟨rfl, rfl⟩
    · split at h
      · injection h with h; subst h; exact ⟨rfl, rfl⟩
      · cases h
  · cases h

/-! ## The refusals by location -/

theorem currentMove_isSome {s : State} {c : Nat} : (currentMove s c).isSome = true ↔
    ∃ m q, s.queue c = m :: q ∧ m.state ≠ .queued := by
  unfold currentMove; split
  · next m q h => split <;> simp_all
  · next h => simp [h]

/-- The checks of a location that fits. -/
def Fits (s : State) (p : Piece) : Place → Prop
  | .receiving => s.lmap.receiving.length < 32
  | .slot n => (s.slot n).enabled = true ∧ (s.slot n).stack.length + (s.slot n).inCount + 1 ≤ 12 ∧
      (s.slot n).height + (s.slot n).inThick + p.thickness ≤ 6000
  | .zone z => (s.bed z).configured = true ∧ (s.bed z).pieces = [] ∧ (s.zone z).inbound = none ∧
      (∀ n, (s.zone z).nest = some n → n.state ≠ .staged) ∧ (s.zone z).phase = .clear
  | .hook x => s.hook x = none ∧ (∀ m q, s.queue x = m :: q → m.state = .queued) ∧
      p.mass ≤ (s.crane x).capacity ∧ (s.queue x).length < 16

/-- A zone that RESTORE_PIECE finds occupied (R18). -/
theorem zoneBusy_iff {s : State} {z : Nat} :
    (!(s.bed z).pieces.isEmpty || (s.zone z).inbound.isSome || (s.zone z).nest.any (fun n => n.state == .staged)) = true ↔
      (s.bed z).pieces ≠ [] ∨ (s.zone z).inbound ≠ none ∨ ∃ n, (s.zone z).nest = some n ∧ n.state = .staged := by
  simp [Option.any_eq_true, Option.isSome_iff_ne_none, or_assoc]

theorem hookBusy_iff {s : State} {x : Nat} : ((s.hook x).isSome || (currentMove s x).isSome) = true ↔
    s.hook x ≠ none ∨ ∃ m q, s.queue x = m :: q ∧ m.state ≠ .queued := by
  rw [Bool.or_eq_true, currentMove_isSome, Option.isSome_iff_ne_none]

theorem restoreBlocked_fits {s : State} {p : Piece} (h : Fits s p p.place) : restoreBlocked s p = none := by
  unfold restoreBlocked
  cases hp : p.place with
  | receiving => rw [hp] at h; exact if_neg (show ¬ Config.rowRoom ≤ _ from Nat.not_le.2 h)
  | slot n =>
    rw [hp] at h
    obtain ⟨he, hs, hh⟩ := h
    simp [he, Config.stackRoom, Config.heightRoom, Nat.not_lt.2 hs, Nat.not_lt.2 hh]
  | zone z =>
    rw [hp] at h
    obtain ⟨hc, hl, hi, hn, hph⟩ := h
    have hbusy : ¬ _ := mt (zoneBusy_iff (s := s) (z := z)).1 (by simpa [hl, hi] using hn)
    simp only [hc, Bool.not_true, if_neg hbusy, hph]; rfl
  | hook x =>
    rw [hp] at h
    obtain ⟨hh, hq, hm, hl⟩ := h
    have hbusy : ¬ _ := mt (hookBusy_iff (s := s) (x := x)).1 (by simpa [hh] using hq)
    simp only [if_neg hbusy, if_neg (Nat.not_lt.2 hm), if_neg (show ¬ Config.queueRoom ≤ _ from Nat.not_le.2 hl)]

/-! ## What RESTORE_PIECE leaves -/

theorem creationFollows_eq (s : State) (c : Nat) : creationFollows s c =
    { s with srg := { s.srg with creation := if s.srg.creation ≤ c then next32 c else s.srg.creation } } := by
  unfold creationFollows; split <;> rfl

/-- The registry once a piece is restored: its record and key are there, and the creation counter follows (R6). -/
def restoredInto (s : State) (g : Srg) (i : Nat) (c : Nat) (p : Piece) : State :=
  let t : State := ({ s with srg := g } : State).setRecord i ⟨(s.handleAt i).gen, some p⟩
  { t with srg := { t.srg with creation := if s.srg.creation ≤ c then next32 c else g.creation } }

theorem idAfter_eq (id : Nat) : idAfter id = if id < 65535 then id + 1 else 1 := by
  obtain h | h := Nat.lt_or_ge id 65535
  · rw [if_pos h, idAfter, if_neg (show ¬ Config.max16 ≤ id by simp only [Config.max16]; omega)]
  · rw [if_neg (by omega), idAfter, if_pos (show Config.max16 ≤ id from h)]

/-- The move id drawn depends on the Move Controller alone. -/
theorem drawMoveId_congr {s t : State} (h : t.mvc = s.mvc) : drawMoveId t = drawMoveId s := by
  have hq : t.queue = s.queue := funext fun c => by simp only [State.queue, h]
  have huse : moveIdInUse t = moveIdInUse s := funext fun n => by simp only [moveIdInUse, findMove, hq]
  have hfree : ∀ fuel n, freeMoveId t fuel n = freeMoveId s fuel n := fun fuel => by
    induction fuel with
    | zero => exact fun _ => rfl
    | succ fuel ih => exact fun n => by simp only [freeMoveId, huse, ih]
  rw [drawMoveId, drawMoveId, hfree, h]

/-- Past its checks RESTORE_PIECE creates the piece and brings about what its location asks for. -/
theorem restorePieceAns_fits {s : State} {a : RestoreArg} {p : Piece} {pl : Place} (hm : s.ppn.mode = .cold)
    (hpl : placeArg? a.loc = some pl) (hp : restored a pl = some p) (hc : createdInUse s p.created = false)
    (hfits : Fits s p pl) : restorePieceAns a s =
      match createKeyed s p with
      | .error e => refuse s e
      | .ok (h, t) => okWith (restoreEffect (creationFollows t p.created) h pl)
          (pieceRecord (restoreEffect (creationFollows t p.created) h pl) h) := by
  have hplace := (restored_place hp).1
  have hblocked : restoreBlocked s p = none := restoreBlocked_fits (hplace.symm ▸ hfits)
  rw [restorePieceAns, if_neg (not_not.2 hm)]
  simp only [hpl, Option.bind_some, hp, hc, hblocked, hplace]
  rfl

/-- What RESTORE_PIECE leaves of a piece restored at a location. -/
def restoredAt (s : State) (g : Srg) (i : Nat) (p : Piece) : Place → State
  | .receiving => { restoredInto s g i p.created p with
      lmap := { s.lmap with receiving := s.lmap.receiving ++ [s.handleAt i] } }
  | .slot n => (restoredInto s g i p.created p).setSlot n { s.slot n with
      stack := (s.slot n).stack ++ [s.handleAt i], height := (s.slot n).height + p.thickness }
  | .zone z => ((restoredInto s g i p.created p).setBed z { s.bed z with
      pieces := (s.bed z).pieces ++ [s.handleAt i] }).setZone z { s.zone z with phase := .loaded }
  | .hook x =>
    let t := ((restoredInto s g i p.created { p with move := some (drawMoveId s) }).setHook x (some (s.handleAt i))).setQueue x
      (⟨drawMoveId s, s.handleAt i, none, .suspended⟩ :: s.queue x)
    { t with mvc := { t.mvc with nextId := if drawMoveId s < 65535 then drawMoveId s + 1 else 1 } }

theorem piece?_restoredInto (s : State) (g : Srg) (i c : Nat) (p : Piece) :
    (restoredInto s g i c p).piece? (s.handleAt i) = some p := by
  show (({ s with srg := g } : State).setRecord i ⟨(s.handleAt i).gen, some p⟩).piece? (s.handleAt i) = some p
  simp [State.handleAt]

/-- The piece a location's effect leaves: a restored piece on a hook is under its move (R18). -/
def restoredPiece (s : State) (p : Piece) : Place → Piece
  | .hook _ => { p with move := some (drawMoveId s) }
  | _ => p

theorem piece?_restoredAt (s : State) (g : Srg) (i : Nat) (p : Piece) (pl : Place) :
    (restoredAt s g i p pl).piece? (s.handleAt i) = some (restoredPiece s p pl) := by
  cases pl <;> exact piece?_restoredInto s g i p.created _

theorem restoreEffect_created {s : State} {g : Srg} {i : Nat} {p : Piece} {pl : Place} {t : State}
    (hg : dirInsert s.srg p.key (s.handleAt i) = .ok g)
    (ht : t = joinPlace (({ s with srg := g } : State).setRecord i ⟨(s.handleAt i).gen, some p⟩) pl (s.handleAt i) p.thickness) :
    restoreEffect (creationFollows t p.created) (s.handleAt i) pl = restoredAt s g i p pl := by
  have hcre : s.srg.creation = g.creation := (dirInsert_keeps hg).2.1.symm
  subst ht
  rw [creationFollows_eq]
  cases pl with
  | receiving => simp only [restoredAt, restoredInto, hcre]; rfl
  | slot n => simp only [restoredAt, restoredInto, hcre]; rfl
  | zone z => simp only [restoredAt, restoredInto, hcre]; rfl
  | hook x =>
    let h := s.handleAt i
    let q : Piece := { p with move := some (drawMoveId s) }
    let t := restoredInto s g i p.created p
    let u := idAssigned ((t.setHook x (some h)).setQueue x (⟨drawMoveId s, h, none, .suspended⟩ :: s.queue x)) (drawMoveId s)
    have hid : drawMoveId (t.setHook x (some h)) = drawMoveId s := drawMoveId_congr rfl
    have hpiece : u.piece? h = some p := piece?_restoredInto s g i p.created p
    have hmod : u.modPiece h (fun p => { p with move := some (drawMoveId s) }) = u.setRecord h.index ⟨h.gen, some q⟩ :=
      modPiece_eq _ hpiece
    have heffect : restoreEffect (t.setHook x (some h)) h (.hook x) = u.setRecord h.index ⟨h.gen, some q⟩ := by
      rw [← hmod]; simp only [restoreEffect, hid]; rfl
    have hrecord : u.setRecord h.index ⟨h.gen, some q⟩ = restoredAt s g i p (.hook x) := by
      have htwice := bankSet_bankSet (fun _ => PieceRecord.reset) (m := g.records) (k := i) (v := ⟨h.gen, some p⟩)
        (⟨h.gen, some q⟩ : PieceRecord) (by simp [PieceRecord.reset])
      simp only [restoredAt, ← idAfter_eq]
      exact congrArg (fun m : Bank PieceRecord => ({ u with srg := { u.srg with records := m } } : State)) htwice
    rw [← hrecord, ← heffect]
    simp only [t, restoredInto, hcre]
    rfl

/-- RESTORE_PIECE at a location that fits, in the lowest free record. -/
theorem restorePieceAns_creates {s : State} {a : RestoreArg} {p : Piece} {pl : Place} {i : Nat} {g : Srg}
    (hm : s.ppn.mode = .cold) (hpl : placeArg? a.loc = some pl) (hp : restored a pl = some p)
    (hc : createdInUse s p.created = false) (hk : dirLookup s.srg p.key = none) (hi : s.lowestFree i)
    (hg : dirInsert s.srg p.key (s.handleAt i) = .ok g) (hfits : Fits s p pl) : restorePieceAns a s =
      ⟨restoredAt s g i p pl, .ok, .piece (pieceView (restoredAt s g i p pl) (s.handleAt i) (restoredPiece s p pl))⟩ := by
  rw [restorePieceAns_fits hm hpl hp hc hfits, createKeyed_free hk hi, createAt_ok hg]
  simp only [restoreEffect_created hg rfl, (restored_place hp).1, pieceRecord_eq (piece?_restoredAt s g i p pl)]
  rfl

theorem fits_iff {s : State} {p : Piece} {pl : Place} :
    Fits s p pl ↔
      (pl = .receiving ∧ s.lmap.receiving.length < 32) ∨
      (∃ n, pl = .slot n ∧ (s.slot n).enabled = true ∧ (s.slot n).stack.length + (s.slot n).inCount + 1 ≤ 12 ∧
        (s.slot n).height + (s.slot n).inThick + p.thickness ≤ 6000) ∨
      (∃ z, pl = .zone z ∧ (s.bed z).configured = true ∧ (s.bed z).pieces = [] ∧ (s.zone z).inbound = none ∧
        (∀ n, (s.zone z).nest = some n → n.state ≠ .staged) ∧ (s.zone z).phase = .clear) ∨
      ∃ x, pl = .hook x ∧ s.hook x = none ∧ (∀ m q, s.queue x = m :: q → m.state = .queued) ∧
        p.mass ≤ (s.crane x).capacity ∧ (s.queue x).length < 16 := by
  cases pl <;> simp [Fits]

/-- RESTORE_PIECE where a location check fails. -/
theorem restorePieceAns_blocked {s : State} {a : RestoreArg} {p : Piece} {pl : Place} {st : Status}
    (hm : s.ppn.mode = .cold) (hpl : placeArg? a.loc = some pl) (hp : restored a pl = some p)
    (hc : createdInUse s p.created = false) (hb : restoreBlocked s p = some st) : restorePieceAns a s = refuse s st := by
  rw [restorePieceAns, if_neg (not_not.2 hm)]
  simp [hpl, hp, hc, hb]

/-- Settles O14: the refusals are those of the checks in order; at each kind of location the piece is created and brings
its effect. -/
theorem restorePieceRestores : Obligations.RestorePieceRestores := by
  unfold Obligations.RestorePieceRestores
  refine ⟨fun s a => ?fields, fun s a p pl i => ?refusals, fun s a p pl i g => ?restores, fun a pl => ?piece, placeArg?_iff⟩
  case fields =>
    refine ⟨fun hm => .of_ans rfl (if_pos hm), fun hm h => .of_ans rfl ?_⟩
    have hnone : (placeArg? a.loc).bind (restored a) = none := by
      obtain h | ⟨pl, hpl, h⟩ := h
      · rw [h]; rfl
      · rw [hpl]; exact h
    rw [restorePieceAns, if_neg (not_not.2 hm)]
    simp only [hnone]; rfl
  case refusals =>
    intro c no hm hpl hp
    obtain ⟨hplace, -⟩ := restored_place hp
    refine ⟨fun hc => .of_ans rfl ?_, fun hc => ?_⟩
    · rw [restorePieceAns, if_neg (not_not.2 hm)]
      simp only [hpl, Option.bind_some, hp, hc]; rfl
    have hblocked : ∀ {st}, restoreBlocked s p = some st → no st := fun hb =>
      .of_ans rfl (restorePieceAns_blocked hm hpl hp hc hb)
    refine ⟨fun hl hroom => hblocked ?_, fun n hl => ⟨fun he => hblocked ?_, fun he hroom => hblocked ?_⟩, fun z hl => ?_,
      fun x hl => ?_, ?_⟩
    · rw [restoreBlocked, hplace, hl]; exact if_pos hroom
    · rw [restoreBlocked, hplace, hl]; simp [he]
    · have hover : (decide (Config.stackRoom < (s.slot n).stack.length + (s.slot n).inCount + 1) ||
          decide (Config.heightRoom < (s.slot n).height + (s.slot n).inThick + p.thickness)) = true := by
        simp only [Bool.or_eq_true, decide_eq_true_eq]; exact hroom
      rw [restoreBlocked, hplace, hl]
      simp only [he, if_pos hover]; rfl
    · intro busy
      refine ⟨fun hf => hblocked ?_, fun hf hb => hblocked ?_, fun hf hb hph => hblocked ?_⟩
      all_goals rw [restoreBlocked, hplace, hl]
      · simp [hf]
      · simp only [hf, if_pos (zoneBusy_iff.2 hb)]; rfl
      · simp only [hf, if_neg (mt zoneBusy_iff.1 hb), if_pos hph]; rfl
    · intro busy
      refine ⟨fun hb => hblocked ?_, fun hb hlight => hblocked ?_, fun hb hmass hroom => hblocked ?_⟩
      all_goals rw [restoreBlocked, hplace, hl]
      · simp only [if_pos (hookBusy_iff.2 hb)]
      · simp only [if_neg (mt hookBusy_iff.1 hb), if_pos hlight]
      · simp only [if_neg (mt hookBusy_iff.1 hb), if_neg (Nat.not_lt.2 hmass), if_pos (show Config.queueRoom ≤ _ from hroom)]
    · intro fits
      refine ⟨fun hf hk => .of_ans rfl ?_, fun hf hk hfull => .of_ans rfl ?_, fun hf hk hi he => .of_ans rfl ?_⟩
      all_goals rw [restorePieceAns_fits hm hpl hp hc (fits_iff.2 hf)]
      · rw [createKeyed_duplicate (Option.isSome_iff_ne_none.2 hk)]; rfl
      · rw [createKeyed_full hk hfull]; rfl
      · rw [createKeyed_free hk hi, createAt_error he]; rfl
  case restores =>
    intro c h after hm hpl hp hc hk hi hg
    obtain ⟨-, hstate⟩ := restored_place hp
    have hcreates : ∀ {pl'}, pl = pl' → Fits s p pl' → exec c s = hostAnswer .restorePiece ⟨restoredAt s g i p pl', .ok,
        .piece (pieceView (restoredAt s g i p pl') (s.handleAt i) (restoredPiece s p pl'))⟩ := by
      rintro _ rfl hfits
      exact congrArg (hostAnswer .restorePiece) (restorePieceAns_creates hm hpl hp hc hk hi hg hfits)
    refine ⟨fun hl hroom => ⟨?_, hcreates hl hroom⟩, fun n hl he hs hh => ⟨?_, hcreates hl ⟨he, hs, hh⟩⟩,
      fun z hl hcfg hempty hin hn hph => ?_, fun x hl hh hq hmass hroom => ⟨?_, hcreates hl ⟨hh, hq, hmass, hroom⟩⟩⟩
    · rw [hstate, hl]; rfl
    · rw [hstate, hl]; rfl
    · refine ⟨by rw [hstate, hl]; rfl, ?_⟩
      have hx := hcreates hl ⟨hcfg, hempty, hin, hn, hph⟩
      simp only [restoredAt, hempty, List.nil_append] at hx
      exact hx
    · rw [hstate, hl]; rfl
  case piece =>
    intro common plate remnant piece
    classical
    have hstate : stateAt pl = match pl with
        | .receiving => .arriving
        | .slot _ => .stored
        | .zone _ => .onTable
        | .hook _ => .inTransit := by cases pl <;> rfl
    rw [restored_eq]
    refine ⟨fun h => ?_, fun hc hp => ?_, fun hc hr => ?_⟩
    · split
      · next hc =>
        rw [if_neg fun hp : RestorePlate a => h ⟨hc, .inl hp⟩, if_neg fun hr : RestoreRemnant a => h ⟨hc, .inr hr⟩]
      · rfl
    · rw [if_pos (show RestoreCommon a from hc), if_pos (show RestorePlate a from hp), platePiece, hstate] <;> rfl
    · have hno : ¬ RestorePlate a := fun hp => by have := hr.1; rw [hp.1] at this; cases this
      rw [if_pos (show RestoreCommon a from hc), if_neg hno, if_pos (show RestoreRemnant a from hr), remnantPiece, hstate] <;> rfl

/-! ## RETIRE_PIECE (R4, R19) -/

theorem resting_iff {st : PieceState} : st.resting = true ↔ st = .stored ∨ st = .arriving := by
  simp [PieceState.resting]

/-- What RETIRE_PIECE answers once the handle names a piece. -/
theorem retirePieceAns_names {s : State} {h : Handle} {p : Piece} (n : s.names h p) : retirePieceAns h s =
    if !p.state.resting then refuse s .badState
    else if p.move.isSome then refuse s .badState
    else if p.reservation.any (fun r => r.holder == .nest) then refuse s .badState
    else if slotBusy s p then refuse s .occupied
    else okWith (retire s h) (.piece (pieceView s h p)) := by
  rw [retirePieceAns, checkHandle_names n]

theorem retire_of_names {s : State} {h : Handle} {p : Piece} (n : s.names h p) : retire s h =
    ({ leavePlace s p.place h p.thickness with
      srg := dirDelete (leavePlace s p.place h p.thickness).srg p.key } : State).setRecord h.index ⟨(h.gen + 1) % 256, none⟩ := by
  rw [retire, piece?_names n]

/-- A handle of another generation than the record is STALE. -/
theorem readPiece_stale {s : State} {h : Handle} (hi : h.index < 2048) (hg : (s.record h.index).gen ≠ h.gen) :
    Refuses (.readPiece .host h) s .readPiece .stale :=
  .of_ans rfl (readPieceAns_error (checkHandle_stale (by omega) hg))

/-- Settles O15: past its checks the piece is retired, and its record stands at the next generation. -/
theorem retirePieceFreesTheRecord : Obligations.RetirePieceFreesTheRecord := by
  unfold Obligations.RetirePieceFreesTheRecord
  intro s h p n c
  have hindex : h.index < 2048 := n.1
  have hans := retirePieceAns_names n
  have hnot : ∀ st : PieceState, st ≠ .stored → st ≠ .arriving → ¬ st.resting = true := fun st h1 h2 hr =>
    (resting_iff.1 hr).elim h1 h2
  refine ⟨fun h1 h2 => .of_ans rfl (hans.trans (if_pos (bnot_of_not (hnot _ h1 h2)))), fun hrest => ?_⟩
  rw [if_neg (not_bnot (resting_iff.2 hrest))] at hans
  refine ⟨fun hm => .of_ans rfl (hans.trans (if_pos (Option.isSome_iff_ne_none.2 hm))), fun hm hr => .of_ans rfl ?_,
    fun hm hr => ?_⟩
  · obtain ⟨tag, htag⟩ := hr
    rw [hans, if_neg (by simp [hm]), if_pos (by simp [htag])]; rfl
  have hfree : ¬ p.reservation.any (fun r => r.holder == .nest) = true := by
    rw [Option.any_eq_true]
    rintro ⟨⟨holder, tag⟩, hp, hh⟩
    exact hr tag (by rw [hp, show holder = .nest by simpa using hh])
  rw [if_neg (by simp [hm]), if_neg hfree] at hans
  intro freed
  have hstale : ∀ t : State, h.gen < 256 → Refuses (.readPiece .host h) (freed t) .readPiece .stale := fun t hg => by
    refine readPiece_stale hindex ?_
    simp only [freed, State.record_setRecord, if_true]
    omega
  refine ⟨fun k hp => ⟨fun hbusy => .of_ans rfl ?_, fun hin hout => ⟨.of_ans rfl ?_, hstale _⟩⟩,
    fun hp => ⟨.of_ans rfl ?_, hstale _⟩, fun t hg => readPiece_stale hindex hg⟩
  · rw [hans, if_pos (by simpa [slotBusy, hp] using hbusy)]; rfl
  · rw [hans, if_neg (by simp [slotBusy, hp, hin, hout]), retire_of_names n, hp]; rfl
  · rw [hans, if_neg (by simp [slotBusy, hp]), retire_of_names n, hp]; rfl

/-! ## Hold and reservation (R22 to R24) -/

theorem amendPiece_eq (s : State) (h : Handle) (p : Piece) : amendPiece s h p =
    ⟨s.setRecord h.index ⟨h.gen, some p⟩, .ok, .piece (pieceView (s.setRecord h.index ⟨h.gen, some p⟩) h p)⟩ := by
  simp [amendPiece, okWith, pieceRecord]

/-- Settles O16. -/
theorem holdsAndReservations : Obligations.HoldsAndReservations := by
  unfold Obligations.HoldsAndReservations
  refine ⟨fun s h p n => ⟨.of_ans rfl ?_, .of_ans rfl ?_⟩, fun s h p tag n => ?reserve, fun s h p tag n => ?unreserve⟩
  · rw [setHoldAns, checkHandle_names n]; exact amendPiece_eq ..
  · rw [releaseHoldAns, checkHandle_names n]; exact amendPiece_eq ..
  case reserve =>
    intro c
    have hans : reservePieceAns h tag s = if tag = 0 then refuse s .range
        else match p.reservation with
          | some r => if r = ⟨.host, tag⟩ then okWith s (pieceRecord s h) else refuse s .badState
          | none =>
            if p.hold then refuse s .badState
            else if !p.state.resting then refuse s .badState
            else amendPiece s h { p with reservation := some ⟨.host, tag⟩ } := by
      rw [reservePieceAns, checkHandle_names n] <;> rfl
    refine ⟨fun h0 => .of_ans rfl (hans.trans (if_pos h0)), fun h0 => ?_⟩
    rw [if_neg h0] at hans
    refine ⟨fun hr => .of_ans rfl ?_, fun r hr hne => .of_ans rfl ?_, fun hr hh => .of_ans rfl ?_,
      fun hr hh h1 h2 => .of_ans rfl ?_, fun hr hh hst => .of_ans rfl ?_⟩
    all_goals rw [hans, hr]
    · simp [pieceRecord_eq (piece?_names n), okWith]
    · simp [hne, refuse]
    · simp [hh, refuse]
    · simp [hh, PieceState.resting, h1, h2, refuse]
    · simp only [hh, resting_iff.2 hst]; exact amendPiece_eq ..
  case unreserve =>
    intro c
    refine ⟨fun hr => .of_ans rfl ?_, fun hr => .of_ans rfl ?_⟩
    all_goals rw [unreservePieceAns, checkHandle_names n]
    · exact if_neg hr
    · exact (if_pos hr).trans (amendPiece_eq ..)

end Sys2Proof.Machine
end

section
/-! PROOFS. The Location Map's requests (R30, R37 to R41). -/

open Sys2Proof Sys2Proof.Machine

namespace Sys2Proof.Machine

/-- A hall position in range, as a refusal sees it. -/
theorem not_hallPoint {x y : Nat} (h : 400000 < x ∨ 60000 < y) : ¬ hallPoint x y = true := by
  rw [hallPoint_iff]; omega

/-- The figures of SET_ZONE (R38). -/
theorem zoneFiguresOk_iff {x y x0 x1 y0 y1 : Nat} : zoneFiguresOk x y x0 x1 y0 y1 = true ↔
    x ≤ 400000 ∧ x0 ≤ 400000 ∧ x1 ≤ 400000 ∧ y ≤ 60000 ∧ y0 ≤ 60000 ∧ y1 ≤ 60000 ∧ x0 < x1 ∧ y0 < y1 ∧ x0 ≤ x ∧ x ≤ x1 ∧
      y0 ≤ y ∧ y ≤ y1 := by
  simp only [zoneFiguresOk, Bool.and_eq_true, hallPoint_iff, inRange_iff, decide_eq_true_eq]
  omega

theorem roomTest_pickLocked {s : State} {n t : Nat} (h : 0 < (s.slot n).outCount) : roomTest s n t = some .occupied := by
  simp [roomTest, h]

theorem roomTest_disabled {s : State} {n t : Nat} (h : (s.slot n).enabled = false) : roomTest s n t = some .occupied := by
  simp [roomTest, h]

/-- The room test of a slot that may take pieces goes by count and height (R30). -/
theorem roomTest_open {s : State} {n t : Nat} (ho : (s.slot n).outCount = 0) (he : (s.slot n).enabled = true) :
    roomTest s n t = if 12 < (s.slot n).stack.length + (s.slot n).inCount + 1 ∨
        6000 < (s.slot n).height + (s.slot n).inThick + t then some .noRoom else none := by
  unfold roomTest
  dsimp only
  rw [if_neg (by omega), if_neg (not_bnot he), ← ite_or]
  rfl

/-- Settles O17: each request by its checks in order. -/
theorem locationsAreConfiguredAndRead : Obligations.LocationsAreConfiguredAndRead := by
  unfold Obligations.LocationsAreConfiguredAndRead
  refine ⟨fun s => ⟨fun a x y e => ?slot, fun z x y x0 x1 y0 y1 => ?zone, fun x y => ?receiving⟩, fun s => ?reads,
    fun s n t => ?room⟩
  case slot =>
    intro c n
    refine ⟨fun h => .of_ans rfl ?_, fun hb hs hx hy => ⟨fun hm hd => .of_ans rfl ?_, fun h => .of_ans rfl ?_⟩⟩
    · by_cases ha : a.bay ≤ 9 ∧ a.slot ≤ 15
      · simp only [setSlotAns, slotArg?_eq ha.1 ha.2, if_pos (bnot_of_not (not_hallPoint (x := x) (y := y) (by omega)))]; rfl
      · simp only [setSlotAns, slotArg?_none (a := a) (by omega)]; rfl
    all_goals simp only [setSlotAns, slotArg?_eq hb hs, if_neg (not_bnot (hallPoint_iff.2 ⟨hx, hy⟩))]
    · rw [if_pos (by simpa [hm] using hd)]; rfl
    · have hstands : ¬ (decide (s.ppn.mode ≠ .cold) && (decide ((s.slot n).x ≠ x) || decide ((s.slot n).y ≠ y))) = true := by
        obtain h | ⟨hx, hy⟩ := h
        · simp [h]
        · simp [hx, hy]
      rw [if_neg hstands]; rfl
  case zone =>
    intro c k good
    refine ⟨fun hm => .of_ans rfl (if_pos hm), fun hm h => .of_ans rfl ?_, fun hm h => .of_ans rfl ?_⟩
    all_goals rw [setZoneAns, if_neg (not_not.2 hm)]
    · by_cases hz : z.table ≤ 5 ∧ z.bed ≤ 1
      · have hno : ¬ zoneFiguresOk x y x0 x1 y0 y1 = true := fun hf => h ⟨hz.1, hz.2, zoneFiguresOk_iff.1 hf⟩
        simp only [zoneArg?_eq hz.1 hz.2, if_pos (bnot_of_not hno)]; rfl
      · simp only [zoneArg?_none (z := z) (by omega)]; rfl
    · obtain ⟨ht, hb, hf⟩ := h
      simp only [zoneArg?_eq ht hb, if_neg (not_bnot (zoneFiguresOk_iff.2 hf)), geometryView, State.bed_setBed, if_true]
      rfl
  case receiving =>
    refine ⟨fun hm => .of_ans rfl (if_pos hm), fun hm h => .of_ans rfl ?_, fun hm hx hy => .of_ans rfl ?_⟩
    all_goals rw [setReceivingAns, if_neg (not_not.2 hm)]
    · rw [if_pos (bnot_of_not (not_hallPoint h))]; rfl
    · rw [if_neg (not_bnot (hallPoint_iff.2 ⟨hx, hy⟩))]; rfl
  case reads =>
    refine ⟨fun a => ⟨fun h => .of_ans rfl ?_, fun hb hs => .of_ans rfl ?_⟩, fun n => rfl, rfl, rfl,
      fun i h l => ⟨rfl, fun hp => ?_, fun p hp => ?_⟩⟩
    · simp only [readSlotAns, slotArg?_none h]; rfl
    · simp only [readSlotAns, slotArg?_eq hb hs]; rfl
    · simp only [stackEntries, hp]
    · simp only [stackEntries, hp]
  case room =>
    refine ⟨roomTest_pickLocked, fun ho => ⟨roomTest_disabled, fun he => ⟨fun h => ?_, fun hs => ⟨fun h => ?_, fun h => ?_⟩⟩⟩⟩
    all_goals rw [roomTest_open ho he]
    · exact if_pos (.inl h)
    · exact if_pos (.inr h)
    · exact if_neg (by omega)

end Sys2Proof.Machine
end

section
/-! PROOFS. Notices (R184 to R187) and the unit reads (R80, R139, R171, R181). -/

open Sys2Proof Sys2Proof.Machine

namespace Sys2Proof.Machine

/-! ## Notices -/

theorem noticeKind_code_lt (k : NoticeKind) : k.code < 32 := by cases k <;> decide

/-- The pending notices of a canonical bank are those it lists. -/
theorem mem_notices {s : State} (h : Canonical s) {n : Nat} {v : Option Bool} :
    (n, v) ∈ s.ppn.notices ↔ s.notice n = v ∧ v ≠ none := mem_bank _ h.2.2.2.2.2.2.2.2

theorem mem_pendingNotices {s : State} (h : Canonical s) (v : NoticeView) : v ∈ pendingNotices s ↔
    ∃ n, s.notice n ≠ none ∧ v = ⟨n / 32, n % 32, s.ppn.mask.getLsbD (n % 32)⟩ := by
  simp only [pendingNotices, List.mem_filterMap, Option.ite_none_right_eq_some, Option.some.injEq, kindEnabled]
  constructor
  · rintro ⟨⟨n, w⟩, hm, hw, rfl⟩
    obtain ⟨hn, hne⟩ := (mem_notices h).1 hm
    exact ⟨n, hn ▸ hne, rfl⟩
  · rintro ⟨n, hn, rfl⟩
    exact ⟨(n, s.notice n), (mem_notices h).2 ⟨rfl, hn⟩, Option.isSome_iff_ne_none.2 hn, rfl⟩

/-- A notice is listed once: its unit and kind tell its code. -/
theorem nodup_pendingNotices {s : State} (h : Canonical s) : (pendingNotices s).Nodup := by
  have hindex : (s.ppn.notices.map (·.1)).Nodup :=
    ((bankWf_iff _ _).1 h.2.2.2.2.2.2.2.2).1.imp fun hlt => Nat.ne_of_lt hlt
  have hnodup : s.ppn.notices.Pairwise (fun e f => e.1 ≠ f.1) := List.pairwise_map.1 hindex
  unfold pendingNotices
  refine List.Pairwise.filterMap _ (fun e f hne v hv w hw e' => ?_) hnodup
  simp only [Option.ite_none_right_eq_some, Option.some.injEq] at hv hw
  obtain ⟨-, rfl⟩ := hv
  obtain ⟨-, rfl⟩ := hw
  simp only [NoticeView.mk.injEq] at e'
  exact hne (by omega)

theorem notice_markSeen {s : State} (h : Canonical s) (n : Nat) : (markSeen s).notice n = (s.notice n).map fun _ => true :=
  bankGet_bankMap (fun _ => none) (fun _ v => v.map fun _ => true) h.2.2.2.2.2.2.2.2 n rfl

theorem notice_unitRead {s : State} (h : Canonical s) (u : NoticeUnit) (n : Nat) :
    (unitRead s u).notice n = if n / 32 = u.code ∧ s.notice n = some true then none else s.notice n := by
  have hread : (unitRead s u).notice n = _ := bankGet_filter_value (fun _ => none)
    (fun n v => !(n / 32 == u.code && v == some true)) h.2.2.2.2.2.2.2.2 n
  rw [hread]
  by_cases hs : n / 32 = u.code ∧ s.notice n = some true
  · rw [if_pos hs, if_neg (by simpa [State.notice] using hs)]
  · rw [if_neg hs, if_pos (by simpa [State.notice, ← imp_iff_not_or] using hs)]; rfl

theorem attention_iff {s : State} (h : Canonical s) :
    attention s = true ↔ ∃ n, s.notice n ≠ none ∧ s.ppn.mask.getLsbD (n % 32) = true := by
  simp only [attention, List.any_eq_true, Bool.and_eq_true, Option.isSome_iff_ne_none, kindEnabled]
  constructor
  · rintro ⟨⟨n, v⟩, hm, hv, he⟩
    obtain ⟨hn, hne⟩ := (mem_notices h).1 hm
    exact ⟨n, hn ▸ hne, he⟩
  · rintro ⟨n, hn, he⟩
    exact ⟨(n, s.notice n), (mem_notices h).2 ⟨rfl, hn⟩, hn, he⟩

/-- Settles O18: in a canonical bank the notices listed are those that are pending. -/
theorem noticesSeenAndCleared : Obligations.NoticesSeenAndCleared := by
  unfold Obligations.NoticesSeenAndCleared
  refine ⟨notice_raise, fun s h => ⟨rfl, mem_pendingNotices h, nodup_pendingNotices h, notice_markSeen h, notice_unitRead h,
    fun u k _ => ?_⟩, fun s m h => ⟨rfl, attention_iff h⟩⟩
  rw [notice_unitRead (h.raise u k), notice_raise, if_pos rfl]
  exact if_neg (by simp)

/-! ## Unit reads -/

theorem mountedTorch_eq_some {s : State} {t n : Nat} : mountedTorch s t = some n ↔
    n < 12 ∧ (s.torch n).mounted = some t ∧ ∀ m, m < n → (s.torch m).mounted ≠ some t := by
  simp [mountedTorch, firstFrom_some]

theorem boundStation_eq_some {s : State} {r : Role} {t a : Nat} : boundStation s r t = some a ↔
    1 ≤ a ∧ a ≤ 31 ∧ (s.station a).binding = some (r, t) ∧ ∀ b, 1 ≤ b → b < a → (s.station b).binding ≠ some (r, t) := by
  simp only [boundStation, firstFrom_some, beq_iff_eq, beq_eq_false_iff_ne]
  exact and_congr_right fun _ => and_congr_left fun _ => by omega

theorem mem_zonesIntruded {s : State} {c z : Nat} : z ∈ zonesIntruded s c ↔ z < 12 ∧ c ∈ s.intruders z := by
  simp [zonesIntruded]

/-- Where every piece of a queue is live, READ_CRANE lists the whole queue. -/
theorem queueEntry_moves {s : State} {l : List Move} (h : ∀ m ∈ l, s.piece? m.piece ≠ none) :
    (l.filterMap (queueEntry s)).map (·.move) = l := by
  induction l with
  | nil => rfl
  | cons m l ih =>
    obtain ⟨p, hp⟩ := Option.ne_none_iff_exists'.1 (h m (by simp))
    have hentry : (queueEntry s m).map (·.move) = some m := by simp [queueEntry, hp]
    obtain ⟨e, he, hm⟩ := Option.map_eq_some_iff.1 hentry
    rw [List.filterMap_cons_some he, List.map_cons, hm, ih fun m hm => h m (by simp [hm])]

theorem mem_queueEntries {s : State} {l : List Move} {e : QueueEntry} (h : e ∈ l.filterMap (queueEntry s)) :
    ∃ p, s.piece? e.move.piece = some p ∧ e.key = p.key ∧ e.mass = p.mass ∧ e.source =
      if e.move.state = .queued ∨ e.move.state = .taken then
        some (p.place, (pieceView s e.move.piece p).pos, (pieceView s e.move.piece p).count)
      else none := by
  obtain ⟨m, -, he⟩ := List.mem_filterMap.1 h
  obtain ⟨p, hp, rfl⟩ := Option.map_eq_some_iff.1 he
  exact ⟨p, hp, rfl, rfl, by simp [pieceView]⟩

/-- Settles O19: each unit read shows the records as they stand and clears what was seen. -/
theorem unitReadsAnswer : Obligations.UnitReadsAnswer := by
  unfold Obligations.UnitReadsAnswer
  refine ⟨fun s => ⟨fun t ht => ?table, fun t ht => .of_ans rfl (if_pos ht), fun c hc => ⟨craneView s c, ?_⟩,
    fun c hc => .of_ans rfl (if_pos hc), rfl, rfl⟩, fun s t => ⟨rfl, fun n => mountedTorch_eq_some,
    fun r a => boundStation_eq_some⟩⟩
  case table =>
    intro zone torch
    refine .of_ans rfl ?_
    rw [readTableAns, if_neg (by omega), fullTableView]
    simp only [torch, Option.map_map]
    rfl
  refine ⟨.of_ans rfl (if_neg (by omega)), fun hh => ?_, fun h p hh hp => ?_, queueEntry_moves, fun e => mem_queueEntries,
    rfl, rfl, rfl, rfl, rfl, rfl, fun z => mem_zonesIntruded, ?_⟩
  · simp [craneView, hookView, hh]
  · simp [craneView, hookView, hh, hp]
  · have hpairs : ∀ c, c ≤ 2 → (pairsOf c).map s.pair =
        if c = 0 then [s.pair 0] else if c = 1 then [s.pair 0, s.pair 1] else [s.pair 1] := fun c hc => by
      obtain rfl | rfl | rfl : c = 0 ∨ c = 1 ∨ c = 2 := by omega
      all_goals rfl
    exact hpairs c hc

end Sys2Proof.Machine
end

section
/-! PROOFS. The port's own answers and bits (R182, R183), the records after reset and after CLEAR_REGISTRY (R59, R115, R190),
and the frames of the station link (R173, R193). -/

open Sys2Proof Sys2Proof.Machine

namespace Sys2Proof.Machine

/-! ## Bits of the planning port (R182) -/

theorem portByteBits_eq (b : Byte) : portByteBits b = [b.getLsbD 7, b.getLsbD 6, b.getLsbD 5, b.getLsbD 4, b.getLsbD 3,
    b.getLsbD 2, b.getLsbD 1, b.getLsbD 0] := rfl

/-- Eight bits make the byte they come from. -/
theorem byte_of_bits (b : Byte) : BitVec.ofNat 8 ((portByteBits b).foldl (fun v x => 2 * v + x.toNat) 0) = b := by
  revert b; decide +kernel

theorem portBytes_portBits (l : List Byte) : portBytes (portBits l) = l := by
  induction l with
  | nil => rfl
  | cons b l ih =>
    have hbits : portBytes (portByteBits b ++ portBits l) =
        BitVec.ofNat 8 ((portByteBits b).foldl (fun v x => 2 * v + x.toNat) 0) :: portBytes (portBits l) := rfl
    rw [portBits_cons, hbits, byte_of_bits, ih]

/-- Each bit is taken at the rising edge after the clock's low level. -/
theorem sampledBits_edges (was : Bool) (l : List Bool) : sampledBits was (l.flatMap fun x => [(false, x), (true, x)]) = l := by
  induction l generalizing was with
  | nil => rfl
  | cons x l ih => simp [sampledBits, ih]

/-- The first `n` bits that go out: those there are, then low. -/
def bitsOut : (n : Nat) → List Bool → List Bool
  | 0, _ => []
  | n + 1, l => l.headD false :: bitsOut n l.tail

theorem bitsOut_append (l r : List Bool) (n : Nat) : bitsOut (l.length + n) (l ++ r) = l ++ bitsOut n r := by
  induction l with
  | nil => simp
  | cons x l ih =>
    have hlen : (x :: l).length + n = (l.length + n) + 1 := by simp only [List.length_cons]; omega
    rw [hlen]
    simp [bitsOut, ih]

theorem bitsOut_nil (n : Nat) : bitsOut n [] = List.replicate n false := by
  induction n with
  | zero => rfl
  | succ n ih => simp [bitsOut, ih, List.replicate_succ]

theorem portBits_zero (n : Nat) : portBits (List.replicate n 0) = List.replicate (8 * n) false := by
  have hzero : portByteBits 0 = List.replicate 8 false := by decide
  induction n with
  | zero => rfl
  | succ n ih =>
    rw [List.replicate_succ, portBits_cons, ih, hzero, ← List.replicate_add]
    congr 1; omega

theorem bitsOut_portBits (f : List Byte) (n : Nat) :
    bitsOut (8 * n) (portBits f) = portBits (f.take n ++ List.replicate (n - f.length) 0) := by
  induction n generalizing f with
  | zero => simp [bitsOut]
  | succ n ih =>
    cases f with
    | nil => simp only [portBits_nil, bitsOut_nil, List.take_nil, List.nil_append, List.length_nil, Nat.sub_zero, portBits_zero]
    | cons b f =>
      have hlen : 8 * (n + 1) = (portByteBits b).length + 8 * n := by rw [length_portByteBits]; omega
      rw [portBits_cons, hlen, bitsOut_append, ih, List.take_succ_cons, List.cons_append, portBits_cons, List.length_cons,
        Nat.add_sub_add_right]

/-- The levels of a clock of `m` periods. -/
def clockLevels (m : Nat) : List Bool := (List.replicate m [false, true]).flatten

/-- What the host takes at the rising edges is the first bits that go out. -/
theorem sampledBits_shiftedOut (m : Nat) (bits : List Bool) :
    sampledBits false ((clockLevels m).zip (shiftedOut false bits (clockLevels m))) = bitsOut m bits := by
  have hclock : ∀ m, clockLevels (m + 1) = false :: true :: clockLevels m := fun _ => rfl
  induction m generalizing bits with
  | zero => rfl
  | succ m ih =>
    have hnext : sampledBits true ((clockLevels m).zip (shiftedOut true bits (clockLevels m))) =
        sampledBits false ((clockLevels m).zip (shiftedOut false bits.tail (clockLevels m))) := by
      cases m with
      | zero => rfl
      | succ m => simp [hclock, shiftedOut, sampledBits]
    rw [hclock]
    simp [shiftedOut, sampledBits, bitsOut, hnext, ih]

/-! ## Frames that are no request (R183) -/

/-- The kinds of a request of the host. -/
theorem hostKind_iff (k : Nat) : ((ReqKind.ofCode k).any fun q => !q.stationOnly) = true ↔
    1 ≤ k ∧ k ≤ 66 ∧ k ∉ [27, 30, 31, 32, 34, 35, 36, 52, 53, 54, 55] := by
  obtain h | h := Nat.lt_or_ge 66 k
  · have hnone : ReqKind.ofCode k = none := by
      rw [ReqKind.ofCode, if_neg (by omega)]
      exact List.getElem?_eq_none (by simp only [show ReqKind.all.length = 66 from rfl]; omega)
    simp [hnone, Nat.not_le.2 h]
  · have hall : ∀ k : Fin 67, ((ReqKind.ofCode k).any fun q => !q.stationOnly) = true ↔
        1 ≤ k.val ∧ k.val ≤ 66 ∧ k.val ∉ [27, 30, 31, 32, 34, 35, 36, 52, 53, 54, 55] := by decide +kernel
    exact hall ⟨k, by omega⟩

theorem ofCode_code (k : ReqKind) : ReqKind.ofCode k.code = some k := by cases k <;> rfl

/-- Settles O20: the reply of a bad frame by its kind; and each level of the clock takes its bit. -/
theorem portAnswersEveryFrame : Obligations.PortAnswersEveryFrame := by
  unfold Obligations.PortAnswersEveryFrame
  refine ⟨fun s => ⟨rfl, rfl, fun k => ?badFrame⟩, ⟨by decide +kernel, ofCode_code, fun n hn => ?_⟩,
    portByteBits_eq, fun l => ⟨portBytes_portBits l, ?_⟩, fun s n => ?out⟩
  case badFrame =>
    intro st t
    have hst : badFrameReply (some k) = ⟨st, k, .none⟩ := by
      simp only [badFrameReply, st]
      by_cases h : 1 ≤ k ∧ k ≤ 66 ∧ k ∉ [27, 30, 31, 32, 34, 35, 36, 52, 53, 54, 55]
      · rw [if_pos h, if_pos ((hostKind_iff k).2 h)]
      · rw [if_neg h, if_neg (mt (hostKind_iff k).1 h)]
    show execPortBadFrame (some k) s = .next t
    rw [execPortBadFrame, hst]
  · rw [ReqKind.ofCode, if_neg (by omega)]
    exact List.getElem?_eq_none (by simp only [show ReqKind.all.length = 66 from rfl]; omega)
  · rw [portTransaction, sampledBits_edges, portBytes_portBits]
  case out =>
    intro clock
    rw [portDataOut, portShiftOut, ← bitsOut_portBits]
    exact sampledBits_shiftedOut (8 * n) _

/-! ## Device reset -/

/-- Settles O59: every record of an empty bank reads as after reset. -/
theorem resetValuesAreStated : Obligations.ResetValuesAreStated := by
  unfold Obligations.ResetValuesAreStated
  intro r
  have haxis : ∀ c, Axis.reset (3 * c) = ⟨0, 0, 0, .stale, 0, false, none⟩ ∧
      Axis.reset (3 * c + 1) = ⟨0, 0, 0, .stale, 0, false, none⟩ ∧
      Axis.reset (3 * c + 2) = ⟨0, 0, 0, .unhomed, 0, false, none⟩ := fun c => by
    have h0 : 3 * c % 3 = 0 := by omega
    have h1 : (3 * c + 1) % 3 = 1 := by omega
    have h2 : (3 * c + 2) % 3 = 2 := by omega
    simp [Axis.reset, h0, h1, h2]
  have hmask : ∀ k : NoticeKind, (0x1F7BFF#21).getLsbD k.code = true ↔ k ≠ .moveDone ∧ k ≠ .hoistHomed := fun k => by
    cases k <;> decide
  refine ⟨fun _ => rfl, fun _ => rfl, fun _ => rfl, rfl, rfl, fun _ => rfl, rfl, ⟨rfl, rfl⟩, fun _ => rfl, fun _ => rfl, rfl,
    fun _ => rfl, fun _ => rfl, fun _ => rfl, fun _ => rfl, rfl, rfl, fun _ => rfl, fun _ => rfl, fun _ => ⟨rfl, rfl, rfl⟩,
    fun _ => rfl, haxis, fun _ => ⟨rfl, rfl, rfl, rfl⟩, rfl, rfl, ⟨rfl, rfl, rfl⟩, fun _ => rfl, fun _ d => by cases d <;> rfl,
    fun _ => ⟨rfl, rfl, ⟨rfl, rfl⟩, ⟨rfl, rfl⟩, rfl, rfl, rfl, rfl⟩, fun _ => rfl, fun _ => rfl, rfl, rfl,
    fun _ => ⟨rfl, rfl⟩, rfl, fun _ => rfl, rfl, rfl, rfl, rfl, rfl, rfl, rfl, rfl, fun _ => rfl, rfl, hmask, rfl⟩

/-! ## CLEAR_REGISTRY (R190) -/

/-- What CLEAR_REGISTRY empties, before it tells of a search it ends. -/
def cleared (s : State) : State :=
  { s with
    srg := s.srg.clear, lmap := s.lmap.clear, fse := s.fse.clear, tbc := Tbc.reset, mkd := Mkd.reset, bsv := s.bsv.clear,
    mvc := { s.mvc with queues := [], ended := [] } }

theorem clearRegistry_eq (s : State) :
    clearRegistry s = if s.fse.phase = .scanning then raise (cleared s) .registry .searchDone else cleared s := by
  unfold clearRegistry cleared
  by_cases h : s.fse.phase = .scanning <;> simp [h]

/-- A cleared registry is that of `cleared`, the notices apart. -/
theorem clearRegistry_blocks (s : State) : ∃ n, clearRegistry s = { cleared s with ppn := n } ∧ n.mask = s.ppn.mask ∧
    n.mode = s.ppn.mode := by
  rw [clearRegistry_eq]; split
  · exact ⟨(raise s .registry .searchDone).ppn, rfl, rfl, rfl⟩
  · exact ⟨s.ppn, rfl, rfl, rfl⟩

theorem record_cleared {s : State} (h : Canonical s) (i : Nat) : (cleared s).record i = (s.record i).clear :=
  bankGet_bankMap (fun _ => PieceRecord.reset) (fun _ r => r.clear) h.1.1 i rfl

theorem slot_cleared {s : State} (h : Canonical s) (n : Nat) : (cleared s).slot n = (s.slot n).clear :=
  bankGet_bankMap (fun _ => Slot.reset) (fun _ v => v.clear) h.2.1.1 n rfl

theorem bed_cleared {s : State} (h : Canonical s) (z : Nat) : (cleared s).bed z = { s.bed z with pieces := [] } :=
  bankGet_bankMap (fun _ => BedRec.reset) (fun _ b => { b with pieces := [] }) h.2.1.2.1 z rfl

theorem fse_cleared (s : State) : (cleared s).fse.depthPenalty = s.fse.depthPenalty ∧
    (cleared s).fse.platePenalty = s.fse.platePenalty := by
  simp only [cleared, Fse.clear]; split <;> exact ⟨rfl, rfl⟩

/-- Settles O58: every bank is emptied or changed record by record. -/
theorem registryIsCleared : Obligations.RegistryIsCleared := by
  unfold Obligations.RegistryIsCleared
  intro s h
  refine ⟨fun hm => .of_ans rfl (if_pos hm), fun hm => ⟨clearRegistry s, .of_ans rfl (if_neg (not_not.2 hm)), ?_⟩⟩
  have hburn := burn_clearRegistry h
  have hheld : (clearRegistry s).bsv.grantHeld = s.bsv.grantHeld := by rw [clearRegistry_eq]; split <;> rfl
  have hidle : s.fse.phase ≠ .scanning → (clearRegistry s).fse = s.fse ∧ (clearRegistry s).ppn = s.ppn := fun hp => by
    rw [clearRegistry_eq, if_neg hp]; exact ⟨if_neg hp, rfl⟩
  have hscan : s.fse.phase = .scanning → (clearRegistry s).fse = { s.fse with
      phase := .ready, outcome := some .aborted, readFlag := false, candidates := [], reserved := none } ∧
      (clearRegistry s).ppn = (raise s .registry .searchDone).ppn := fun hp => by
    rw [clearRegistry_eq, if_pos hp]; exact ⟨if_pos hp, rfl⟩
  obtain ⟨n, hn, hmask, hmode⟩ := clearRegistry_blocks s
  rw [hn] at hburn hheld hidle hscan ⊢
  refine ⟨fun i => ⟨fun hl => ?_, fun hl => ?_⟩, fun _ => rfl, rfl, rfl, slot_cleared h, rfl, bed_cleared h, fun _ => rfl,
    fun _ => rfl, fun _ => rfl, fun _ => rfl, hburn, fun _ => ⟨rfl, rfl⟩, rfl, hidle, hscan, ⟨rfl, rfl⟩, rfl, rfl, rfl, rfl,
    hheld, hmask, hmode, fse_cleared s, rfl, rfl, rfl⟩
  · exact (record_cleared h i).trans (by simp [PieceRecord.clear, hl])
  · obtain ⟨p, hp⟩ := Option.ne_none_iff_exists'.1 hl
    exact (record_cleared h i).trans (by simp [PieceRecord.clear, hp])

/-! ## Frames of the station link (R173, R193, R195) -/

theorem length_outList_bytes (l : List Nat) : (outList (outNat 1) l).length = 1 + l.length := by
  simp [outList, List.length_flatMap]

theorem length_outPiece {v : PieceView} (h : v.piece.key.heat.length = 8) :
    (outPiece v).length = 48 + 8 * v.piece.rects.length := by
  have hrects : (v.piece.rects.flatMap outRect).length = 8 * v.piece.rects.length := by
    simp [List.length_flatMap, Nat.mul_comm]
  simp only [outPiece, List.length_append, length_outHandle, length_outKey h, length_outNat, length_outPlace, length_outNat?,
    length_outFlag, hrects]

theorem length_outPiece_le {v : PieceView} (h : v.piece.key.heat.length = 8) (hr : v.piece.rects.length ≤ 4) :
    (outPiece v).length ≤ 80 := by rw [length_outPiece h]; omega

/-- A piece record that may be absent. -/
theorem length_outLive_le {v : PieceView} {o : Option PieceView} (h : (outPiece v).length ≤ 80) (ho : o = some v ∨ o = none) :
    (outLive o).length ≤ 80 ∧ (outLocation o).length ≤ 5 ∧ (outRecord? (o.map outPiece)).length ≤ 81 := by
  obtain rfl | rfl := ho
  · exact ⟨h, (length_outPlace ..).le, by simp [outRecord?]; omega⟩
  · exact ⟨by simp [outLive], by simp [outLocation], by simp [outRecord?]⟩

@[simp] theorem length_outGeometry (g : ZoneGeometry) : (outGeometry g).length = 18 := by simp [outGeometry]
@[simp] theorem length_outSummary (n : NestSummary) : (outSummary n).length = 12 := by simp [outSummary]
@[simp] theorem length_outGrant (g : Grant) : (outGrant g).length = 14 := by simp [outGrant]
@[simp] theorem length_outMarks (m : Marks) : (outMarks m).length = 15 := by
  simp [outMarks, length_outOpt (f := outRef) length_outRef,
    length_outOpt (n := 7) (f := fun e : PartRef × IssueEnd => outRef e.1 ++ outNat 1 e.2.ctorIdx) (fun e => by simp)]

theorem length_outGrantEnd (e : GrantEnd) : (outGrantEnd e).length = 2 := by cases e <;> simp [outGrantEnd]

@[simp] theorem length_outEndedGrant (e : Option (PartRef × GrantEnd)) : (outEndedGrant e).length = 9 :=
  length_outOpt (n := 8) (f := fun e : PartRef × GrantEnd => outRef e.1 ++ outGrantEnd e.2)
    (fun e => by simp [length_outGrantEnd]) e

@[simp] theorem length_outCounts (c : Option MarkCounts) : (outCounts c).length = 11 := by
  cases c <;> simp [outCounts, outOpt]

@[simp] theorem length_outTorchRefusal (t : Option (Nat × TorchState × Nat)) : (outTorchRefusal t).length = 8 := by
  cases t <;> simp [outTorchRefusal, outOpt]

theorem length_outTake {v : TakeView} (h : v.key.heat.length = 8) : (outTake v).length = 49 := by
  simp [outTake, length_outKey h, length_outOpt (f := outDest) fun d => length_outPlace d.place 0 0,
    length_outOpt (f := outPoint) length_outPoint,
    length_outOpt (n := 11) (f := fun s : SourceView => outPlace s.place s.pos s.count ++ outPoint (s.x, s.y)) fun s => by simp]

/-- A zone with at most two pieces on its bed. -/
theorem length_outZone_le {v : ZoneView} (hl : v.bed.length ≤ 2) (h : ∀ e ∈ v.bed, e.key.heat.length = 8) :
    (outZone v).length ≤ 75 := by
  have hbed : (v.bed.flatMap outBedEntry).length = 20 * v.bed.length := by
    rw [List.length_flatMap, List.map_congr_left (g := fun _ => 20)
      fun e he => by simp [outBedEntry, length_outKey (h e he)]]
    simp [Nat.mul_comm]
  have hnest : (outRecord? (v.nest.map outSummary)).length ≤ 13 := by cases v.nest <;> simp [outRecord?]
  simp only [outZone, outList, List.length_append, length_outNat, length_outNat?, length_outGeometry, hbed]
  omega

/-- The records of the replies to the requests that a station may send (R178). -/
theorem length_outRecord_le {v : PieceView} (hv : (outPiece v).length ≤ 80) {o : Option PieceView} (ho : o = some v ∨ o = none)
    {r : ReplyRecord} (hr : (∃ h, r = .keyed h v) ∨ (∃ k, r = .check k) ∨ (∃ c m k, r = .picked c m o k) ∨
        (∃ k x, r = .placed o k x) ∨ (∃ c m, r = .move c m) ∨ (∃ c m, r = .standing c m o) ∨
        (∃ e, r = .endedReport e o) ∨ (∃ e, r = .cancelledMove e) ∨ (∃ i h x, r = .blocked i h x) ∨
        (∃ x, r = .take x ∧ x.key.heat.length = 8) ∨
        (∃ x, r = .zone x ∧ x.bed.length ≤ 2 ∧ ∀ e ∈ x.bed, e.key.heat.length = 8) ∨
        (∃ x, r = .mark x ∧ x.text.length ≤ 20) ∨ (∃ t x, r = .noMark t x) ∨
        (∃ x m, r = .markReport x m ∧ (x.text.getD []).length ≤ 20) ∨ (∃ x, r = .grant x) ∨ (∃ t, r = .burnRefused t) ∨
        (∃ t x, r = .burnTorch t x) ∨ (∃ t q, r = .burnHeld t q) ∨ (∃ t i x, r = .burnWait t i x) ∨
        (∃ x, r = .burnReport x) ∨ r = .piece v ∨ r = .none) : (outRecord r).length ≤ 118 := by
  obtain ⟨hlive, hloc, hrec⟩ := length_outLive_le hv ho
  obtain ⟨h, rfl⟩ | ⟨k, rfl⟩ | ⟨c, m, k, rfl⟩ | ⟨k, x, rfl⟩ | ⟨c, m, rfl⟩ | ⟨c, m, rfl⟩ | ⟨e, rfl⟩ | ⟨e, rfl⟩ |
    ⟨i, h, x, rfl⟩ | ⟨x, rfl, hx⟩ | ⟨x, rfl, hl, hx⟩ | ⟨x, rfl, hx⟩ | ⟨t, x, rfl⟩ | ⟨x, m, rfl, hx⟩ | ⟨x, rfl⟩ | ⟨t, rfl⟩ |
    ⟨t, x, rfl⟩ | ⟨t, q, rfl⟩ | ⟨t, i, x, rfl⟩ | ⟨x, rfl⟩ | rfl | rfl := hr
  case _ => simp [outRecord]; omega
  case _ => simp [outRecord]
  case _ => simp [outRecord]; omega
  case _ => simp [outRecord]; omega
  case _ => simp [outRecord]
  case _ => simp [outRecord]; omega
  case _ => simp [outRecord]; omega
  case _ => simp [outRecord]
  case _ => simp [outRecord]
  case _ => simp [outRecord, length_outTake hx]
  case _ => exact (length_outZone_le hl hx).trans (by decide)
  case _ => simp [outRecord, outMark, outText, length_outList_bytes]; omega
  case _ => simp [outRecord]
  case _ => simp [outRecord, outMarkFields, outText, length_outList_bytes]; omega
  case _ => simp [outRecord, outGrantView]
  case _ => simp [outRecord]
  case _ => simp [outRecord]
  case _ => simp [outRecord]
  case _ => simp [outRecord]
  case _ => simp [outRecord, outBurnReport, length_outOpt (f := outGrant) length_outGrant]
  case _ => simp [outRecord]; omega
  case _ => simp [outRecord]

/-- Settles O60: the length of each record, field by field. -/
theorem linkFramesAreLaidOut : Obligations.LinkFramesAreLaidOut := by
  unfold Obligations.LinkFramesAreLaidOut
  refine ⟨fun a k p => ⟨fun h => if_pos h, fun h => if_neg (Nat.not_lt.2 h)⟩, fun b => rfl, fun v hk hr => ⟨length_outPiece hk,
    fun st n r o ho hrec => ?_⟩⟩
  have hlen := length_outRecord_le (length_outPiece_le hk hr) ho hrec
  simp only [replyPayload, List.length_append, length_outNat]
  omega

end Sys2Proof.Machine
end

section
/-! PROOFS. The search engine's requests and its walk (R43 to R57). -/

open Sys2Proof Sys2Proof.Machine

namespace Sys2Proof.Machine

/-! ## FIT and FIT_RESERVE (R44 to R46) -/

/-- The fields of a search. -/
def FitFields (a : FitArg) : Prop :=
  a.grade ≤ 63 ∧ (30 ≤ a.thickness ∧ a.thickness ≤ 1000) ∧ (1 ≤ a.len ∧ a.len ≤ 18000) ∧ (1 ≤ a.wid ∧ a.wid ≤ 18000) ∧
    a.filter ≤ 2

theorem filterOf_eq {n : Nat} (h : n ≤ 2) :
    filterOf n = some (if n = 0 then .remnant else if n = 1 then .plate else .any) := by
  match n, h with
  | 0, _ => rfl
  | 1, _ => rfl
  | 2, _ => rfl

theorem filterOf_none {n : Nat} (h : 2 < n) : filterOf n = none := by
  match n, h with
  | n + 3, _ => rfl

theorem fitRange_fields {a : FitArg} (h : FitFields a) :
    fitRange a = some (if a.filter = 0 then .remnant else if a.filter = 1 then .plate else .any) := by
  obtain ⟨hg, ht, hl, hw, hf⟩ := h
  have hok : (steelOk a.grade a.thickness && inRange 1 18000 a.len && inRange 1 18000 a.wid) = true := by
    simp only [Bool.and_eq_true, steelOk_iff, inRange_iff]; omega
  rw [fitRange, if_pos hok, filterOf_eq hf]

theorem fitRange_none {a : FitArg} (h : ¬ FitFields a) : fitRange a = none := by
  unfold fitRange
  split
  · next hok =>
    simp only [Bool.and_eq_true, steelOk_iff, inRange_iff] at hok
    refine filterOf_none ?_
    by_contra hf
    exact h ⟨hok.1.1.1, hok.1.1.2, hok.1.2, hok.2, by omega⟩
  · rfl

theorem penaltyOf_eq (carried : Option Nat) (n : Nat) : penaltyOf carried n = (carried.map (min 65535)).getD n := by
  cases carried <;> rfl

theorem overwrittenBy_eq (f : Fse) :
    overwrittenBy f = if f.phase = .ready ∧ f.readFlag = false then some f.reserved else none := by
  simp [overwrittenBy]

/-- A search with its fields in range, while none runs. -/
theorem searchAns_starts {a : FitArg} {s : State} {k : KindFilter} (tag : Option Nat) (hk : fitRange a = some k)
    (hp : s.fse.phase ≠ .scanning) : searchAns a tag s = ⟨startSearch s a k tag, .accepted, .request
      ⟨a.grade, a.thickness, a.len, a.wid, a.rotate, k, tag, penaltyOf a.depthPenalty s.fse.depthPenalty,
        penaltyOf a.platePenalty s.fse.platePenalty⟩⟩ := by
  simp only [searchAns, hk, if_neg hp] <;> rfl

theorem searchAns_range {a : FitArg} {s : State} (tag : Option Nat) (h : ¬ FitFields a) : searchAns a tag s = refuse s .range := by
  simp only [searchAns, fitRange_none h]

theorem searchAns_busy {a : FitArg} {s : State} (tag : Option Nat) (h : FitFields a) (hp : s.fse.phase = .scanning) :
    searchAns a tag s = refuse s .busy := by
  simp only [searchAns, fitRange_fields h, if_pos hp]

/-- Settles O22: both requests start the same search, FIT_RESERVE with its tag. -/
theorem searchStarts : Obligations.SearchStarts := by
  unfold Obligations.SearchStarts
  refine ⟨fun s a => ?starts, fun s => ?reads⟩
  case starts =>
    intro fields dp pp kind copy started
    have hstart : ∀ tag, fields → s.fse.phase ≠ .scanning →
        searchAns a tag s = ⟨started tag, .accepted, .request (copy tag)⟩ := fun tag h hp => by
      rw [searchAns_starts tag (fitRange_fields h) hp]
      simp only [startSearch, penaltyOf_eq, overwrittenBy_eq]
      rfl
    refine ⟨fun h => .of_ans rfl (searchAns_range none h), fun h hp => .of_ans rfl (searchAns_busy none h hp),
      fun h hp => .of_ans rfl (hstart none h hp), .of_ans rfl (if_pos rfl), fun tag ht => ⟨fun h => .of_ans rfl ?_,
      fun h hp => .of_ans rfl ?_, fun h hp => .of_ans rfl ?_⟩⟩
    all_goals rw [if_neg ht]
    · exact searchAns_range _ h
    · exact searchAns_busy _ h hp
    · exact hstart _ h hp
  case reads =>
    intro f
    have hans : ∀ {view flag}, searchView s.fse = view → (s.fse.readFlag || s.fse.phase == .ready) = flag →
        readSearchAns s = ⟨unitRead { s with fse := { f with readFlag := flag } } .registry, .ok, .search view⟩ := by
      rintro _ _ rfl rfl; rfl
    refine ⟨fun hp => .of_ans rfl (hans (flag := f.readFlag) ?_ ?_), fun hp => .of_ans rfl (hans (flag := f.readFlag) ?_ ?_),
      fun hp => .of_ans rfl (hans ?_ ?_)⟩
    all_goals have hphase : s.fse.phase = _ := hp
    all_goals simp [searchView, hphase, f]

/-! ## The walk (R47 to R51) -/

theorem eligible_iff {q : SearchRequest} {p : Piece} : eligible q p = true ↔
    p.state = .stored ∧ p.reservation = none ∧ p.hold = false ∧ p.move = none ∧ p.grade = q.grade ∧
      p.thickness = q.thickness ∧
      (q.filter = .any ∨ (q.filter = .remnant ∧ p.kind = .remnant) ∨ (q.filter = .plate ∧ p.kind = .plate)) := by
  have hadmits : q.filter.admits p.kind = true ↔
      (q.filter = .any ∨ (q.filter = .remnant ∧ p.kind = .remnant) ∨ (q.filter = .plate ∧ p.kind = .plate)) := by
    cases q.filter <;> simp [KindFilter.admits]
  simp only [eligible, Bool.and_eq_true, beq_iff_eq, Option.isNone_iff_eq_none, Bool.not_eq_true', hadmits, and_assoc]

theorem exec_walkStep {s : State} {q : SearchRequest} (hp : s.fse.phase = .scanning) (hq : s.fse.request = some q)
    (hc : s.fse.cursor < 2048) : exec .walkStep s = .next { s with fse := { s.fse with
      candidates := match judgeRecord s q s.fse.cursor with
        | some c => keepCandidate c s.fse.candidates
        | none => s.fse.candidates,
      cursor := s.fse.cursor + 1 } } := by
  have hlt : s.fse.cursor < Config.pieceRecords := hc
  show execWalkStep s = _
  rw [execWalkStep]
  simp only [hp, hq, if_pos hlt] <;> rfl

/-! ## The completion of a walk (R53 to R55) -/

theorem mem_insertCandidate {c d : Candidate} {l : List Candidate} : d ∈ insertCandidate c l ↔ d = c ∨ d ∈ l := by
  induction l with
  | nil => simp [insertCandidate]
  | cons e l ih =>
    unfold insertCandidate; split
    · simp
    · simp only [List.mem_cons, ih]; tauto

/-- The survivors stand in order, and are those inserted. -/
theorem foldl_insertCandidate (l acc : List Candidate) (h : acc.Pairwise Candidate.NotAfter) :
    (l.foldl (fun acc c => insertCandidate c acc) acc).Pairwise Candidate.NotAfter ∧
    ∀ d, d ∈ l.foldl (fun acc c => insertCandidate c acc) acc ↔ d ∈ l ∨ d ∈ acc := by
  induction l generalizing acc with
  | nil => exact ⟨h, by simp⟩
  | cons c l ih =>
    obtain ⟨hord, hmem⟩ := ih (insertCandidate c acc) (insertCandidate_pairwise c h)
    refine ⟨hord, fun d => (hmem d).trans ?_⟩
    rw [mem_insertCandidate, List.mem_cons]; tauto

theorem mem_survivors {s : State} {q : SearchRequest} {l : List Candidate} {c : Candidate} :
    c ∈ survivors s q l ↔ ∃ k ∈ l, recheck s q k = some c := by
  rw [survivors, (foldl_insertCandidate _ [] List.Pairwise.nil).2]
  simp

/-- What the completion makes of a kept candidate that still names an eligible piece (R53). -/
theorem recheck_eq_some {s : State} {q : SearchRequest} {k c : Candidate} : recheck s q k = some c ↔
    ∃ p, s.piece? k.handle = some p ∧ eligible q p = true ∧
      { k with
        score := scoreOf q p (pieceDepth s k.handle p), created := p.created,
        detail := some ⟨p.key, match p.place with
          | .slot n => n
          | _ => 0, pieceDepth s k.handle p, p.net⟩ } = c := by
  unfold recheck
  cases hp : s.piece? k.handle with
  | none => simp
  | some p =>
    by_cases he : eligible q p = true
    · simp only [he, if_true, Option.some.injEq, true_and, exists_eq_left'] <;> exact Iff.rfl
    · simp [he]

theorem exec_searchCompletion {s : State} {q : SearchRequest} (hp : s.fse.phase = .scanning) (hq : s.fse.request = some q)
    (hc : s.fse.cursor = 2048) : exec .searchCompletion s = .next (completeSearch s q) := by
  have hend : s.fse.cursor = Config.pieceRecords := hc
  show execSearchCompletion s = _
  rw [execSearchCompletion]
  simp only [hp, hq, if_pos hend]

/-- Settles O23: a step of the walk keeps what the record at the cursor gives; the survivors are the kept candidates that
pass once more. -/
theorem searchWalksAndCompletes : Obligations.SearchWalksAndCompletes := by
  unfold Obligations.SearchWalksAndCompletes
  refine ⟨fun s q hp hq hc => ?walks, fun s q hp hq hc => ?completes⟩
  case walks =>
    intro i walked
    have hstep := exec_walkStep hp hq hc
    refine ⟨fun hl => ?_, fun p hl => ?_⟩
    · rw [hstep]; simp [judgeRecord, show (s.record s.fse.cursor).live = none from hl, walked, i]
    intro h qualifies
    have hlive : (s.record s.fse.cursor).live = some p := hl
    refine ⟨fun hno => ?_, fun hf => ?_, fun r b hyes hf => ?_⟩
    · have hne : eligible q p = false := by simpa using mt eligible_iff.1 hno
      rw [hstep]; simp [judgeRecord, hlive, hne, walked, i]
    · rw [hstep]; simp [judgeRecord, hlive, hf, walked, i]
    · intro score
      rw [hstep]; simp only [judgeRecord, hlive, eligible_iff.2 hyes, hf]
      rfl
  case completes =>
    intro l done
    have hdone := exec_searchCompletion hp hq hc
    refine ⟨fun c hl => ?_, fun k hk p hpc he => ?_, (foldl_insertCandidate _ [] List.Pairwise.nil).1, fun hl => ?_,
      fun hl ht => ?_, fun c r tag p hl ht hpc => ?_⟩
    · obtain ⟨k, hk, hr⟩ := mem_survivors.1 hl
      obtain ⟨p, hpc, he, rfl⟩ := recheck_eq_some.1 hr
      exact ⟨k, hk, p, rfl, rfl, rfl, hpc, he, rfl, rfl, fun n hn => by simp [hn]⟩
    · exact ⟨_, mem_survivors.2 ⟨k, hk, recheck_eq_some.2 ⟨p, hpc, he, rfl⟩⟩, rfl⟩
    · have hnone : survivors s q s.fse.candidates = [] := hl
      rw [hdone, completeSearch]
      simp only [hnone, done, hl, reserveFirst, reservedBy]
      cases q.tag <;> rfl
    · obtain ⟨c, r, hcr⟩ := List.exists_cons_of_ne_nil hl
      have hfirst : survivors s q s.fse.candidates = c :: r := hcr
      rw [hdone, completeSearch]
      simp only [hfirst, done, hcr, reserveFirst, reservedBy, ht]
      rfl
    · have hfirst : survivors s q s.fse.candidates = c :: r := hl
      rw [hdone, completeSearch]
      simp only [hfirst, done, hl, reserveFirst, reservedBy, ht, modPiece_eq _ hpc]
      rfl

end Sys2Proof.Machine
end

section
/-! PROOFS. Nests: the judging of declarations, the naming of a nest, staging, withdrawing and starting one (R63 to R71, R77,
R78). -/

open Sys2Proof Sys2Proof.Machine

namespace Sys2Proof.Machine

/-! ## Rules about zones and nests -/

/-- Of two writes of a zone the last one counts, where the first leaves a nest in it. -/
theorem setZone_setZone (s : State) (k : Nat) {v w : Zone} (h : v.nest ≠ none) : (s.setZone k v).setZone k w = s.setZone k w := by
  have hv : v ≠ Zone.reset := fun e => h (by rw [e]; rfl)
  simp only [State.setZone]
  rw [bankSet_bankSet (fun _ => Zone.reset) w fun e => absurd e hv]

/-- Of two writes of a record the last one counts, where the first leaves a piece in it. -/
theorem setRecord_setRecord (s : State) (i g : Nat) (p : Piece) (r : PieceRecord) :
    (s.setRecord i ⟨g, some p⟩).setRecord i r = s.setRecord i r := by
  simp only [State.setRecord]
  rw [bankSet_bankSet (fun _ => PieceRecord.reset) r fun e => by simp [PieceRecord.reset] at e]

theorem nestRecord_eq {s : State} {k : Nat} {n : Nest} (h : (s.zone k).nest = some n) : nestRecord s k = .nest n := by
  simp [nestRecord, h]

/-- The part amended in a nest whose parts are a list with it. -/
theorem modify_eq_set {l : List Part} {i : Nat} {p : Part} (f : Part → Part) (h : l[i]? = some p) :
    l.modify i f = l.set i (f p) := by
  refine List.ext_getElem? fun j => ?_
  rw [List.getElem?_modify, List.getElem?_set]
  obtain ⟨hi, rfl⟩ := List.getElem?_eq_some_iff.1 h
  by_cases hj : i = j
  · subst hj; simp [hi]
  · simp [hj]

theorem modPart_eq {s : State} {z i : Nat} {n : Nest} {p : Part} (f : Part → Part) (hn : (s.zone z).nest = some n)
    (hp : n.parts[i]? = some p) :
    modPart s z i f = s.setZone z { s.zone z with nest := some { n with parts := n.parts.set i (f p) } } := by
  simp [modPart, modNest, setNest, hn, modify_eq_set f hp]

theorem part?_eq {s : State} {z i : Nat} {n : Nest} (hn : (s.zone z).nest = some n) : part? s z i = n.parts[i]? := by
  simp [part?, hn]

/-! ## Declarations (R65, R69) -/

/-- A declared rectangle within its parent (R65). -/
theorem withinParent_iff {parent : Piece} {r : Rect} : withinParent parent r = true ↔
    (parent.kind = .plate ∧ r.dx + r.len ≤ parent.len ∧ r.dy + r.wid ≤ parent.wid) ∨
    (parent.kind = .remnant ∧ ∃ o ∈ parent.rects, o.dx ≤ r.dx ∧ r.dx + r.len ≤ o.dx + o.len ∧ o.dy ≤ r.dy ∧
      r.dy + r.wid ≤ o.dy + o.wid) := by
  unfold withinParent
  cases parent.kind <;> simp [rectWithin, and_assoc]

theorem declsOk_iff {parent : Piece} {ds : List DeclArg} : declsOk parent ds = true ↔
    (∀ d ∈ ds, RemnantFields d ∧ ∀ r ∈ d.rects, withinParent parent r = true) ∧ (ds.map (·.net)).sum ≤ parent.net := by
  simp only [declsOk, Bool.and_eq_true, List.all_eq_true, remnantOk_iff, decide_eq_true_eq, foldl_add_eq_sum]

/-- Settles O24: the checks of DECLARE_REMNANT in order; a change of the list, judged but where it only removes. -/
theorem declarationsAreJudged : Obligations.DeclarationsAreJudged := by
  unfold Obligations.DeclarationsAreJudged
  refine ⟨fun parent ds => ?judged, fun s z k i n d h => ?checks, fun s z k i n p d h hp hlen => ?changes⟩
  case judged =>
    intro inside
    rw [declsOk_iff]
    simp only [withinParent_iff]; rfl
  case checks =>
    intro both
    have hnest := checkNest_holds h
    have hans : ∀ d, declareRemnantAns z n.id i d s = if 1 < i then refuse s .range
        else if n.state = .closed then refuse s .badState
        else match declsAfter n.decls i d with
          | none => refuse s .range
          | some ds =>
            if !declsPass s n.plate d ds then refuse s .range
            else okWith (setNest s k (some { n with decls := ds })) (nestRecord (setNest s k (some { n with decls := ds })) k) :=
      fun d => by rw [declareRemnantAns, hnest] <;> rfl
    refine ⟨fun hi => ⟨.of_ans rfl ?_, .of_ans rfl ?_⟩, fun hi hc => ⟨.of_ans rfl ?_, .of_ans rfl ?_⟩⟩
    · exact (hans _).trans (if_pos hi)
    · exact (hans _).trans (if_pos hi)
    · rw [hans, if_neg (by omega), if_pos hc]; rfl
    · rw [hans, if_neg (by omega), if_pos hc]; rfl
  case changes =>
    intro add del becomes passes hi hc
    have hnest := checkNest_holds h
    have hpiece := piece?_names hp
    have hset : ∀ ds, okWith (setNest s k (some { n with decls := ds })) (nestRecord (setNest s k (some { n with decls := ds })) k) =
        ⟨s.setZone k { s.zone k with nest := some { n with decls := ds } }, .ok, .nest { n with decls := ds }⟩ := fun ds => by
      rw [nestRecord_eq (n := { n with decls := ds }) (by simp [setNest])]; rfl
    have hans : ∀ d, declareRemnantAns z n.id i d s = match declsAfter n.decls i d with
        | none => refuse s .range
        | some ds =>
          if !declsPass s n.plate d ds then refuse s .range
          else ⟨s.setZone k { s.zone k with nest := some { n with decls := ds } }, .ok, .nest { n with decls := ds }⟩ :=
      fun d => by
        simp only [declareRemnantAns, hnest, if_neg (show ¬ 1 < i by omega), if_neg hc, hset] <;> rfl
    have hpass : ∀ d ds, passes ds → declsPass s n.plate (some d) ds = true := fun d ds h => by
      simp [declsPass, hpiece, show declsOk p (ds.map (·.arg)) = true from h]
    have hfail : ∀ d ds, ¬ passes ds → ¬ declsPass s n.plate (some d) ds = true := fun d ds h => by
      simpa [declsPass, hpiece] using show ¬ declsOk p (ds.map (·.arg)) = true from h
    refine ⟨fun hl => .of_ans rfl ?_, fun hl => .of_ans rfl ?_, fun hl hds => .of_ans rfl ?_, fun hl hds => .of_ans rfl ?_,
      fun hl hds => .of_ans rfl ?_, fun hl hds => .of_ans rfl ?_, fun hl => .of_ans rfl ?_⟩
    all_goals rw [hans]
    · simp only [declsAfter, if_pos hl]; rfl
    · simp only [declsAfter, if_pos hl]; rfl
    · simp only [declsAfter, if_neg (show ¬ n.decls.length < i by omega), if_pos hl, if_neg (not_bnot (hpass d _ hds))]
    · simp only [declsAfter, if_neg (show ¬ n.decls.length < i by omega), if_pos hl, if_pos (bnot_of_not (hfail d _ hds))]; rfl
    · simp only [declsAfter, if_neg (show ¬ n.decls.length < i by omega), if_neg (Nat.ne_of_lt hl),
        if_neg (not_bnot (hpass d _ hds))]
    · simp only [declsAfter, if_neg (show ¬ n.decls.length < i by omega), if_neg (Nat.ne_of_lt hl),
        if_pos (bnot_of_not (hfail d _ hds))]; rfl
    · simp only [declsAfter, if_neg (Nat.not_le.2 hl)]; rfl

/-! ## Naming a nest (R63) -/

theorem zoneArg?_iff {z : ZoneArg} {k : Nat} : zoneArg? z = some k ↔ z.table ≤ 5 ∧ z.bed ≤ 1 ∧ k = 2 * z.table + z.bed := by
  refine ⟨fun h => ?_, fun ⟨ht, hb, hk⟩ => hk ▸ zoneArg?_eq ht hb⟩
  obtain ⟨ht, -, -, hk, hb⟩ := zoneArg?_some h
  exact ⟨by omega, hb, hk⟩

theorem checkNest_range {s : State} {z : ZoneArg} (id : Nat) (h : zoneArg? z = none) : checkNest s z id = .error .range := by
  simp [checkNest, h]

theorem checkNest_notFound {s : State} {z : ZoneArg} {id k : Nat} (h : zoneArg? z = some k)
    (hn : (s.zone k).nest = none ∨ ∃ n, (s.zone k).nest = some n ∧ n.id ≠ id) : checkNest s z id = .error .notFound := by
  obtain hn | ⟨n, hn, hid⟩ := hn
  · simp [checkNest, h, hn]
  · simp [checkNest, h, hn, hid]

/-- Settles O26: the requests that name a nest start with the same check. -/
theorem nestIsNamedAndWithdrawn : Obligations.NestIsNamedAndWithdrawn := by
  unfold Obligations.NestIsNamedAndWithdrawn
  refine ⟨fun s z id i d => ?names, fun s z k n h => ?withdrawn⟩
  case names =>
    intro all
    have hall : ∀ st, checkNest s z id = .error st → all st := fun st e => by
      refine ⟨.of_ans rfl ?_, .of_ans rfl ?_, .of_ans rfl ?_, .of_ans rfl ?_, .of_ans rfl ?_⟩
      · simp only [withdrawNestAns, e]; rfl
      · simp only [declareRemnantAns, e]; rfl
      · simp only [skipPartAns, e]; rfl
      · simp only [closeNestAns, e]; rfl
      · simp only [waiveMarkAns, e]; rfl
    refine ⟨fun hz => ⟨hall _ (checkNest_range id (zoneArg?_none hz)), .of_ans rfl (if_pos ?_)⟩, fun k => zoneArg?_iff,
      fun k hz hn => ⟨hall _ (checkNest_notFound hz hn), fun hm => .of_ans rfl ?_⟩⟩
    · rw [zoneArg?_none hz]; rfl
    · rw [startNestAns, if_neg (by simp [hz]), if_neg hm, checkNest_notFound hz hn]; rfl
  case withdrawn =>
    intro c
    have hnest := checkNest_holds h
    refine ⟨fun hs => .of_ans rfl ?_, fun p hs hp => ?_⟩
    · simp only [withdrawNestAns, hnest, if_pos hs]; rfl
    intro t1 t2 t3
    have hpiece : (setNest s k none).piece? n.plate = some p := piece?_names hp
    refine .of_ans rfl ?_
    simp only [withdrawNestAns, hnest, if_neg (not_not.2 hs), modPiece_eq _ hpiece]
    rfl

/-! ## Starting (R70, R71, R77, R78) -/

/-- The start conditions of a zone hold exactly where its nest is ready (R70). -/
theorem startOk_iff {s : State} {z : Nat} (h : ∀ n, (s.zone z).nest = some n → n.plate.index ≤ 2047) :
    startOk s z = true ↔ ∃ n p, ReadyToStart s z n p := by
  refine ⟨fun hs => ?_, fun ⟨n, p, hr⟩ => startOk_of_ready hr⟩
  unfold startOk at hs
  cases hn : (s.zone z).nest with
  | none => simp [hn] at hs
  | some n =>
    simp only [hn, Bool.and_eq_true, beq_iff_eq, Option.isNone_iff_eq_none, List.contains_iff_mem] at hs
    obtain ⟨⟨⟨⟨⟨⟨hst, ha⟩, hm⟩, hph⟩, hb⟩, hi⟩, hp⟩ := hs
    cases hpiece : s.piece? n.plate with
    | none => simp [hpiece] at hp
    | some p =>
      have hmove : p.move = none := by simpa [hpiece] using hp
      have hindex : n.plate.index < Config.pieceRecords := Nat.lt_succ_of_le (h n hn)
      exact ⟨n, p, hn, hst, ha, hm, hph, hb, hi, ⟨hindex, piece?_eq_some.1 hpiece⟩, hmove⟩

/-- A nest whose plate its handle names starts exactly where it is ready with that plate. -/
theorem startOk_names {s : State} {z : Nat} {n : Nest} {p : Piece} (hn : (s.zone z).nest = some n) (hp : s.names n.plate p) :
    startOk s z = true ↔ ReadyToStart s z n p := by
  refine ⟨fun h => ?_, startOk_of_ready⟩
  have hindex : n.plate.index ≤ 2047 := Nat.le_of_lt_succ hp.1
  obtain ⟨m, q, hr⟩ := (startOk_iff fun m hm => by rw [hn] at hm; cases hm; exact hindex).1 h
  obtain rfl : n = m := by have := hr.1; rw [hn] at this; cases this; rfl
  obtain rfl : p = q := by
    have := hr.2.2.2.2.2.2.2.1.2
    rw [hp.2] at this; cases this; rfl
  exact hr

@[simp] theorem zone_started (s : State) (z j : Nat) (n : Nest) (p : Piece) : (started s z n p).zone j =
    if j = z then { s.zone z with phase := .cutting, nest := some { n with state := .active } } else s.zone j := by
  simp [started]

@[simp] theorem zone_switched (s : State) (z j : Nat) (n : Nest) (p : Piece) : (switched s z n p).zone j =
    if j = z then { s.zone z with phase := .cutting, nest := some { n with state := .active } } else s.zone j := by
  simp [switched]

/-- The chain flag is none of the conditions of readiness. -/
theorem ReadyToStart.setTable {s : State} {z t : Nat} {n : Nest} {p : Piece} (h : ReadyToStart s z n p) (b : Bool) :
    ReadyToStart (s.setTable t { s.table t with chain := b }) z n p := by
  obtain ⟨hn, hs, ha, hm, hp, hb, hi, hv, hw⟩ := h
  refine ⟨hn, hs, ?_, hm, hp, hb, hi, hv, hw⟩
  rw [State.table_setTable]; split
  · next e => rw [← e]; exact ha
  · exact ha

/-- Settles O27: START_NEST activates where the start conditions hold; SET_CHAIN ends in the pending start check. -/
theorem nestIsStarted : Obligations.NestIsStarted := by
  unfold Obligations.NestIsStarted
  refine ⟨fun s z k n h => ?starts, fun s z h => startOk_iff h, fun s t => ?chain⟩
  case starts =>
    intro c
    have hnest := checkNest_holds h
    have hzone : ¬ (zoneArg? z).isNone = true := by simp [h.1]
    refine ⟨fun hm => .of_ans rfl ?_, fun hm hs => .of_ans rfl ?_, fun p hp => ⟨fun hm hno => .of_ans rfl ?_,
      fun hr => .of_ans rfl ?_⟩⟩
    all_goals rw [startNestAns, if_neg hzone]
    · rw [if_pos hm]; rfl
    · rw [if_neg hm]; simp only [hnest, if_pos hs]; rfl
    · have hoff : ¬ startOk s k = true := mt (startOk_names h.2 hp).1 hno
      rw [if_neg hm]; simp only [hnest]
      by_cases hs : n.state ≠ .staged
      · rw [if_pos hs]; rfl
      · rw [if_neg hs, if_pos (bnot_of_not hoff)]; rfl
    · have hs := hr.2.1
      have hm := hr.2.2.2.1
      have hopen : ¬ s.ppn.mode = .cold := by rw [hm]; decide
      rw [if_neg hopen]
      simp only [hnest, if_neg (not_not.2 hs), if_neg (not_bnot (startOk_of_ready hr)), activate_of_ready hr]
      rw [nestRecord_eq (n := { n with state := .active }) (by simp)]; rfl
  case chain =>
    intro flag
    have hchain : ((flag true).table t).chain = true := by simp [flag]
    refine ⟨fun ht b => .of_ans rfl (if_pos ht), fun ht => ⟨.of_ans rfl ?_, fun hoff => .of_ans rfl ?_,
      fun n p hr => .of_ans rfl ?_, fun n p hr hoff => .of_ans rfl ?_⟩⟩
    all_goals rw [setChainAns, if_neg (by omega)]
    · rfl
    · have hstands : pendingStart (flag true) t = flag true := pendingStart_stands (by
        obtain ha | ha := hoff
        · exact .inr (.inl (by simpa [flag] using ha))
        · exact .inr (.inr ha))
      simp only [if_true, show s.setTable t { s.table t with chain := true } = flag true from rfl, hstands]; rfl
    · have hstart := pendingStart_of_ready_a hchain (hr.setTable (t := t) true)
      simp only [if_true, show s.setTable t { s.table t with chain := true } = flag true from rfl, hstart]; rfl
    · have hstart := pendingStart_of_ready_b hchain hoff (hr.setTable (t := t) true)
      simp only [if_true, show s.setTable t { s.table t with chain := true } = flag true from rfl, hstart]; rfl

end Sys2Proof.Machine
end

section
/-! PROOFS. Stage: the laying out of a nest (R66, R67), with the pending start check that ends it (R78). -/

open Sys2Proof Sys2Proof.Machine

namespace Sys2Proof.Machine

/-! ## The two zones of a table -/

theorem zoneTable_otherZone (k : Nat) : zoneTable (otherZone k) = zoneTable k := by
  unfold otherZone zoneTable; split <;> omega

theorem otherZone_ne (k : Nat) : otherZone k ≠ k := by unfold otherZone; split <;> omega

theorem even_or_pred_eq_otherZone (k : Nat) :
    (k = 2 * zoneTable k ∧ otherZone k = 2 * zoneTable k + 1) ∨ (k = 2 * zoneTable k + 1 ∧ otherZone k = 2 * zoneTable k) := by
  unfold otherZone zoneTable; split <;> omega

/-- The pending start check of the table of zone `k` starts the ready nest of `k`, where zone A has none to start before
it (R78). -/
theorem pendingStart_of_ready {s : State} {k : Nat} {n : Nest} {p : Piece} (hc : (s.table (zoneTable k)).chain = true)
    (h : ReadyToStart s k n p) (hf : (∃ b, k = 2 * b) ∨ startOk s (k - 1) = false) :
    pendingStart s (zoneTable k) = switched s k n p := by
  obtain ⟨he, -⟩ | ⟨ho, -⟩ := even_or_pred_eq_otherZone k
  · have hstart := pendingStart_of_ready_a (n := n) (p := p) hc (by rw [← he]; exact h)
    rwa [← he] at hstart
  · have hnone : startOk s (2 * zoneTable k) = false := by
      obtain ⟨b, hb⟩ | hf := hf
      · omega
      · rwa [show k - 1 = 2 * zoneTable k by omega] at hf
    have hstart := pendingStart_of_ready_b (n := n) (p := p) hc hnone (by rw [← ho]; exact h)
    rwa [← ho] at hstart

theorem pendingStart_of_neither {s : State} {k : Nat} (h : startOk s k = false) (ho : startOk s (otherZone k) = false) :
    pendingStart s (zoneTable k) = s := by
  refine pendingStart_stands (.inr (.inr ?_))
  obtain ⟨he, hx⟩ | ⟨he, hx⟩ := even_or_pred_eq_otherZone k
  · rw [← hx]; exact ⟨by rw [← he]; exact h, ho⟩
  · rw [← hx]; exact ⟨ho, by rw [hx, ← he]; exact h⟩

/-! ## The fields and the checks of STAGE_NEST -/

theorem partOk_iff {a : PartArg} : partOk a = true ↔
    (∀ t, a.text = some t → (1 ≤ t.length ∧ t.length ≤ 20) ∧ ∀ x ∈ t, 32 ≤ x ∧ x ≤ 126) ∧ a.x ≤ 18000 ∧ a.y ≤ 4800 := by
  unfold partOk
  cases a.text <;> simp [textOk, inRange_iff, and_assoc]

theorem stageRange_iff {id : Nat} {ps : List PartArg} {ds : List DeclArg} : stageRange id ps ds = true ↔
    (1 ≤ id ∧ id ≤ 4294967295) ∧ (1 ≤ ps.length ∧ ps.length ≤ 64) ∧ (∀ a ∈ ps,
      (∀ t, a.text = some t → (1 ≤ t.length ∧ t.length ≤ 20) ∧ ∀ x ∈ t, 32 ≤ x ∧ x ≤ 126) ∧ a.x ≤ 18000 ∧ a.y ≤ 4800) ∧
      ds.length ≤ 2 := by
  simp only [stageRange, Bool.and_eq_true, inRange_iff, List.all_eq_true, partOk_iff, decide_eq_true_eq, and_assoc, Config.max32]

theorem stagedPart_eq (a : PartArg) : stagedPart a =
    if a.text = none then ⟨none, 0, 0, .notRequired, 0, .pending, 0, 0, 0⟩
    else ⟨a.text, a.x, a.y, .pending, 0, .pending, 0, 0, 0⟩ := by
  unfold stagedPart
  cases h : a.text <;> rfl

theorem plateFree_iff {id : Nat} {p : Piece} : plateFree id p = true ↔
    p.hold = false ∧ p.state ≠ .inCut ∧ (p.reservation = none ∨ p.reservation = some ⟨.host, id⟩) := by
  simp [plateFree, and_assoc]

theorem otherPieceBound_iff {s : State} {k : Nat} {h : Handle} : otherPieceBound s k h = true ↔
    ∃ x m, x < 3 ∧ m ∈ s.queue x ∧ m.dest = some (.zone k) ∧ m.piece ≠ h := by
  simp only [otherPieceBound, List.any_eq_true, List.mem_range, Bool.and_eq_true, beq_iff_eq, bne_iff_ne]
  exact ⟨fun ⟨x, hx, m, hm, hd⟩ => ⟨x, m, hx, hm, hd⟩, fun ⟨x, m, hx, hm, hd⟩ => ⟨x, hx, m, hm, hd⟩⟩

/-- The zone may take a nest (R66 steps 2 to 4). -/
theorem stageChecks_free {s : State} {k id : Nat} {h : Handle} (hc : (s.bed k).configured = true)
    (hcut : ¬ ((s.zone k).phase = .cutting ∨ (s.zone k).phase = .cut)) (hn : (s.zone k).nest = none) :
    stageChecks s k id h = match checkHandle s h with
      | .error e => .error e
      | .ok p =>
        if !plateFree id p then .error .badState
        else if (s.bed k).pieces.any (· ≠ h) then .error .occupied
        else if otherPieceBound s k h then .error .occupied
        else .ok p := by
  rw [stageChecks, if_neg (not_bnot hc), if_neg (by simpa using hcut), if_neg (by simp [hn])] <;> rfl

theorem stageNest_eq {s : State} {k : Nat} {n : Nest} {p : Piece} (hp : s.names n.plate p) : stageNest s k n =
    (s.setZone k { s.zone k with nest := some n }).setRecord n.plate.index
      ⟨n.plate.gen, some { p with reservation := some ⟨.nest, n.id⟩ }⟩ := by
  have hpiece : (setNest s k (some n)).piece? n.plate = some p := piece?_names hp
  rw [stageNest, modPiece_eq _ hpiece]; rfl

/-- Settles O25: the checks in order; the staged nest stands in its zone whatever the pending start check then starts. -/
theorem stageNestStages : Obligations.StageNestStages := by
  unfold Obligations.StageNestStages
  intro s z k id h ps ds c fields part n st free
  have hnest : stagedNest id h ps ds = n := by
    simp only [stagedNest, n, part]
    rw [show stagedPart = _ from funext stagedPart_eq]
  have hst : ∀ r, stageNestAns z id h ps ds s = refuse s r → st r := fun r e => .of_ans rfl e
  refine ⟨fun hbad => hst _ ?range, fun hz hf => ?checks⟩
  case range =>
    unfold stageNestAns
    cases hz : zoneArg? z with
    | none => rfl
    | some j =>
      have hrange : ¬ stageRange id ps ds = true := mt stageRange_iff.1 (hbad.resolve_left (by simp [hz]))
      exact if_pos (bnot_of_not hrange)
  have hans : stageNestAns z id h ps ds s = match stageChecks s k id h with
      | .error e => refuse s e
      | .ok p =>
        if !declsOk p ds then refuse s .range
        else
          let s := pendingStart (stageNest s k n) (zoneTable k)
          okWith s (nestRecord s k) := by
    simp only [stageNestAns, hz, if_neg (not_bnot (stageRange_iff.2 hf)), hnest] <;> rfl
  have herror : ∀ r, stageChecks s k id h = .error r → st r := fun r e => hst r (by rw [hans, e])
  have hfree : free → stageChecks s k id h = match checkHandle s h with
      | .error e => .error e
      | .ok p =>
        if !plateFree id p then .error .badState
        else if (s.bed k).pieces.any (· ≠ h) then .error .occupied
        else if otherPieceBound s k h then .error .occupied
        else .ok p := fun ⟨hc, h1, h2, hn⟩ => stageChecks_free hc (by tauto) hn
  refine ⟨fun hb => herror _ ?_, fun hc h1 h2 hn => herror _ ?_, fun hfr hi => herror _ ?_, fun hfr hi hg => herror _ ?_,
    fun hfr hi hr => herror _ ?_, fun p hfr hp => ?_⟩
  · unfold stageChecks
    by_cases hc : (s.bed k).configured = true
    · rw [if_neg (not_bnot hc), if_pos (by simpa [hc] using hb)]
    · rw [if_pos (bnot_of_not hc)]
  · rw [stageChecks, if_neg (not_bnot hc), if_neg (by simp [h1, h2]), if_pos (Option.isSome_iff_ne_none.2 hn)]
  · rw [hfree hfr, checkHandle_range hi]
  · rw [hfree hfr, checkHandle_stale hi hg]
  · rw [hfree hfr, checkHandle_notFound hi hr]
  intro claimable other t
  have hchecks := hfree hfr
  rw [checkHandle_names hp] at hchecks
  simp only at hchecks
  have hother : other ↔ (s.bed k).pieces.any (· ≠ h) = true ∨ otherPieceBound s k h = true := by
    simp only [other, List.any_eq_true, otherPieceBound_iff, decide_eq_true_eq]
  refine ⟨fun hcl => herror _ ?_, fun hcl ho => herror _ ?_, fun hcl ho hd => hst _ ?_, fun hcl ho hd => ?_⟩
  · rw [hchecks, if_pos (bnot_of_not (mt plateFree_iff.1 hcl))]
  · rw [hchecks, if_neg (not_bnot (plateFree_iff.2 hcl))]
    by_cases hb : (s.bed k).pieces.any (· ≠ h) = true
    · rw [if_pos hb]
    · rw [if_neg hb, if_pos ((hother.1 ho).resolve_left hb)]
  all_goals
    have hok : stageChecks s k id h = .ok p := by
      rw [hchecks, if_neg (not_bnot (plateFree_iff.2 hcl)), if_neg fun e => ho (hother.2 (.inl e)),
        if_neg fun e => ho (hother.2 (.inr e))]
  · rw [hans, hok]; exact if_pos (by rw [hd]; rfl)
  have ht : stageNest s k n = t := stageNest_eq (n := n) hp
  have hstart : stageNestAns z id h ps ds s =
      okWith (pendingStart t (zoneTable k)) (nestRecord (pendingStart t (zoneTable k)) k) := by
    rw [hans, hok]; simp only [if_neg (not_bnot hd), ht]
  have hstaged : (t.zone k).nest = some n := by simp [t]
  have htable : t.table (zoneTable k) = s.table (zoneTable k) := by simp [t]
  clear_value t n
  refine ⟨fun hoff => .of_ans rfl ?_, fun hch hr hf => .of_ans rfl ?_, fun hch h1 h2 => .of_ans rfl ?_,
    fun m q hch hr hf => .of_ans rfl ?_⟩
  all_goals rw [hstart]
  · have hstands : pendingStart t (zoneTable k) = t := pendingStart_stands (by rw [htable]; tauto)
    rw [hstands, nestRecord_eq hstaged]; rfl
  · rw [pendingStart_of_ready (by rw [htable]; exact hch) hr hf, nestRecord_eq (n := { n with state := .active }) (by simp)]; rfl
  · rw [pendingStart_of_neither h1 h2, nestRecord_eq hstaged]; rfl
  · have hfirst : (∃ b, otherZone k = 2 * b) ∨ startOk t (otherZone k - 1) = false := by
      obtain ⟨he, hx⟩ | ⟨-, hx⟩ := even_or_pred_eq_otherZone k
      · exact hf.imp_right fun hk => by rwa [show otherZone k - 1 = k by omega]
      · exact .inl ⟨_, hx⟩
    have hswitch := pendingStart_of_ready (by rw [zoneTable_otherZone, htable]; exact hch) hr hfirst
    rw [zoneTable_otherZone] at hswitch
    rw [hswitch, nestRecord_eq (n := n) (by simpa [(otherZone_ne k).symm] using hstaged)]; rfl

end Sys2Proof.Machine
end

section
/-! PROOFS. Skip: a part given up, a mark waived, and the close that the last open part of a nest brings (R72, R74, R76,
R92). -/

open Sys2Proof Sys2Proof.Machine

namespace Sys2Proof.Machine

/-! ## The close of a nest (R74, R76) -/

theorem zone_createRemnants (s : State) (p : Piece) (k j : Nat) (ds : List Decl) :
    (createRemnants s p k ds).1.zone j = s.zone j := by simp [State.zone]

theorem table_createRemnants (s : State) (p : Piece) (k j : Nat) (ds : List Decl) :
    (createRemnants s p k ds).1.table j = s.table j := by simp [State.table]

theorem zone_retire (s : State) (h : Handle) (j : Nat) : (retire s h).zone j = s.zone j := by simp [State.zone]

theorem table_retire (s : State) (h : Handle) (j : Nat) : (retire s h).table j = s.table j := by simp [State.table]

theorem closeNest_eq {s : State} {k : Nat} {n : Nest} {p : Piece} (hn : (s.zone k).nest = some n) (hp : s.names n.plate p) :
    closeNest s k = chainStep (closedNest s k n p).1 k := by
  have hpiece := piece?_names hp
  simp only [closeNest, hn, hpiece, closedNest, zone_createRemnants, zone_retire, State.table_setZone, table_createRemnants,
    table_retire]

theorem zone_closedNest (s : State) (k : Nat) (n : Nest) (p : Piece) :
    ((closedNest s k n p).1.zone k).nest = some (closedNest s k n p).2 := by simp [closedNest]

theorem table_closedNest (s : State) (k : Nat) (n : Nest) (p : Piece) :
    (closedNest s k n p).1.table (zoneTable k) = { s.table (zoneTable k) with active := none } := by simp [closedNest]

/-- What is told of the close of a nest, whether or not the chain step starts the other zone's nest. -/
theorem ClosesTo.of_tells {s : State} {k : Nat} {n : Nest} {p : Piece} {tells : Nest → State → Prop}
    (hn : (s.zone k).nest = some n) (hp : s.names n.plate p)
    (h : ∀ t, closeNest s k = t → (t.zone k).nest = some (closedNest s k n p).2 → tells (closedNest s k n p).2 t) :
    ClosesTo s k n p tells := by
  have hm := zone_closedNest s k n p
  have hchain : (((closedNest s k n p).1).table (zoneTable k)).chain = (s.table (zoneTable k)).chain := by
    rw [table_closedNest]
  refine ⟨fun hoff => h _ ?_ hm, fun x q hc hr => h _ ?_ ?_⟩
  · rw [closeNest_eq hn hp, chainStep_stands (by rw [hchain]; exact hoff)]
  · rw [closeNest_eq hn hp, chainStep_of_ready (by rw [hchain]; exact hc) hr]
  · rw [zone_switched, if_neg (otherZone_ne k).symm]; exact hm

/-- A request that ends in the close of a nest and tells of it. -/
theorem ClosesTo.of_closeNest {i : Instr} {s u : State} {kind : ReqKind} {k : Nat} {n : Nest} {p : Piece}
    (hn : (u.zone k).nest = some n) (hp : u.names n.plate p)
    (hexec : exec i s = hostAnswer kind (okWith (closeNest u k) (nestRecord (closeNest u k) k))) :
    ClosesTo u k n p fun m t => Answers i s kind .ok (.nest m) t :=
  ClosesTo.of_tells hn hp fun t ht hm => .of_ans hexec (by rw [ht, nestRecord_eq hm]; rfl)

theorem closeIfFinal_of_final {s : State} {k : Nat} {n : Nest} (hn : (s.zone k).nest = some n) (ha : n.state = .active)
    (hf : ∀ p ∈ n.parts, p.final = true) (hg : (s.burn (zoneTable k)).grant = none) : closeIfFinal s k = closeNest s k := by
  simp only [closeIfFinal, hn]
  exact if_pos (by simp [ha, hg]; exact hf)

theorem closeIfFinal_inactive {s : State} {k : Nat} {n : Nest} (hn : (s.zone k).nest = some n) (ha : n.state ≠ .active) :
    closeIfFinal s k = s := by simp [closeIfFinal, hn, ha]

theorem closeIfFinal_stands {s : State} {k : Nat} {n : Nest} {p : Part} (hn : (s.zone k).nest = some n) (hp : p ∈ n.parts)
    (hf : p.final = false) : closeIfFinal s k = s := by
  have hall : n.parts.all Part.final = false := by rw [List.all_eq_false]; exact ⟨p, hp, by simp [hf]⟩
  simp [closeIfFinal, hn, hall]

/-! ## A part given up (R72) -/

/-- The part is still open. -/
theorem openPart_iff {p : Part} : (p.burn == .pending || p.burn == .interrupted) = true ↔
    p.burn = .pending ∨ p.burn = .interrupted := by simp

theorem skipOne_unmarked {s : State} {k i : Nat} {n : Nest} {p : Part} (hn : (s.zone k).nest = some n)
    (hp : n.parts[i]? = some p) (hb : p.burn = .pending ∨ p.burn = .interrupted) (hm : p.mark ≠ .issued) : skipOne s k i =
      s.setZone k { s.zone k with nest := some { n with parts := n.parts.set i { p with burn := .skipped } } } := by
  simp only [skipOne, part?_eq hn, hp, if_pos (openPart_iff.2 hb), modPart_eq _ hn hp]
  exact if_neg (by simpa using hm)

theorem withdrawMark_eq {s : State} {k i : Nat} {n : Nest} {p : Part} (hn : (s.zone k).nest = some n)
    (hp : n.parts[i]? = some p) (hr : (s.marks (zoneTable k)).issued = some ⟨zoneBed k, n.id, i⟩) :
    withdrawMark s (zoneTable k) =
      (s.setZone k { s.zone k with nest := some { n with parts := n.parts.set i { p with mark := .pending } } }).setMarks
        (zoneTable k) ⟨none, some (⟨zoneBed k, n.id, i⟩, .withdrawn)⟩ := by
  simp only [withdrawMark, hr, zoneOf_zoneBed, modPart_eq _ hn hp]

theorem skipOne_issued {s : State} {k i : Nat} {n : Nest} {p : Part} (hn : (s.zone k).nest = some n)
    (hp : n.parts[i]? = some p) (hb : p.burn = .pending ∨ p.burn = .interrupted) (hm : p.mark = .issued)
    (hr : (s.marks (zoneTable k)).issued = some ⟨zoneBed k, n.id, i⟩) : skipOne s k i =
      (s.setZone k { s.zone k with
        nest := some { n with parts := n.parts.set i { p with burn := .skipped, mark := .pending } } }).setMarks
        (zoneTable k) ⟨none, some (⟨zoneBed k, n.id, i⟩, .withdrawn)⟩ := by
  have hi : i < n.parts.length := (List.getElem?_eq_some_iff.1 hp).1
  simp only [skipOne, part?_eq hn, hp, if_pos (openPart_iff.2 hb), modPart_eq _ hn hp]
  have hw := withdrawMark_eq (i := i) (n := { n with parts := n.parts.set i { p with burn := .skipped } })
    (s := s.setZone k { s.zone k with nest := some { n with parts := n.parts.set i { p with burn := .skipped } } })
    (p := { p with burn := .skipped }) (by simp) (by simp [hi]) hr
  rw [if_pos (by simp [hm]), hw, setZone_setZone _ _ (by simp)]
  simp

/-- The parts of a nest with one amended are final where the amended one and the others are. -/
theorem final_of_set {l : List Part} {i : Nat} {q : Part} (hq : q.final = true)
    (h : ∀ j x, l[j]? = some x → j ≠ i → x.final = true) : ∀ x ∈ l.set i q, x.final = true := by
  intro x hx
  obtain ⟨j, hj⟩ := List.mem_iff_getElem?.1 hx
  rw [List.getElem?_set] at hj
  split at hj
  · split at hj <;> cases hj
    exact hq
  · next hne => exact h j x hj (Ne.symm hne)

theorem mem_set_of_ne {l : List Part} {i j : Nat} {q x : Part} (hx : l[j]? = some x) (hne : j ≠ i) : x ∈ l.set i q :=
  List.mem_of_getElem? (i := j) (by rw [List.getElem?_set_ne (Ne.symm hne)]; exact hx)

theorem partRecord_eq {s : State} {z i : Nat} {n : Nest} {p : Part} (hn : (s.zone z).nest = some n)
    (hp : n.parts[i]? = some p) : partRecord s z i = .part i p := by simp [partRecord, part?_eq hn, hp]

/-- Settles O28: skipOne with and without an issued mark, followed by the close where the other parts are final; the marks
by cases. -/
theorem partsAreSkippedAndWaived : Obligations.PartsAreSkippedAndWaived := by
  unfold Obligations.PartsAreSkippedAndWaived
  refine ⟨fun s z k i j n p q h => ?skip, fun s z k i n p h => ?waive⟩
  case skip =>
    intro c T
    have hnest := checkNest_holds h
    have hn := h.2
    refine ⟨fun hl => .of_ans rfl ?_, fun hp hs => .of_ans rfl ?_, fun hp hs => ?_⟩
    · simp only [skipPartAns, hnest, List.getElem?_eq_none hl]; rfl
    · simp only [skipPartAns, hnest, hp, if_pos hs]; rfl
    have hopen : p.burn = .pending ∨ p.burn = .interrupted →
        skipPartAns z n.id i s = okWith (closeIfFinal (skipOne s k i) k) (nestRecord (closeIfFinal (skipOne s k i) k) k) := by
      rintro (hb | hb) <;> simp only [skipPartAns, hnest, hp, if_neg (not_not.2 hs), hb]
    refine ⟨?_, fun hb => .of_ans rfl ?_, fun hb hq hne hfin => ⟨fun hm => ?_, fun hm hr => ?_⟩,
      fun v hb hv hg hothers => ⟨fun hm => ?_, fun hm hr => ?_⟩⟩
    · rintro (hb | hb) <;>
        exact .of_ans rfl (by simp only [skipPartAns, hnest, hp, if_neg (not_not.2 hs), hb]; rfl)
    · simp only [skipPartAns, hnest, hp, if_neg (not_not.2 hs), hb, nestRecord_eq hn]; rfl
    · intro m
      refine .of_ans rfl ?_
      rw [hopen hb, skipOne_unmarked hn hp hb hm, closeIfFinal_stands (n := m) (by simp [m]) (mem_set_of_ne hq hne) hfin,
        nestRecord_eq (n := m) (by simp [m])]; rfl
    · intro m
      refine .of_ans rfl ?_
      rw [hopen hb, skipOne_issued hn hp hb hm hr, closeIfFinal_stands (n := m) (by simp [m]) (mem_set_of_ne hq hne) hfin,
        nestRecord_eq (n := m) (by simp [m])]; rfl
    · have hclose := skipOne_unmarked hn hp hb hm
      refine ClosesTo.of_closeNest (by simp) hv ?_
      show hostAnswer _ (skipPartAns z n.id i s) = _
      rw [hopen hb, hclose, closeIfFinal_of_final (n := { n with parts := n.parts.set i { p with burn := .skipped } })
        (by simp) hs (final_of_set rfl hothers) (by simpa using hg)]
    · have hclose := skipOne_issued hn hp hb hm hr
      refine ClosesTo.of_closeNest (by simp) hv ?_
      show hostAnswer _ (skipPartAns z n.id i s) = _
      rw [hopen hb, hclose, closeIfFinal_of_final
        (n := { n with parts := n.parts.set i { p with burn := .skipped, mark := .pending } })
        (by simp) hs (final_of_set rfl hothers) (by simpa using hg)]
      rfl
  case waive =>
    intro c
    have hnest := checkNest_holds h
    have hn := h.2
    refine ⟨fun hl => .of_ans rfl ?_, fun hp => ⟨fun hs => .of_ans rfl ?_, fun hs => ⟨fun hm => .of_ans rfl ?_, ?_, ?_⟩⟩⟩
    · simp only [waiveMarkAns, hnest, List.getElem?_eq_none hl]; rfl
    · simp only [waiveMarkAns, hnest, hp, if_pos hs]; rfl
    · simp only [waiveMarkAns, hnest, hp, if_neg hs, hm, partRecord_eq hn hp]; rfl
    · intro hm q
      refine .of_ans rfl ?_
      have hq : partRecord (s.setZone k { s.zone k with nest := some { n with parts := n.parts.set i q } }) k i = .part i q :=
        partRecord_eq (n := { n with parts := n.parts.set i q }) (by simp) (by simp [(List.getElem?_eq_some_iff.1 hp).1])
      obtain hm | hm := hm <;>
        · simp only [waiveMarkAns, hnest, hp, if_neg hs, hm, modPart_eq _ hn hp]
          rw [hq]; rfl
    · rintro (hm | hm | hm) <;>
        exact .of_ans rfl (by simp only [waiveMarkAns, hnest, hp, if_neg hs, hm]; rfl)

end Sys2Proof.Machine
end

section
/-! PROOFS. Close: the open parts given up, the declarations made remnants or dropped, and the nest closed (R73 to R76). -/

open Sys2Proof Sys2Proof.Machine

namespace Sys2Proof.Machine

/-! ## The parts of a nest given up one by one (R73) -/

/-- A part as CLOSE_NEST leaves it: an open one is SKIPPED, an issued mark of it PENDING again (R72, R91). -/
def Part.givenUp (x : Part) : Part :=
  if x.burn = .pending ∨ x.burn = .interrupted then
    { x with burn := .skipped, mark := if x.mark = .issued then .pending else x.mark }
  else x

/-- The nest with its first `j` parts given up. -/
def Nest.givenUpTo (n : Nest) (j : Nat) : Nest :=
  { n with parts := (n.parts.take j).map Part.givenUp ++ n.parts.drop j }

/-- The state with that nest in zone `k`. -/
def State.givenUpTo (s : State) (k : Nat) (n : Nest) (j : Nat) : State :=
  s.setZone k { s.zone k with nest := some (n.givenUpTo j) }

@[simp] theorem nest_givenUpTo (s : State) (k : Nat) (n : Nest) (j : Nat) :
    ((s.givenUpTo k n j).zone k).nest = some (n.givenUpTo j) := by simp [State.givenUpTo]

theorem givenUpTo_zero (n : Nest) : n.givenUpTo 0 = n := by simp [Nest.givenUpTo]

theorem givenUpTo_length (n : Nest) : n.givenUpTo n.parts.length = { n with parts := n.parts.map Part.givenUp } := by
  simp [Nest.givenUpTo]

variable {n : Nest} {j : Nat} {x : Part}

theorem getElem?_givenUpTo (hx : n.parts[j]? = some x) : (n.givenUpTo j).parts[j]? = some x := by
  have hj := (List.getElem?_eq_some_iff.1 hx).1
  rw [Nest.givenUpTo, List.getElem?_append_right (by simp)]
  simp [Nat.min_eq_left hj.le, hx]

/-- Part `j` given up after the parts before it. -/
theorem set_givenUpTo (hx : n.parts[j]? = some x) :
    { n.givenUpTo j with parts := (n.givenUpTo j).parts.set j x.givenUp } = n.givenUpTo (j + 1) := by
  obtain ⟨hj, rfl⟩ := List.getElem?_eq_some_iff.1 hx
  have hfirst : j - ((n.parts.take j).map Part.givenUp).length = 0 := by simp [Nat.min_eq_left hj.le]
  simp only [Nest.givenUpTo]
  rw [List.set_append_right _ _ (by simp), hfirst, List.drop_eq_getElem_cons hj, List.take_succ_eq_append_getElem hj,
    List.set_cons_zero, List.map_append, List.append_assoc]
  rfl

theorem givenUp_final (hb : ¬ (x.burn = .pending ∨ x.burn = .interrupted)) : x.givenUp = x := if_neg hb

theorem givenUp_unmarked (hb : x.burn = .pending ∨ x.burn = .interrupted) (hm : x.mark ≠ .issued) :
    x.givenUp = { x with burn := .skipped } := by rw [Part.givenUp, if_pos hb, if_neg hm]

theorem givenUp_issued (hb : x.burn = .pending ∨ x.burn = .interrupted) (hm : x.mark = .issued) :
    x.givenUp = { x with burn := .skipped, mark := .pending } := by rw [Part.givenUp, if_pos hb, if_pos hm]

theorem setZone_givenUpTo (s : State) (k : Nat) (hx : n.parts[j]? = some x) :
    (s.givenUpTo k n j).setZone k { (s.givenUpTo k n j).zone k with
      nest := some { n.givenUpTo j with parts := (n.givenUpTo j).parts.set j x.givenUp } } = s.givenUpTo k n (j + 1) := by
  rw [set_givenUpTo hx, State.givenUpTo, setZone_setZone _ _ (by simp)]
  simp [State.givenUpTo]

theorem skipOne_final {s : State} {k i : Nat} {m : Nest} (hn : (s.zone k).nest = some m) (hx : m.parts[i]? = some x)
    (hb : ¬ (x.burn = .pending ∨ x.burn = .interrupted)) : skipOne s k i = s := by
  simp only [skipOne, part?_eq hn, hx]
  exact if_neg (mt openPart_iff.1 hb)

theorem skipOne_givenUpTo (s : State) (k : Nat) (hx : n.parts[j]? = some x) (hm : x.mark ≠ .issued) :
    skipOne (s.givenUpTo k n j) k j = s.givenUpTo k n (j + 1) := by
  have hget := getElem?_givenUpTo hx
  have hset := setZone_givenUpTo s k hx
  by_cases hb : x.burn = .pending ∨ x.burn = .interrupted
  · rw [skipOne_unmarked (nest_givenUpTo ..) hget hb hm, ← givenUp_unmarked hb hm, hset]
  · rw [skipOne_final (nest_givenUpTo ..) hget hb]
    have hsame : n.givenUpTo (j + 1) = n.givenUpTo j := by
      rw [← set_givenUpTo hx, givenUp_final hb]
      rw [← List.getElem?_eq_some_iff.1 hget |>.2, List.set_getElem_self]
    rw [State.givenUpTo, State.givenUpTo, hsame]

theorem skipOne_givenUpTo_issued {s : State} {k : Nat} (hx : n.parts[j]? = some x)
    (hb : x.burn = .pending ∨ x.burn = .interrupted) (hm : x.mark = .issued)
    (hr : (s.marks (zoneTable k)).issued = some ⟨zoneBed k, n.id, j⟩) : skipOne (s.givenUpTo k n j) k j =
      (s.setMarks (zoneTable k) ⟨none, some (⟨zoneBed k, n.id, j⟩, .withdrawn)⟩).givenUpTo k n (j + 1) := by
  have hset := setZone_givenUpTo s k hx
  rw [skipOne_issued (nest_givenUpTo ..) (getElem?_givenUpTo hx) hb hm hr, ← givenUp_issued hb hm, hset]
  rfl

/-- The parts given up in order, where the marks may change on the way. -/
theorem foldl_skipOne {k : Nat} (b : Nat → State)
    (h : ∀ j < n.parts.length, skipOne ((b j).givenUpTo k n j) k j = (b (j + 1)).givenUpTo k n (j + 1)) :
    skipAll ((b 0).givenUpTo k n 0) k n.parts.length = (b n.parts.length).givenUpTo k n n.parts.length := by
  suffices ∀ l ≤ n.parts.length, skipAll ((b 0).givenUpTo k n 0) k l = (b l).givenUpTo k n l from this _ le_rfl
  intro l hl
  induction l with
  | zero => rfl
  | succ l ih =>
    rw [← h l hl, ← ih (by omega)]
    simp only [skipAll, List.range_succ, List.foldl_append, List.foldl_cons, List.foldl_nil]

theorem givenUpTo_start {s : State} {k : Nat} (hc : Canonical s) (hn : (s.zone k).nest = some n) : s.givenUpTo k n 0 = s := by
  obtain ⟨-, -, ⟨-, hzones, -⟩, -⟩ := hc
  have hzone : ({ s.zone k with nest := some (n.givenUpTo 0) } : Zone) = s.zone k := by rw [givenUpTo_zero, ← hn]
  rw [State.givenUpTo, hzone, State.setZone, State.zone, bankSet_self _ hzones]

theorem skipAll_unmarked {s : State} {k : Nat} (hc : Canonical s) (hn : (s.zone k).nest = some n)
    (hm : ∀ x ∈ n.parts, x.mark ≠ .issued) : skipAll s k n.parts.length =
      s.setZone k { s.zone k with nest := some { n with parts := n.parts.map Part.givenUp } } := by
  have hall := foldl_skipOne (n := n) (k := k) (fun _ => s) fun j hj =>
    skipOne_givenUpTo s k (List.getElem?_eq_getElem hj) (hm _ (List.getElem_mem hj))
  rw [givenUpTo_start hc hn] at hall
  rw [hall, State.givenUpTo, givenUpTo_length]

theorem skipAll_issued {s : State} {k i : Nat} (hc : Canonical s) (hn : (s.zone k).nest = some n)
    (hx : n.parts[i]? = some x) (hm : x.mark = .issued) (hb : x.burn = .pending ∨ x.burn = .interrupted)
    (hr : (s.marks (zoneTable k)).issued = some ⟨zoneBed k, n.id, i⟩)
    (hother : ∀ j y, n.parts[j]? = some y → j ≠ i → y.mark ≠ .issued) : skipAll s k n.parts.length =
      (s.setZone k { s.zone k with nest := some { n with parts := n.parts.map Part.givenUp } }).setMarks (zoneTable k)
        ⟨none, some (⟨zoneBed k, n.id, i⟩, .withdrawn)⟩ := by
  let b (j : Nat) : State :=
    if i < j then s.setMarks (zoneTable k) ⟨none, some (⟨zoneBed k, n.id, i⟩, .withdrawn)⟩ else s
  have hi := (List.getElem?_eq_some_iff.1 hx).1
  have hall := foldl_skipOne (n := n) (k := k) b fun j hj => by
    obtain hlt | rfl | hgt := Nat.lt_trichotomy j i
    · simp only [b, if_neg (show ¬ i < j by omega), if_neg (show ¬ i < j + 1 by omega)]
      exact skipOne_givenUpTo _ k (List.getElem?_eq_getElem hj) (hother j _ (List.getElem?_eq_getElem hj) (by omega))
    · simp only [b, if_neg (lt_irrefl j), if_pos (Nat.lt_succ_self j)]
      exact skipOne_givenUpTo_issued hx hb hm hr
    · simp only [b, if_pos hgt, if_pos (show i < j + 1 by omega)]
      exact skipOne_givenUpTo _ k (List.getElem?_eq_getElem hj) (hother j _ (List.getElem?_eq_getElem hj) (by omega))
  simp only [b, if_neg (Nat.not_lt_zero i), if_pos hi] at hall
  rw [givenUpTo_start hc hn] at hall
  rw [hall, State.givenUpTo, givenUpTo_length]
  rfl

/-! ## The declarations at a close (R75) -/

theorem remnantOf_drawn (s : State) (p : Piece) (d : DeclArg) (k : Nat) (key : Key) :
    { remnantOf p d k with key := key, created := drawCreated s } = remnantAt s k key p.grade p.thickness d := by
  simp only [remnantOf, remnantAt, remnantMass_eq]

theorem createRemnants_created {s t : State} {p : Piece} {k : Nat} {d : Decl} {h : Handle} (ds : List Decl)
    (hd : createRemnant s p.key.heat (remnantOf p d.arg k) = (.ok h, t)) : createRemnants s p k (d :: ds) =
      ((createRemnants t p k ds).1, { d with outcome := some (.created h) } :: (createRemnants t p k ds).2) := by
  simp only [createRemnants, hd]

theorem createRemnants_refused {s t : State} {p : Piece} {k : Nat} {d : Decl} {e : Status} (ds : List Decl)
    (hd : createRemnant s p.key.heat (remnantOf p d.arg k) = (.error e, t)) : createRemnants s p k (d :: ds) =
      ((createRemnants (raise t (.table (zoneTable k)) .remnantLost) p k ds).1,
        { d with outcome := some (.refused e) } :: (createRemnants (raise t (.table (zoneTable k)) .remnantLost) p k ds).2) := by
  simp only [createRemnants, hd]

/-- Settles O29: the parts are given up in order, the issued mark withdrawn at its own part, then the nest closes. -/
theorem closeNestCloses : Obligations.CloseNestCloses := by
  unfold Obligations.CloseNestCloses
  refine ⟨fun s z k n p h => ?close, fun s p k i key d ds => ?remnants⟩
  case close =>
    intro c T
    have hnest := checkNest_holds h
    have hn := h.2
    refine ⟨fun hbad => .of_ans rfl ?_, fun hs hg hp hc => ?_⟩
    · simp only [closeNestAns, hnest]
      by_cases hs : n.state ≠ .active
      · exact if_pos hs
      · rw [if_neg hs]; exact if_pos (hbad.resolve_left hs)
    intro skip m u closes
    have hans : closeNestAns z n.id s = okWith (closeNest (skipAll s k n.parts.length) k)
        (nestRecord (closeNest (skipAll s k n.parts.length) k) k) := by
      simp only [closeNestAns, hnest, if_neg (not_not.2 hs), if_neg (show ¬ (s.burn (zoneTable k)).state = .granted from hg)]
    refine ⟨fun hm => ?_, fun i x hx hm hb hr hother => ?_⟩
    · refine ClosesTo.of_closeNest (u := u) (by simp [u]) hp ?_
      rw [← show skipAll s k n.parts.length = u from skipAll_unmarked hc hn hm, ← hans]
      rfl
    · refine ClosesTo.of_closeNest (by simp [u]) hp ?_
      rw [← show skipAll s k n.parts.length = u.setMarks T _ from skipAll_issued hc hn hx hm (.inl hb) hr hother, ← hans]
      rfl
  case remnants =>
    intro then' lost r
    refine ⟨rfl, fun hf => createRemnants_refused ds (createRemnant_full hf),
      fun hi hd => createRemnants_refused ds (createRemnant_noKey hi hd), fun hi hd => ⟨fun he => ?_, fun g hg => ?_⟩⟩
    · exact createRemnants_refused ds (createRemnant_directoryFull hi hd he)
    · have hok := createRemnant_ok (p := remnantOf p d.arg k) (z := k) rfl hi hd hg
      rw [remnantOf_drawn] at hok
      exact createRemnants_created ds hok

end Sys2Proof.Machine
end

section
/-! PROOFS. Marks: a zone cleared and read (R79, R81), and the mark station's requests (R85 to R90). -/

open Sys2Proof Sys2Proof.Machine

namespace Sys2Proof.Machine

/-- A station's unit is the one its request names. -/
theorem unit_matches (u : Nat) : (some u).any (· ≠ u) = false := by simp

theorem holdsNest_answering {s : State} {z : ZoneArg} {k : Nat} {n : Nest} (a : Nat) (h : s.holdsNest z k n) :
    (answering s a).holdsNest z k n := ⟨h.1, by simpa using h.2⟩

theorem names_answering {s : State} {h : Handle} {p : Piece} (a : Nat) (n : s.names h p) : (answering s a).names h p :=
  ⟨n.1, by simpa using n.2⟩

/-! ## Zones cleared and read -/

@[simp] theorem zoneView_answering (s : State) (a k : Nat) : zoneView (answering s a) k = zoneView s k := by
  obtain ⟨_, _, e, _⟩ := answering_blocks s a
  rw [e]; rfl

theorem nestSummary_eq (n : Nest) : nestSummary n =
    { id := n.id, plate := n.plate, state := n.state, parts := n.parts.length,
      burnt := (n.parts.filter fun p => p.burn = .burnt).length,
      skipped := (n.parts.filter fun p => p.burn = .skipped).length,
      notFinal := (n.parts.filter fun p => p.burn ≠ .burnt ∧ p.burn ≠ .skipped).length } := by
  have hfinal : ∀ p : Part, (!p.final) = decide (p.burn ≠ .burnt ∧ p.burn ≠ .skipped) := fun p => by
    cases h : p.burn <;> simp [Part.final, h]
  simp only [nestSummary, List.countP_eq_length_filter, hfinal]
  rfl

/-- Settles O30: ZONE_CLEARED by the phase of the zone, READ_ZONE from both kinds of sender, and the fields of the view. -/
theorem zoneIsClearedAndRead : Obligations.ZoneIsClearedAndRead := by
  unfold Obligations.ZoneIsClearedAndRead
  refine ⟨fun s a z k hs hz => ?cleared, fun s z a r u => ?read, fun s k => ?view⟩
  case cleared =>
    intro c u
    have hto : ∀ {st r t}, zoneClearedAns z u = ⟨t, st, r⟩ → StationAnswers c s a .zoneCleared st r t :=
      fun e => .of_ans rfl hs rfl (unit_matches _) e
    have hmode : u.ppn.mode = s.ppn.mode := ppn_mode_answering ..
    have hzone : u.zone k = s.zone k := zone_answering ..
    have hbed : u.bed k = s.bed k := bed_answering ..
    have hans : s.ppn.mode ≠ .cold → zoneClearedAns z u = match (s.zone k).phase with
        | .cut =>
          if (s.bed k).pieces.isEmpty then
            let s := u.setZone k { s.zone k with phase := .clear, nest := none }
            okWith s (.zone (zoneView s k))
          else ⟨u, .occupied, .zone (zoneView u k)⟩
        | .clear => okWith u (.zone (zoneView u k))
        | _ => ⟨u, .badState, .zone (zoneView u k)⟩ := fun hm => by
      rw [zoneClearedAns, if_neg (by rw [hmode]; exact hm)]
      simp only [hz, hzone, hbed] <;> rfl
    refine ⟨fun hm => hto (if_pos (by rw [hmode]; exact hm)), fun hm => ⟨fun hp hb => ?_, fun hp hb => hto ?_, fun hp => hto ?_,
      fun hp => hto ?_⟩⟩
    · intro t
      refine hto ?_
      rw [hans hm, hp, hb]; rfl
    · rw [hans hm, hp]
      exact if_neg (by simpa using hb)
    · rw [hans hm, hp]; rfl
    · rw [hans hm]
      obtain hp | hp | hp := hp <;> rw [hp]
  case read =>
    refine ⟨fun hz => .of_ans rfl ?_, fun k hz => .of_ans rfl ?_,
      fun k hz hs => .of_ans rfl hs (roleAllows_readZone r) rfl ?_⟩
    · simp only [readZoneAns, zoneArg?_none hz]; rfl
    · simp only [readZoneAns, hz]; rfl
    · simp only [readZoneAns, hz, zoneView_answering]; rfl
  case view =>
    intro b count
    refine ⟨?_, fun h l => ⟨rfl, fun hp => ?_, fun p hp => ?_⟩⟩
    · rw [zoneView, show nestSummary = _ from funext nestSummary_eq]; rfl
    · simp [bedEntries, hp]
    · simp [bedEntries, hp]

/-! ## NEXT_MARK (R85 to R87) -/

theorem nextMarkPart_some {n : Nest} {i : Nat} {p : Part} (hp : n.parts[i]? = some p) (hm : p.mark = .pending)
    (hb : p.burn = .pending)
    (hbefore : ∀ j q, j < i → n.parts[j]? = some q → ¬ (q.mark = .pending ∧ q.burn = .pending)) :
    nextMarkPart n = some i := by
  obtain ⟨hi, rfl⟩ := List.getElem?_eq_some_iff.1 hp
  refine List.findIdx?_eq_some_iff_getElem.2 ⟨hi, by simp [hm, hb], fun j hj => ?_⟩
  simpa using hbefore j _ hj (List.getElem?_eq_getElem (by omega))

theorem nextMarkPart_none {n : Nest} (h : ∀ q ∈ n.parts, ¬ (q.mark = .pending ∧ q.burn = .pending)) :
    nextMarkPart n = none :=
  List.findIdx?_eq_none_iff.2 fun q hq => by simpa using h q hq

theorem markView_eq {s : State} {t i : Nat} {bd : Bed} {n : Nest} {p : Part} (hn : (s.zone (zoneOf t bd)).nest = some n)
    (hp : n.parts[i]? = some p) : markView s t ⟨bd, n.id, i⟩ =
      .mark ⟨t, ⟨bd, n.id, i⟩, n.plate, p.text.getD [], p.x, p.y, p.markFailures⟩ := by simp [markView, hn, hp]

theorem markCounts_eq (bd : Bed) (n : Nest) : markCounts bd n =
    { bed := bd, nest := n.id, pending := (n.parts.filter fun p => p.mark = .pending).length,
      failed := (n.parts.filter fun p => p.mark = .failed).length,
      satisfied := (n.parts.filter fun p => p.mark = .marked ∨ p.mark = .waived ∨ p.mark = .notRequired).length } := by
  have hsat : ∀ p : Part, p.mark.satisfied = decide (p.mark = .marked ∨ p.mark = .waived ∨ p.mark = .notRequired) :=
    fun p => by cases h : p.mark <;> simp [MarkState.satisfied]
  simp only [markCounts, List.countP_eq_length_filter, hsat]
  rfl

/-- Settles O31: the issued mark repeated, else the first part pending in both, else NONE with the counts. -/
theorem nextMarkIssues : Obligations.NextMarkIssues := by
  unfold Obligations.NextMarkIssues
  intro s a t bd n hs c u k
  have hto : ∀ {st r v}, nextMarkAns t u = ⟨v, st, r⟩ → StationAnswers c s a .nextMark st r v :=
    fun e => .of_ans rfl hs rfl (unit_matches _) e
  have hmode : u.ppn.mode = s.ppn.mode := ppn_mode_answering ..
  have htable : u.table t = s.table t := table_answering ..
  have hzone : u.zone k = s.zone k := zone_answering ..
  have hmarks : u.marks t = s.marks t := marks_answering ..
  refine ⟨fun hm => hto ?_, fun hm => hto ?_, fun hm ha => hto ?_, fun hm ha hn => ?_⟩
  · simp only [nextMarkAns, hmode, hm]; rfl
  · simp only [nextMarkAns, hmode, hm]; rfl
  · simp only [nextMarkAns, hmode, hm, htable, ha]
  have hnu : (u.zone (zoneOf t bd)).nest = some n := by rw [show u.zone (zoneOf t bd) = s.zone k from hzone, hn]
  refine ⟨fun i p hi hp => hto ?_, fun i p hi hp hpm hpb hbefore => ?_, fun hi hnone => ?_⟩
  · simp only [nextMarkAns, hmode, hm, htable, ha, hmarks, hi, markView_eq hnu hp]; rfl
  · intro m
    refine hto ?_
    have hissue : issueMark u t ⟨bd, n.id, i⟩ =
        (u.setZone k { s.zone k with nest := some m }).setMarks t ⟨some ⟨bd, n.id, i⟩, none⟩ := by
      rw [issueMark, modPart_eq _ hnu hp, hzone]
    have hlen := (List.getElem?_eq_some_iff.1 hp).1
    have hview := markView_eq (s := (u.setZone k { s.zone k with nest := some m }).setMarks t ⟨some ⟨bd, n.id, i⟩, none⟩)
      (t := t) (bd := bd) (n := m) (i := i) (p := { p with mark := .issued }) (by simp [k]) (by simp [m, hlen])
    simp only [nextMarkAns, hmode, hm, htable, ha, hmarks, hi, chooseMark, hnu, nextMarkPart_some hp hpm hpb hbefore, hissue]
    rw [show (⟨bd, n.id, i⟩ : PartRef) = ⟨bd, m.id, i⟩ from rfl, hview]; rfl
  · intro count
    refine hto ?_
    simp only [nextMarkAns, hmode, hm, htable, ha, hmarks, hi, chooseMark, hnu, nextMarkPart_none hnone, markCounts_eq]
    rfl

/-! ## Mark reports (R88 to R90) -/

section Report

variable {s : State} {z : ZoneArg} {k i : Nat} {n : Nest} {p : Part} {e : IssueEnd} {take : State → Nat → PartRef → State}

theorem markReportRecord_eq (hn : (s.zone k).nest = some n) (hp : n.parts[i]? = some p) :
    markReportRecord s k i = .markReport ⟨i, p.text, p.x, p.y, p.mark, p.markFailures⟩ (s.marks (zoneTable k)) := by
  simp [markReportRecord, part?_eq hn, hp]

theorem markReport_cold (id : Nat) (hm : s.ppn.mode = .cold) : markReportAns z id i e take s = refuse s .wrongMode :=
  if_pos hm

theorem markReport_error {id : Nat} {st : Status} (hm : s.ppn.mode ≠ .cold) (h : checkNest s z id = .error st) :
    markReportAns z id i e take s = refuse s st := by simp only [markReportAns, if_neg hm, h]

theorem markReport_past (hm : s.ppn.mode ≠ .cold) (h : s.holdsNest z k n) (hi : n.parts.length ≤ i) :
    markReportAns z n.id i e take s = refuse s .range := by
  simp only [markReportAns, if_neg hm, checkNest_holds h, List.getElem?_eq_none hi]

/-- Case 4 of R88: the report of the issued mark. -/
theorem markReport_issued (hm : s.ppn.mode ≠ .cold) (h : s.holdsNest z k n) (hp : n.parts[i]? = some p)
    (hr : (s.marks (zoneTable k)).issued = some ⟨zoneBed k, n.id, i⟩) : markReportAns z n.id i e take s =
      okWith (take s k ⟨zoneBed k, n.id, i⟩) (markReportRecord (take s k ⟨zoneBed k, n.id, i⟩) k i) := by
  simp only [markReportAns, if_neg hm, checkNest_holds h, hp, if_pos hr]

/-- Cases 5 and 6 of R88: the part's ended issue. -/
theorem markReport_ended {x : IssueEnd} (hm : s.ppn.mode ≠ .cold) (h : s.holdsNest z k n) (hp : n.parts[i]? = some p)
    (hr : (s.marks (zoneTable k)).issued ≠ some ⟨zoneBed k, n.id, i⟩)
    (hx : (s.marks (zoneTable k)).ended = some (⟨zoneBed k, n.id, i⟩, x)) : markReportAns z n.id i e take s =
      if x = e then okWith s (markReportRecord s k i)
      else if x = .withdrawn then
        ⟨s.setMarks (zoneTable k) ⟨(s.marks (zoneTable k)).issued, none⟩, .cancelled,
          markReportRecord (s.setMarks (zoneTable k) ⟨(s.marks (zoneTable k)).issued, none⟩) k i⟩
      else ⟨s, .badState, markReportRecord s k i⟩ := by
  simp only [markReportAns, if_neg hm, checkNest_holds h, hp, if_neg hr, hx, if_neg (not_not.2 rfl)]

/-- Case 7 of R88: no ended issue of the part. -/
theorem markReport_other (hm : s.ppn.mode ≠ .cold) (h : s.holdsNest z k n) (hp : n.parts[i]? = some p)
    (hr : (s.marks (zoneTable k)).issued ≠ some ⟨zoneBed k, n.id, i⟩)
    (hx : ∀ x, (s.marks (zoneTable k)).ended ≠ some (⟨zoneBed k, n.id, i⟩, x)) : markReportAns z n.id i e take s =
      if e = .done ∧ p.mark = .marked then okWith s (markReportRecord s k i)
      else ⟨s, .badState, markReportRecord s k i⟩ := by
  simp only [markReportAns, if_neg hm, checkNest_holds h, hp, if_neg hr]
  cases he : (s.marks (zoneTable k)).ended with
  | none => rfl
  | some o =>
    obtain ⟨q, x⟩ := o
    exact if_pos fun hq => hx x (by rw [he, hq])

/-- The part amended and the issue ended, which every report of an issued mark does. -/
theorem markReport_record_ended {q : Part} (hp : n.parts[i]? = some p) (v : Zone) (m : Marks) :
    markReportRecord ((s.setZone k { v with nest := some { n with parts := n.parts.set i q } }).setMarks (zoneTable k) m) k i =
      .markReport ⟨i, q.text, q.x, q.y, q.mark, q.markFailures⟩ m := by
  rw [markReportRecord_eq (n := { n with parts := n.parts.set i q }) (p := q) (by simp)
    (by simp [(List.getElem?_eq_some_iff.1 hp).1])]
  simp

theorem takeMarkDone_eq (hn : (s.zone k).nest = some n) (hp : n.parts[i]? = some p) :
    takeMarkDone s k ⟨zoneBed k, n.id, i⟩ =
      (s.setZone k { s.zone k with nest := some { n with parts := n.parts.set i { p with mark := .marked } } }).setMarks
        (zoneTable k) ⟨none, some (⟨zoneBed k, n.id, i⟩, .done)⟩ := by
  simp only [takeMarkDone, modPart_eq _ hn hp]

/-- The first failure makes the mark PENDING again, the second FAILED with the notice raised (R90). -/
theorem takeMarkFailed_eq (hn : (s.zone k).nest = some n) (hp : n.parts[i]? = some p) :
    takeMarkFailed s k ⟨zoneBed k, n.id, i⟩ =
      let t := (s.setZone k { s.zone k with nest := some { n with parts := n.parts.set i { p with
          markFailures := satInc 2 p.markFailures, mark := if 1 ≤ p.markFailures then .failed else .pending } } }).setMarks
        (zoneTable k) ⟨none, some (⟨zoneBed k, n.id, i⟩, .failed)⟩
      if 1 ≤ p.markFailures then raise t (.table (zoneTable k)) .markFailed else t := by
  simp only [takeMarkFailed, modPart_eq _ hn hp, part?_eq hn, hp, Option.any_some, decide_eq_true_eq]

end Report

/-- Settles O32: a report sorted by the cases of R88; of the issued mark it ends the issue, else it tells of the ended one. -/
theorem markReportsAreTaken : Obligations.MarkReportsAreTaken := by
  unfold Obligations.MarkReportsAreTaken
  have hdone : ∀ {s : State} {a : Nat} {z : ZoneArg} {id i : Nat} {st : Status} {r : ReplyRecord} {t : State},
      s.serves a .mark z.table → markReportAns z id i .done takeMarkDone (answering s a) = ⟨t, st, r⟩ →
        StationAnswers (.markDone z id i) s a .markDone st r t := fun hs e => .of_ans rfl hs rfl (unit_matches _) e
  have hfailed : ∀ {s : State} {a : Nat} {z : ZoneArg} {id i : Nat} {st : Status} {r : ReplyRecord} {t : State},
      s.serves a .mark z.table → markReportAns z id i .failed takeMarkFailed (answering s a) = ⟨t, st, r⟩ →
        StationAnswers (.markFailed z id i) s a .markFailed st r t := fun hs e => .of_ans rfl hs rfl (unit_matches _) e
  refine ⟨fun s a z id i hs => ?refused, fun s a z k i n p hs h hp hm => ?issued, fun s a z k i n p hs h hp hm => ?other⟩
  case refused =>
    intro both
    refine ⟨fun hm => ⟨hdone hs (markReport_cold id (by simpa using hm)), hfailed hs (markReport_cold id (by simpa using hm))⟩,
      fun hm hz => ?_, fun hm k hz => ⟨fun hn => ?_, fun n hn hid hi => ?_⟩⟩
    all_goals have hm' : (answering s a).ppn.mode ≠ .cold := by simpa using hm
    · exact ⟨hdone hs (markReport_error hm' (checkNest_range id hz)), hfailed hs (markReport_error hm' (checkNest_range id hz))⟩
    · have hnest : checkNest (answering s a) z id = .error .notFound := checkNest_notFound hz (by simpa using hn)
      exact ⟨hdone hs (markReport_error hm' hnest), hfailed hs (markReport_error hm' hnest)⟩
    · subst hid
      have hu := holdsNest_answering a (show s.holdsNest z k n from ⟨hz, hn⟩)
      exact ⟨hdone hs (markReport_past hm' hu hi), hfailed hs (markReport_past hm' hu hi)⟩
  case issued =>
    intro T r hr u ends shows done once twice
    have hm' : u.ppn.mode ≠ .cold := by simpa [u] using hm
    have hu : u.holdsNest z k n := holdsNest_answering a h
    have hr' : (u.marks (zoneTable k)).issued = some ⟨zoneBed k, n.id, i⟩ := by simpa [u] using hr
    have hzone : u.zone k = s.zone k := zone_answering ..
    have hrecord : ∀ q e, markReportRecord (ends q e) k i = shows q e := fun q e => markReport_record_ended hp _ _
    have hends : takeMarkDone u k ⟨zoneBed k, n.id, i⟩ = ends done .done := by rw [takeMarkDone_eq hu.2 hp, hzone]
    have hfail := takeMarkFailed_eq hu.2 hp
    rw [hzone] at hfail
    refine ⟨hdone hs ?_, fun h0 => hfailed hs ?_, fun h1 => hfailed hs ?_⟩
    · rw [markReport_issued hm' hu hp hr', hends, hrecord]; rfl
    · rw [h0] at hfail
      rw [markReport_issued hm' hu hp hr', show takeMarkFailed u k ⟨zoneBed k, n.id, i⟩ = ends once .failed from hfail, hrecord]
      rfl
    · rw [h1] at hfail
      rw [markReport_issued hm' hu hp hr',
        show takeMarkFailed u k ⟨zoneBed k, n.id, i⟩ = raise (ends twice .failed) (.table T) .markFailed from hfail]
      exact congrArg (okWith _) (hrecord twice .failed)
  case other =>
    intro T r u shows done failed dropped hr
    have hm' : u.ppn.mode ≠ .cold := by simpa [u] using hm
    have hu : u.holdsNest z k n := holdsNest_answering a h
    have hmarks : u.marks (zoneTable k) = s.marks (zoneTable k) := marks_answering ..
    have hr' : (u.marks (zoneTable k)).issued ≠ some ⟨zoneBed k, n.id, i⟩ := by rw [hmarks]; exact hr
    have hrecord : markReportRecord u k i = shows (s.marks T) := by rw [markReportRecord_eq hu.2 hp, hmarks]
    have hdropped : markReportRecord (u.setMarks (zoneTable k) ⟨(u.marks (zoneTable k)).issued, none⟩) k i = shows dropped := by
      rw [markReportRecord_eq (n := n) (p := p) (by simpa using hu.2) hp, State.marks_setMarks, if_pos rfl, hmarks]
    refine ⟨fun x hx => ?_, fun hx => ⟨fun hmk => hdone hs ?_, fun hmk => hdone hs ?_, hfailed hs ?_⟩⟩
    · have hx' : (u.marks (zoneTable k)).ended = some (⟨zoneBed k, n.id, i⟩, x) := by rw [hmarks]; exact hx
      have hend : ∀ e take, _ := fun e take => markReport_ended (e := e) (take := take) hm' hu hp hr' hx'
      refine ⟨?_, ?_, ?_⟩ <;> rintro rfl <;> refine ⟨hdone hs ?_, hfailed hs ?_⟩ <;> rw [hend]
      · rw [if_pos rfl, hrecord]; rfl
      · rw [if_neg (by decide), if_neg (by decide), hrecord]
      · rw [if_neg (by decide), if_neg (by decide), hrecord]
      · rw [if_pos rfl, hrecord]; rfl
      · rw [if_neg (by decide), if_pos rfl, hdropped, hmarks]
      · rw [if_neg (by decide), if_pos rfl, hdropped, hmarks]
    all_goals
      have hx' : ∀ x, (u.marks (zoneTable k)).ended ≠ some (⟨zoneBed k, n.id, i⟩, x) := fun x => by rw [hmarks]; exact hx x
      rw [markReport_other hm' hu hp hr' hx']
    · rw [if_pos ⟨rfl, hmk⟩, hrecord]; rfl
    · rw [if_neg fun hc => hmk hc.2, hrecord]
    · rw [if_neg (fun hc => nomatch hc.1), hrecord]

end Sys2Proof.Machine
end

section
/-! PROOFS. Burns: NEXT_BURN and the burn station's reports (R97 to R102, R111). -/

open Sys2Proof Sys2Proof.Machine

namespace Sys2Proof.Machine

/-! ## The torch of a table, and the parts in order -/

/-- Which torch is mounted follows from the mounted tables alone. -/
theorem mountedTorch_congr {s u : State} (t : Nat) (h : ∀ n, (u.torch n).mounted = (s.torch n).mounted) :
    mountedTorch u t = mountedTorch s t := by simp [mountedTorch, h]

theorem findIdx?_first {l : List Part} {f : Part → Bool} {i : Nat} {p : Part} (hp : l[i]? = some p) (hf : f p = true)
    (hbefore : ∀ j q, j < i → l[j]? = some q → ¬ f q = true) : l.findIdx? f = some i := by
  obtain ⟨hi, rfl⟩ := List.getElem?_eq_some_iff.1 hp
  exact List.findIdx?_eq_some_iff_getElem.2 ⟨hi, hf, fun j hj => hbefore j _ hj (List.getElem?_eq_getElem (by omega))⟩

theorem findIdx?_nowhere {l : List Part} {f : Part → Bool} (h : ∀ q ∈ l, ¬ f q = true) : l.findIdx? f = none :=
  List.findIdx?_eq_none_iff.2 fun q hq => by simpa using h q hq

theorem satisfied_iff {m : MarkState} : m.satisfied = true ↔ m = .marked ∨ m = .waived ∨ m = .notRequired := by
  cases m <;> simp [MarkState.satisfied]

theorem not_satisfied_iff {m : MarkState} : ¬ m.satisfied = true ↔ m = .pending ∨ m = .issued ∨ m = .failed := by
  cases m <;> simp [MarkState.satisfied]

/-! ## NEXT_BURN -/

@[simp] theorem zone_evaluateGrant (s : State) (j : Nat) : (evaluateGrant s).zone j = s.zone j := by
  simp only [State.zone, tbc_evaluateGrant]

@[simp] theorem torch_evaluateGrant (s : State) (j : Nat) : (evaluateGrant s).torch j = s.torch j := by
  simp only [State.torch, bsv_evaluateGrant]

section NextBurn

variable {s : State} {t m i : Nat} {bd : Bed} {n : Nest} {p : Part}

theorem grantRecord_eq {g : Grant} (hg : (s.burn t).grant = some g) (hn : (s.zone (zoneOf t g.ref.bed)).nest = some n)
    (hp : n.parts[g.ref.part]? = some p) (hm : mountedTorch s t = some m) : grantRecord s t =
      .grant ⟨t, g.ref, n.plate, g.resumed, p.starts, p.arcTime, some (s.torch m).id, some (s.torch m).wear⟩ := by
  simp [grantRecord, hg, PartRef.zone, hn, hp, hm]

/-- The state with the grant of part `i`, before the travel permissives are evaluated (R99). -/
def granting (s : State) (t i : Nat) (bd : Bed) (n : Nest) (p : Part) (resumed : Bool) : State :=
  ((s.setZone (zoneOf t bd) { s.zone (zoneOf t bd) with
      nest := some { n with parts := n.parts.set i { p with burn := .burning, failedPierces := 0 } } }).setBurn t
    ⟨.granted, some ⟨⟨bd, n.id, i⟩, 0, s.bsv.pierceMin, s.bsv.burnLimit, resumed⟩, none, true⟩).setGrantHeld
    (zoneOf t bd) true

theorem makeGrant_eq (resumed : Bool) (hn : (s.zone (zoneOf t bd)).nest = some n) (hp : n.parts[i]? = some p) :
    makeGrant s t ⟨bd, n.id, i⟩ resumed = evaluateGrant (granting s t i bd n p resumed) := by
  simp only [makeGrant, PartRef.zone, modPart_eq _ hn hp]
  rfl

theorem grantPart_eq (resumed : Bool) (hn : (s.zone (zoneOf t bd)).nest = some n) (hp : n.parts[i]? = some p)
    (hm : mountedTorch s t = some m) : grantPart s t ⟨bd, n.id, i⟩ resumed =
      okWith (evaluateGrant (granting s t i bd n p resumed)) (.grant ⟨t, ⟨bd, n.id, i⟩, n.plate, resumed, p.starts, p.arcTime,
        some (s.torch m).id, some (s.torch m).wear⟩) := by
  have hlen := (List.getElem?_eq_some_iff.1 hp).1
  have hburn : ((evaluateGrant (granting s t i bd n p resumed)).burn t).grant =
      some ⟨⟨bd, n.id, i⟩, 0, s.bsv.pierceMin, s.bsv.burnLimit, resumed⟩ := by simp [granting]
  have hnest : ((evaluateGrant (granting s t i bd n p resumed)).zone (zoneOf t bd)).nest =
      some { n with parts := n.parts.set i { p with burn := .burning, failedPierces := 0 } } := by
    simp [granting]
  have htorch : ∀ j, (evaluateGrant (granting s t i bd n p resumed)).torch j = s.torch j := fun j => by
    simp [granting]
  have hmount : mountedTorch (evaluateGrant (granting s t i bd n p resumed)) t = some m :=
    (mountedTorch_congr t fun j => by rw [htorch]).trans hm
  rw [grantPart, makeGrant_eq resumed hn hp, grantRecord_eq (p := { p with burn := .burning, failedPierces := 0 }) hburn hnest
    (by simp [hlen]) hmount, htorch]

theorem chooseBurn_resumes (hn : (s.zone (zoneOf t bd)).nest = some n) (hp : n.parts[i]? = some p)
    (hb : p.burn = .interrupted) (hbefore : ∀ j q, j < i → n.parts[j]? = some q → q.burn ≠ .interrupted) :
    chooseBurn s t bd = grantPart s t ⟨bd, n.id, i⟩ true := by
  have hfirst : (n.parts.findIdx? fun p => p.burn == .interrupted) = some i :=
    findIdx?_first hp (by simp [hb]) (by simpa using hbefore)
  simp only [chooseBurn, hn, hfirst]

theorem chooseBurn_fresh (hn : (s.zone (zoneOf t bd)).nest = some n) (hnone : ∀ q ∈ n.parts, q.burn ≠ .interrupted)
    (hp : n.parts[i]? = some p) (hb : p.burn = .pending)
    (hbefore : ∀ j q, j < i → n.parts[j]? = some q → q.burn ≠ .pending) : chooseBurn s t bd =
      if p.mark.satisfied then grantPart s t ⟨bd, n.id, i⟩ false else ⟨s, .waitMark, .burnWait t i p.mark⟩ := by
  have hresume : (n.parts.findIdx? fun p => p.burn == .interrupted) = none := findIdx?_nowhere (by simpa using hnone)
  have hfirst : (n.parts.findIdx? fun p => p.burn == .pending) = some i :=
    findIdx?_first hp (by simp [hb]) (by simpa using hbefore)
  simp only [chooseBurn, hn, hresume, hfirst, hp]

theorem chooseBurn_none (hn : (s.zone (zoneOf t bd)).nest = some n) (hnone : ∀ q ∈ n.parts, q.burn ≠ .interrupted)
    (hpend : ∀ q ∈ n.parts, q.burn ≠ .pending) : chooseBurn s t bd = ⟨s, .none, .burnRefused t⟩ := by
  have hresume : (n.parts.findIdx? fun p => p.burn == .interrupted) = none := findIdx?_nowhere (by simpa using hnone)
  have hfirst : (n.parts.findIdx? fun p => p.burn == .pending) = none := findIdx?_nowhere (by simpa using hpend)
  simp only [chooseBurn, hn, hresume, hfirst]

/-- An idle table of an open hall: the monitor, the active zone, then the torch (R98 cases 5 to 10). -/
theorem nextBurnAns_idle (hm : s.ppn.mode = .opened) (hi : (s.burn t).state = .idle) : nextBurnAns t s =
    if (s.monitor t).state ≠ .off then ⟨s, .busy, .burnRefused t⟩
    else match (s.table t).active with
      | none => ⟨s, .none, .burnRefused t⟩
      | some bed => nextBurnActive s t bed := by
  simp only [nextBurnAns, hm, hi, reduceCtorEq, if_false] <;> rfl

theorem torchRefusal_eq (h : mountedTorch s t = some m) :
    torchRefusal s t = .burnTorch t (some ((s.torch m).id, (s.torch m).state, (s.torch m).wear)) := by
  simp [torchRefusal, h]

theorem nextBurnActive_usable (h : mountedTorch s t = some m) (hs : (s.torch m).state = .spare ∨ (s.torch m).state = .inService) :
    nextBurnActive s t bd =
      if s.intruded (zoneOf t bd) then ⟨s, .zoneHeld, .burnHeld t s.rsu.latest.seq⟩ else chooseBurn s t bd := by
  obtain hs | hs := hs <;> simp only [nextBurnActive, h, Option.map_some, hs]

theorem intruded_iff {z : Nat} : s.intruded z = true ↔ s.intruders z ≠ [] := by simp [State.intruded]

end NextBurn

theorem granting_answering (s : State) (a t i : Nat) (bd : Bed) (n : Nest) (p : Part) (resumed : Bool) :
    granting (answering s a) t i bd n p resumed =
      (((answering s a).setZone (zoneOf t bd) { s.zone (zoneOf t bd) with
          nest := some { n with parts := n.parts.set i { p with burn := .burning, failedPierces := 0 } } }).setBurn t
        ⟨.granted, some ⟨⟨bd, n.id, i⟩, 0, s.bsv.pierceMin, s.bsv.burnLimit, resumed⟩, none, true⟩).setGrantHeld
        (zoneOf t bd) true := by
  rw [granting, zone_answering, bsv_answering]

/-- Settles O33: the refusals in order, then the interrupted part, the first pending part, or none. -/
theorem nextBurnGrants : Obligations.NextBurnGrants := by
  unfold Obligations.NextBurnGrants
  have hto : ∀ {s : State} {a t : Nat} {st : Status} {r : ReplyRecord} {v : State}, s.serves a .burn t →
      nextBurnAns t (answering s a) = ⟨v, st, r⟩ → StationAnswers (.nextBurn t) s a .nextBurn st r v :=
    fun hs e => .of_ans rfl hs rfl (unit_matches _) e
  refine ⟨fun s a t hs => ?refused, fun s a t m bd n hs hm => ?grants⟩
  case refused =>
    intro no
    have hmode : (answering s a).ppn.mode = s.ppn.mode := ppn_mode_answering ..
    have hburn : (answering s a).burn t = s.burn t := burn_answering ..
    have hmon : (answering s a).monitor t = s.monitor t := monitor_answering ..
    refine ⟨fun hm => hto hs ?_, fun hm => hto hs ?_, fun hm hb => hto hs ?_, fun hm hb => ⟨fun ho => hto hs ?_,
      fun ho ha => hto hs ?_, fun bd ho ha => ⟨fun hno => hto hs ?_, fun m ht => ?_⟩⟩⟩
    · exact if_pos (by rw [hmode, hm])
    · simp [nextBurnAns, hm]
    · simp [nextBurnAns, hm, hburn, hb]
    all_goals
      have hidle := nextBurnAns_idle (t := t) (hmode.trans hm) (by rw [hburn, hb])
      rw [hmon] at hidle
    · rw [hidle, if_pos ho]
    all_goals rw [if_neg (not_not.2 ho), table_answering, ha] at hidle
    · exact hidle
    · simp [hidle, nextBurnActive, hno, torchRefusal]
    intro shows
    have hrefusal : torchRefusal (answering s a) t = shows := by
      rw [torchRefusal_eq (m := m) (by simpa using ht), torch_answering]
    refine ⟨fun hst => hto hs ?_, fun hst => hto hs ?_, fun hst hin => hto hs ?_⟩
    · simp [hidle, nextBurnActive, ht, hst, hrefusal]
    · simp [hidle, nextBurnActive, ht, hst, hrefusal]
    · simp only [hidle]
      rw [nextBurnActive_usable (m := m) (by simpa using ht) (by simpa using hst), if_pos (intruded_iff.2 (by simpa using hin)),
        rsu_answering]
  case grants =>
    intro c u k shows grants hn hmt
    have hmode : u.ppn.mode = .opened := (ppn_mode_answering ..).trans hm
    have hnu : (u.zone (zoneOf t bd)).nest = some n := by rw [zone_answering]; exact hn
    have hmu : mountedTorch u t = some m := (mountedTorch_answering' ..).trans hmt
    have hburn : u.burn t = s.burn t := burn_answering ..
    refine ⟨fun hg i p g hgr href hp => hto hs ?_, fun hi ho ha hst hno => ?_⟩
    · have hrec := grantRecord_eq (s := u) (t := t) (g := g) (n := n) (p := p) (m := m) (by rw [hburn, hgr])
        (by rw [href]; exact hnu) (by rw [href]; exact hp) hmu
      rw [href, torch_answering] at hrec
      show nextBurnAns t u = _
      simp only [nextBurnAns, hmode, hburn, hg, reduceCtorEq, if_false, if_true, hrec]
      rfl
    have hchoose : nextBurnAns t u = chooseBurn u t bd := by
      rw [nextBurnAns_idle hmode (by rw [hburn, hi]), monitor_answering, if_neg (not_not.2 ho), table_answering, ha]
      show nextBurnActive u t bd = _
      rw [nextBurnActive_usable hmu (by rw [torch_answering]; exact hst),
        if_neg (mt intruded_iff.1 (by rw [intruders_answering]; exact not_not.2 hno))]
    have hgrant : ∀ i p resumed, n.parts[i]? = some p → grantPart u t ⟨bd, n.id, i⟩ resumed =
        okWith (evaluateGrant (granting u t i bd n p resumed)) (shows i p resumed) := fun i p resumed hp => by
      rw [grantPart_eq resumed hnu hp hmu, torch_answering]
    have hgrants : ∀ i p resumed, n.parts[i]? = some p → chooseBurn u t bd = grantPart u t ⟨bd, n.id, i⟩ resumed →
        grants i p resumed := fun i p resumed hp e => hto hs (by
      rw [show nextBurnAns t (answering s a) = _ from hchoose, e, hgrant i p resumed hp, granting_answering]; rfl)
    refine ⟨fun i p hp hb hbefore => hgrants i p true hp (chooseBurn_resumes hnu hp hb hbefore), fun hnone =>
      ⟨fun i p hp hb hbefore => ⟨fun hk => hgrants i p false hp ?_, fun hk => hto hs ?_⟩, fun hpend => hto hs ?_⟩⟩
    · rw [chooseBurn_fresh hnu hnone hp hb hbefore, if_pos (satisfied_iff.2 hk)]
    · rw [show nextBurnAns t (answering s a) = _ from hchoose, chooseBurn_fresh hnu hnone hp hb hbefore,
        if_neg (not_satisfied_iff.2 hk)]
    · rw [show nextBurnAns t (answering s a) = _ from hchoose, chooseBurn_none hnu hnone hpend]

end Sys2Proof.Machine
end

section
/-! PROOFS. Reports: BURN_DONE and BURN_ABANDON, and what a grant's end leaves (R100 to R103, R111). -/

open Sys2Proof Sys2Proof.Machine

namespace Sys2Proof.Machine

/-! ## The end of a grant -/

/-- What the end of the grant `g` leaves of table `t` (R97, R111). -/
def grantEnded (s : State) (t : Nat) (g : Grant) (e : GrantEnd) : State :=
  let u := (s.setBurn t ⟨.idle, none, some (g.ref, e), false⟩).setGrantHeld (zoneOf t g.ref.bed) false
  if (s.monitor t).state = .off then u else u.setMonitor t { s.monitor t with state := .cutting, stuck := true }

theorem endGrant_eq (s : State) (t : Nat) (g : Grant) (e : GrantEnd) : endGrant s t g e = grantEnded s t g e := rfl

@[simp] theorem zone_grantEnded (s : State) (t j : Nat) (g : Grant) (e : GrantEnd) :
    (grantEnded s t g e).zone j = s.zone j := by unfold grantEnded; dsimp only; split <;> simp

@[simp] theorem burn_grantEnded (s : State) (t : Nat) (g : Grant) (e : GrantEnd) :
    (grantEnded s t g e).burn t = ⟨.idle, none, some (g.ref, e), false⟩ := by unfold grantEnded; dsimp only; split <;> simp

@[simp] theorem record_grantEnded (s : State) (t j : Nat) (g : Grant) (e : GrantEnd) :
    (grantEnded s t g e).record j = s.record j := by unfold grantEnded; dsimp only; split <;> simp

/-! ## Burn reports (R100) -/

section Report

variable {s : State} {z : ZoneArg} {k i : Nat} {n : Nest} {p : Part} {done : Bool} {take : State → Nat → Grant → State}

theorem burnReportRecord_eq (hn : (s.zone k).nest = some n) (hp : n.parts[i]? = some p) : burnReportRecord s k i =
    .burnReport ⟨i, p.burn, p.starts, p.arcTime, p.failedPierces, n.state, (s.burn (zoneTable k)).state,
      (s.burn (zoneTable k)).grant, (s.burn (zoneTable k)).ended⟩ := by simp [burnReportRecord, hn, hp]

theorem burnReport_cold (id : Nat) (hm : s.ppn.mode = .cold) : burnReportAns z id i done take s = refuse s .wrongMode :=
  if_pos hm

theorem burnReport_error {id : Nat} {st : Status} (hm : s.ppn.mode ≠ .cold) (h : checkNest s z id = .error st) :
    burnReportAns z id i done take s = refuse s st := by simp only [burnReportAns, if_neg hm, h]

theorem burnReport_past (hm : s.ppn.mode ≠ .cold) (h : s.holdsNest z k n) (hi : n.parts.length ≤ i) :
    burnReportAns z n.id i done take s = refuse s .range := by
  simp only [burnReportAns, if_neg hm, checkNest_holds h, List.getElem?_eq_none hi]

/-- Case 4 of R100: the report of the part the grant names. -/
theorem burnReport_granted {g : Grant} (hm : s.ppn.mode ≠ .cold) (h : s.holdsNest z k n) (hp : n.parts[i]? = some p)
    (hg : (s.burn (zoneTable k)).grant = some g) (hr : g.ref = ⟨zoneBed k, n.id, i⟩) :
    burnReportAns z n.id i done take s = okWith (take s k g) (burnReportRecord (take s k g) k i) := by
  simp only [burnReportAns, if_neg hm, checkNest_holds h, hp, hg, Option.filter_some, hr, decide_true, if_true]

/-- Cases 5 to 8 of R100: a report without the grant. -/
theorem burnReport_ungranted (hm : s.ppn.mode ≠ .cold) (h : s.holdsNest z k n) (hp : n.parts[i]? = some p)
    (hg : ∀ g, (s.burn (zoneTable k)).grant = some g → g.ref ≠ ⟨zoneBed k, n.id, i⟩) (b : Burn)
    (hb : s.burn (zoneTable k) = b) : burnReportAns z n.id i done take s =
      ⟨s, match b.ended.filter fun e => e.1 = (⟨zoneBed k, n.id, i⟩ : PartRef) with
        | some e => endedAnswer done e.2
        | none => partAnswer done p.burn, burnReportRecord s k i⟩ := by
  have hfilter : (s.burn (zoneTable k)).grant.filter (fun g => g.ref = (⟨zoneBed k, n.id, i⟩ : PartRef)) = none :=
    Option.filter_eq_none_iff.2 fun g e => by simpa using hg g e
  simp only [burnReportAns, if_neg hm, checkNest_holds h, hp, hfilter]
  rw [hb]
  cases b.ended.filter fun e => e.1 = (⟨zoneBed k, n.id, i⟩ : PartRef) <;> rfl

end Report

/-- Settles O34: a report of the granted part ends the grant, and a BURN_DONE of the last open part closes the nest; any
other is answered from the ended grant or the part. -/
theorem burnReportsAreTaken : Obligations.BurnReportsAreTaken := by
  unfold Obligations.BurnReportsAreTaken
  have hdone : ∀ {s : State} {a : Nat} {z : ZoneArg} {id i : Nat} {st : Status} {r : ReplyRecord} {t : State},
      s.serves a .burn z.table → burnReportAns z id i true takeBurnDone (answering s a) = ⟨t, st, r⟩ →
        StationAnswers (.burnDone z id i) s a .burnDone st r t := fun hs e => .of_ans rfl hs rfl (unit_matches _) e
  have habandon : ∀ {s : State} {a : Nat} {z : ZoneArg} {id i : Nat} {st : Status} {r : ReplyRecord} {t : State},
      s.serves a .burn z.table → burnReportAns z id i false takeBurnAbandon (answering s a) = ⟨t, st, r⟩ →
        StationAnswers (.burnAbandon z id i) s a .burnAbandon st r t := fun hs e => .of_ans rfl hs rfl (unit_matches _) e
  refine ⟨fun s a z id i hs => ?refused, fun s a z k i j n p q g hs h hp hm => ?granted,
    fun s a z k i n p hs h hp hm => ?ungranted⟩
  case refused =>
    intro both
    refine ⟨fun hm => ⟨hdone hs (burnReport_cold id (by simpa using hm)), habandon hs (burnReport_cold id (by simpa using hm))⟩,
      fun hm hz => ?_, fun hm k hz => ⟨fun hn => ?_, fun n hn hid hi => ?_⟩⟩
    all_goals have hm' : (answering s a).ppn.mode ≠ .cold := by simpa using hm
    · exact ⟨hdone hs (burnReport_error hm' (checkNest_range id hz)), habandon hs (burnReport_error hm' (checkNest_range id hz))⟩
    · have hnest : checkNest (answering s a) z id = .error .notFound := checkNest_notFound hz (by simpa using hn)
      exact ⟨hdone hs (burnReport_error hm' hnest), habandon hs (burnReport_error hm' hnest)⟩
    · subst hid
      have hu := holdsNest_answering a (show s.holdsNest z k n from ⟨hz, hn⟩)
      exact ⟨hdone hs (burnReport_past hm' hu hi), habandon hs (burnReport_past hm' hu hi)⟩
  case granted =>
    intro T r hg hr u ends shows burnt cut
    have hm' : u.ppn.mode ≠ .cold := by simpa [u] using hm
    have hu : u.holdsNest z k n := holdsNest_answering a h
    have hg' : (u.burn (zoneTable k)).grant = some g := by simpa [u] using hg
    have hlen := (List.getElem?_eq_some_iff.1 hp).1
    have hpart : g.ref.part = i := by rw [hr]
    have hends : ∀ x e, endGrant (u.setZone k { u.zone k with nest := some { n with parts := n.parts.set i x } }) T g e =
        ends x e := fun x e => by
      rw [endGrant_eq, grantEnded, hr, show zoneOf T (⟨zoneBed k, n.id, i⟩ : PartRef).bed = k from zoneOf_zoneBed k]
      simp only [State.monitor_setZone, show u.monitor T = s.monitor T from monitor_answering ..,
        show u.zone k = s.zone k from zone_answering ..]
      rfl
    have hnest : ∀ x e, ((ends x e).zone k).nest = some { n with parts := n.parts.set i x } := fun x e => by
      rw [← hends, endGrant_eq, zone_grantEnded]; simp
    have hburn : ∀ x e, (ends x e).burn T = ⟨.idle, none, some (r, e), false⟩ := fun x e => by
      rw [← hends, endGrant_eq, burn_grantEnded, hr]
    have hrecord : ∀ x e, burnReportRecord (ends x e) k i = shows x e := fun x e => by
      rw [burnReportRecord_eq (p := x) (hnest x e) (by simp [hlen]), show zoneTable k = T from rfl, hburn]
    have htake : takeBurnDone u k g = closeIfFinal (ends burnt .done) k := by
      rw [← hends, takeBurnDone, hpart, modPart_eq _ hu.2 hp]
    have hans := burnReport_granted (done := true) (take := takeBurnDone) hm' hu hp hg' hr
    rw [htake] at hans
    refine ⟨fun hopen => hdone hs ?_, fun v hact hv hothers => ?_, habandon hs ?_⟩
    · have hstands : closeIfFinal (ends burnt .done) k = ends burnt .done := by
        obtain hact | ⟨hq, hne, hf⟩ := hopen
        · exact closeIfFinal_inactive (hnest ..) hact
        · exact closeIfFinal_stands (hnest ..) (mem_set_of_ne hq hne) hf
      rw [hstands, hrecord] at hans
      exact hans
    · have hclose : closeIfFinal (ends burnt .done) k = closeNest (ends burnt .done) k :=
        closeIfFinal_of_final (hnest ..) hact (final_of_set rfl hothers)
          (by rw [show zoneTable k = T from rfl, hburn])
      rw [hclose] at hans
      have hrec : ∀ j, (ends burnt .done).record j = s.record j := fun j => by
        rw [← hends, endGrant_eq, record_grantEnded]; simp [u]
      refine ClosesTo.of_tells (hnest ..) ⟨hv.1, by rw [hrec]; exact hv.2⟩ fun t ht hmt => hdone hs ?_
      have hbt : t.burn (zoneTable k) = ⟨.idle, none, some (r, .done), false⟩ := by
        rw [← ht, State.burn, bsv_closeNest]; exact hburn burnt .done
      rw [show burnReportAns z n.id i true takeBurnDone (answering s a) = _ from hans, ht,
        burnReportRecord_eq (p := burnt) hmt (by simp [closedNest, hlen]), hbt]
      rfl
    · have htook : takeBurnAbandon u k g = ends cut .abandoned := by
        rw [← hends, takeBurnAbandon, hpart, modPart_eq _ hu.2 hp]
      have hab := burnReport_granted (done := false) (take := takeBurnAbandon) hm' hu hp hg' hr
      rw [htook, hrecord] at hab
      exact hab
  case ungranted =>
    intro B r shows done abandon hg
    have hm' : (answering s a).ppn.mode ≠ .cold := by simpa using hm
    have hu : (answering s a).holdsNest z k n := holdsNest_answering a h
    have hburn : (answering s a).burn (zoneTable k) = B := burn_answering ..
    have hg' : ∀ g, ((answering s a).burn (zoneTable k)).grant = some g → g.ref ≠ ⟨zoneBed k, n.id, i⟩ := by
      rw [hburn]; exact hg
    have hrecord : burnReportRecord (answering s a) k i = shows := by rw [burnReportRecord_eq hu.2 hp, hburn]
    have hd := burnReport_ungranted (done := true) (take := takeBurnDone) hm' hu hp hg' B hburn
    have hab := burnReport_ungranted (done := false) (take := takeBurnAbandon) hm' hu hp hg' B hburn
    rw [hrecord] at hd hab
    refine ⟨fun e he => ?_, fun he => ?_⟩
    · have hf : (B.ended.filter fun x => x.1 = (⟨zoneBed k, n.id, i⟩ : PartRef)) = some (r, e) := by
        rw [he, Option.filter_some]; exact if_pos (decide_eq_true rfl)
      rw [hf] at hd hab
      refine ⟨?_, ?_, ?_⟩
      · rintro rfl; exact ⟨hdone hs hd, habandon hs hab⟩
      · rintro rfl; exact ⟨hdone hs hd, habandon hs hab⟩
      · rintro x rfl; exact ⟨hdone hs hd, habandon hs hab⟩
    · have hf : (B.ended.filter fun x => x.1 = (⟨zoneBed k, n.id, i⟩ : PartRef)) = none :=
        Option.filter_eq_none_iff.2 fun x hx => by
          obtain ⟨y, e⟩ := x
          simpa using fun hy : y = r => he e (by rw [hx, hy])
      rw [hf] at hd hab
      refine ⟨fun hb => hdone hs ?_, fun hb => hdone hs ?_, fun hb => habandon hs ?_, fun hb => habandon hs ?_⟩
      · simpa [partAnswer, hb] using hd
      · simpa [partAnswer, hb] using hd
      · simpa [partAnswer, hb] using hab
      · simpa [partAnswer, hb] using hab

end Sys2Proof.Machine
end

section
/-! PROOFS. Revoke: the revocation of a grant by its causes, by intrusion at every table, and by the third failed pierce
(R103, R104, R109, R110). -/

open Sys2Proof Sys2Proof.Machine

namespace Sys2Proof.Machine

/-! ## One part amended -/

theorem part?_modPart_same (s : State) (z i : Nat) (f : Part → Part) : part? (modPart s z i f) z i = (part? s z i).map f := by
  cases hn : (s.zone z).nest with
  | none => simp [part?, modPart, modNest, setNest, hn]
  | some n => simp [part?, modPart, modNest, setNest, hn]

theorem zone_modPart_of_ne (s : State) {z j : Nat} (i : Nat) (f : Part → Part) (h : j ≠ z) :
    (modPart s z i f).zone j = s.zone j := by simp [modPart, modNest, setNest, h]

/-- A part follows from the Table Controller's state alone. -/
theorem part?_congr {s u : State} (h : u.tbc = s.tbc) (z i : Nat) : part? u z i = part? s z i := by
  simp only [part?, State.zone, h]

@[simp] theorem part?_raise (s : State) (u : NoticeUnit) (k : NoticeKind) (z i : Nat) : part? (raise s u k) z i = part? s z i :=
  rfl

/-! ## A revocation (R103) -/

section Revocation

variable {s : State} {t : Nat} {g : Grant}

/-- The grant of table `t` ended by a revocation, with GRANT_REVOKED raised. -/
def revoked (s : State) (t : Nat) (g : Grant) (c : Cause) : State :=
  raise (endGrant (modPart s (g.ref.zone t) g.ref.part fun p => { p with burn := .interrupted }) t g (.revoked c)) (.table t)
    .grantRevoked

theorem revoke_plain {c : Cause} (hg : (s.burn t).grant = some g) (hc : c = .hallStop ∨ c = .station ∨ c = .intrusion) :
    revoke s t c = revoked s t g c := by
  obtain rfl | rfl | rfl := hc <;> simp only [revoke, hg, revoked]

theorem revoke_overtime (hg : (s.burn t).grant = some g) :
    revoke s t .overtime = raise (revoked s t g .overtime) (.table t) .burnOvertime := by simp only [revoke, hg, revoked]

theorem revoke_torchFault (hg : (s.burn t).grant = some g) :
    revoke s t .torchFault = raise (revoked s t g .torchFault) (.table t) .torchFault := by simp only [revoke, hg, revoked]

theorem tbc_revoke (hg : (s.burn t).grant = some g) (c : Cause) : (revoke s t c).tbc =
    (modPart s (g.ref.zone t) g.ref.part fun p => { p with burn := .interrupted }).tbc := by
  simp only [revoke, hg]
  cases c <;> simp

theorem part?_revoke (hg : (s.burn t).grant = some g) (c : Cause) : part? (revoke s t c) (g.ref.zone t) g.ref.part =
    (part? s (g.ref.zone t) g.ref.part).map fun p => { p with burn := .interrupted } := by
  rw [part?_congr (tbc_revoke hg c), part?_modPart_same]

theorem zone_revoke_of_ne (hg : (s.burn t).grant = some g) (c : Cause) {j : Nat} (h : j ≠ g.ref.zone t) :
    (revoke s t c).zone j = s.zone j := by
  rw [State.zone, tbc_revoke hg c]
  exact zone_modPart_of_ne s _ _ h

/-- With the arc off, a revocation leaves the monitor alone (R111). -/
theorem monitor_revoke_of_off (hg : (s.burn t).grant = some g) (c : Cause) (hm : (s.monitor t).state = .off) :
    (revoke s t c).monitor t = s.monitor t := by
  have hend : (revoked s t g c).monitor t = s.monitor t := by
    simp [revoked, endGrant_eq, grantEnded, hm]
  cases c with
  | torchFault => rw [revoke_torchFault hg, monitor_raise, hend]
  | overtime => rw [revoke_overtime hg, monitor_raise, hend]
  | hallStop => rw [revoke_plain hg (by decide), hend]
  | station => rw [revoke_plain hg (by decide), hend]
  | intrusion => rw [revoke_plain hg (by decide), hend]

theorem torch_revoke (s : State) (t : Nat) (c : Cause) (j : Nat) : (revoke s t c).torch j = s.torch j := by
  cases hg : (s.burn t).grant with
  | none => rw [revoke_of_no_grant hg]
  | some g =>
    have hend : (revoked s t g c).torch j = s.torch j := by simp [revoked, State.torch]
    cases c with
    | torchFault => rw [revoke_torchFault hg, torch_raise, hend]
    | overtime => rw [revoke_overtime hg, torch_raise, hend]
    | hallStop => rw [revoke_plain hg (by decide), hend]
    | station => rw [revoke_plain hg (by decide), hend]
    | intrusion => rw [revoke_plain hg (by decide), hend]

end Revocation

/-! ## The revocations at a sample completion (R104) -/

/-- What R104 does at one table. -/
def revokeIntrudedAt (s : State) (t : Nat) : State :=
  match (s.burn t).grant with
  | some g => if s.intruded (g.ref.zone t) then revoke s t .intrusion else s
  | none => s

theorem revokeIntruded_eq (s : State) : revokeIntruded s = (List.range 6).foldl revokeIntrudedAt s := rfl

/-- `t` has the burn records, the zones and their flags of table `x` as in `s`, and the intrusion flags; and what was raised
is still. -/
structure GrantsStand (x : Nat) (s t : State) : Prop extends BurnStands x s t where
  zone : ∀ z, zoneTable z = x → t.zone z = s.zone z
  flag : ∀ z, zoneTable z = x → t.grantHeld z = s.grantHeld z
  clu : t.clu = s.clu

theorem GrantsStand.refl (x : Nat) (s : State) : GrantsStand x s s := ⟨.refl x s, fun _ _ => rfl, fun _ _ => rfl, rfl⟩

theorem GrantsStand.trans {x : Nat} {s t u : State} (h : GrantsStand x s t) (k : GrantsStand x t u) : GrantsStand x s u :=
  ⟨h.toBurnStands.trans k.toBurnStands, fun z hz => (k.zone z hz).trans (h.zone z hz),
    fun z hz => (k.flag z hz).trans (h.flag z hz), k.clu.trans h.clu⟩

theorem grantsStand_revoke {x y : Nat} (hy : y ≠ x) (c : Cause) (s : State) : GrantsStand x s (revoke s y c) := by
  refine ⟨burnStands_revoke hy c s, ?_, ?_, clu_revoke ..⟩
  all_goals
    intro z hz
    cases h : (s.burn y).grant with
    | none => rw [revoke_of_no_grant h]
    | some g => ?_
  all_goals have hne : z ≠ g.ref.zone y := fun e => hy (by rw [← hz, e, zoneTable_zone])
  · exact zone_revoke_of_ne h c hne
  · rw [grantHeld_revoke h, if_neg hne]

theorem grantsStand_revokeIntrudedAt {x y : Nat} (hy : y ≠ x) (s : State) : GrantsStand x s (revokeIntrudedAt s y) := by
  unfold revokeIntrudedAt
  split
  · split
    · exact grantsStand_revoke hy ..
    · exact .refl x s
  · exact .refl x s

/-- The revocations at a sample completion, seen from one table. -/
theorem revokeIntruded_at {x : Nat} (hx : x < 6) (s : State) :
    ∃ u, GrantsStand x s u ∧ GrantsStand x (revokeIntrudedAt u x) (revokeIntruded s) :=
  foldl_range_at (f := revokeIntrudedAt) hx (.refl x) .trans (fun hy s => grantsStand_revokeIntrudedAt hy s) s

theorem intruded_of_clu {s u : State} (h : u.clu = s.clu) (z : Nat) : u.intruded z = s.intruded z := by
  simp only [State.intruded, State.intruders, h]

theorem part?_of_zone {s u : State} {z : Nat} (h : u.zone z = s.zone z) (i : Nat) : part? u z i = part? s z i := by
  simp only [part?, h]

/-! ## The torch of a table -/

section Mounted

variable {s : State} {t m : Nat}

theorem modMounted_eq (f : Torch → Torch) (h : mountedTorch s t = some m) : modMounted s t f = s.setTorch m (f (s.torch m)) := by
  simp [modMounted, h]

theorem modMounted_none (f : Torch → Torch) (h : mountedTorch s t = none) : modMounted s t f = s := by simp [modMounted, h]

/-- A torch amended stays mounted. -/
theorem mountedTorch_setTorch {v : Torch} (hv : v.mounted = (s.torch m).mounted) (x : Nat) :
    mountedTorch (s.setTorch m v) x = mountedTorch s x :=
  mountedTorch_congr x fun n => by
    rw [State.torch_setTorch]; split
    · next h => rw [h, hv]
    · rfl

/-- Of two writes of a torch the last one counts, where the first is not as after reset. -/
theorem setTorch_setTorch (s : State) {n : Nat} {v : Torch} (w : Torch) (h : v ≠ Torch.reset n) :
    (s.setTorch n v).setTorch n w = s.setTorch n w := by
  simp only [State.setTorch]
  rw [bankSet_bankSet Torch.reset w fun e => absurd e h]

/-- The failed pierce before the third in a row: both counts rise (R109). -/
theorem failedPierce_few {g : Grant} (h : mountedTorch s t = some m) (hf : (s.torch m).failed < 2) :
    failedPierce s t g = (modPart s (g.ref.zone t) g.ref.part fun p =>
      { p with failedPierces := satInc 3 p.failedPierces }).setTorch m { s.torch m with failed := satInc 3 (s.torch m).failed } := by
  have hcount : satInc 3 (s.torch m).failed ≠ 3 := by unfold satInc; omega
  have hm : mountedTorch (modPart s (g.ref.zone t) g.ref.part fun p => { p with failedPierces := satInc 3 p.failedPierces }) t =
      some m := (mountedTorch_congr t fun n => rfl).trans h
  simp only [failedPierce, modMounted_eq _ hm, torch_modPart]
  rw [mountedTorch_setTorch (by simp), hm]
  exact if_neg (by simp [hcount])

/-- The third in a row: the torch is FAULT, and the grant is revoked (R109). -/
theorem failedPierce_third {g : Grant} (h : mountedTorch s t = some m) (hf : 2 ≤ (s.torch m).failed) :
    failedPierce s t g = revoke (raise ((modPart s (g.ref.zone t) g.ref.part fun p =>
      { p with failedPierces := satInc 3 p.failedPierces }).setTorch m
        { s.torch m with failed := 3, state := .fault }) (.table t) .torchFault) t .torchFault := by
  have hcount : satInc 3 (s.torch m).failed = 3 := by unfold satInc; omega
  have hm : mountedTorch (modPart s (g.ref.zone t) g.ref.part fun p => { p with failedPierces := satInc 3 p.failedPierces }) t =
      some m := (mountedTorch_congr t fun n => rfl).trans h
  have hm' := (mountedTorch_setTorch (s := modPart s (g.ref.zone t) g.ref.part fun p =>
    { p with failedPierces := satInc 3 p.failedPierces }) (m := m) (v := { s.torch m with failed := 3 }) (by simp) t).trans hm
  simp only [failedPierce, modMounted_eq _ hm, torch_modPart, hcount, hm', modMounted_eq _ hm', State.torch_setTorch, if_true,
    Option.any_some, decide_true]
  rw [setTorch_setTorch _ _ fun e => by simp [Torch.reset] at e]

end Mounted

end Sys2Proof.Machine
end

section
/-! PROOFS. Arc: the arc monitor, the failed pierces and the wear of the mounted torch (R108 to R116). -/

open Sys2Proof Sys2Proof.Machine

namespace Sys2Proof.Machine

/-! ## Arc time and wear -/

section Units

variable {s : State} {t m : Nat}

theorem addArcUnits_ungranted (n : Nat) (h : mountedTorch s t = some m) (hg : (s.burn t).grant = none) :
    addArcUnits s t n = s.setTorch m { s.torch m with arcTime := min 4294967295 ((s.torch m).arcTime + n) } := by
  simp only [addArcUnits, modMounted_eq _ h, State.burn_setTorch, hg]; rfl

theorem addArcUnits_bare (n : Nat) (h : mountedTorch s t = none) (hg : (s.burn t).grant = none) : addArcUnits s t n = s := by
  simp only [addArcUnits, modMounted_none _ h, hg]

theorem addArcUnits_granted {g : Grant} {d : Nest} {p : Part} (n : Nat) (h : mountedTorch s t = some m)
    (hg : (s.burn t).grant = some g) (hn : (s.zone (zoneOf t g.ref.bed)).nest = some d) (hp : d.parts[g.ref.part]? = some p) :
    addArcUnits s t n =
      ((s.setTorch m { s.torch m with arcTime := min 4294967295 ((s.torch m).arcTime + n) }).setZone (zoneOf t g.ref.bed)
        { s.zone (zoneOf t g.ref.bed) with nest := some { d with
          parts := d.parts.set g.ref.part { p with arcTime := min 4294967295 (p.arcTime + n) } } }).setBurn t
        { s.burn t with grant := some { g with arcTime := g.arcTime + n } } := by
  have hn' : ((s.setTorch m { s.torch m with arcTime := min 4294967295 ((s.torch m).arcTime + n) }).zone
      (zoneOf t g.ref.bed)).nest = some d := by simpa using hn
  simp only [addArcUnits, modMounted_eq _ h, State.burn_setTorch, hg, PartRef.zone, Config.max32]
  rw [modPart_eq _ hn' hp]
  rfl

theorem wearCheck_none (h : mountedTorch s t = none) : wearCheck s t = s := by simp [wearCheck, h]

theorem wearCheck_worn (h : mountedTorch s t = some m) (hs : (s.torch m).state = .inService)
    (hw : (s.torch m).limit ≤ (s.torch m).wear) :
    wearCheck s t = raise (s.setTorch m { s.torch m with state := .worn }) (.table t) .torchWorn := by
  simp [wearCheck, h, hs, hw]

theorem wearCheck_stands (h : mountedTorch s t = some m)
    (hs : (s.torch m).state ≠ .inService ∨ (s.torch m).wear < (s.torch m).limit) : wearCheck s t = s := by
  simp only [wearCheck, h]
  exact if_neg (by simpa [imp_iff_not_or] using hs)

/-- The end of an arc that is no failed pierce (R109, R111). -/
theorem arcOff_clean (on : Nat) (h : (s.burn t).grant = none ∨ (s.monitor t).state = .cutting) : arcOff s t on =
    wearCheck ((addArcUnits s t (unitsDue (s.monitor t) on)).setMonitor t
      ⟨.off, false, ((s.monitor t).carry + on) % 100, 0⟩) t := by
  obtain hg | hm := h
  · have hnone : ((addArcUnits s t (unitsDue (s.monitor t) on)).burn t).grant = none := by
      simp only [addArcUnits]
      rw [show ((modMounted s t _).burn t) = s.burn t by simp only [State.burn, bsv_burns_modMounted], hg]
      simp only [State.burn, bsv_burns_modMounted]
      exact hg
    simp only [arcOff, State.burn_setMonitor, hnone]
  · simp only [arcOff, hm, reduceCtorEq, if_false]
    congr 1
    split <;> rfl

end Units

/-- Settles O36: each edge and unit changes the torch, the part, the grant and the monitor that it names. -/
theorem arcIsMonitored : Obligations.ArcIsMonitored := by
  unfold Obligations.ArcIsMonitored
  refine ⟨fun s t ht => ⟨fun hm hg => ?ungranted, fun g n p m hg hmt hn hp => ⟨fun hm => ?starts, fun hm => ?pierced⟩⟩,
    fun s t m ht hmt => ?counted, fun s t on ht hmt hg => ?bare⟩
  case ungranted =>
    show execArcOnEdge t s = _
    rw [execArcOnEdge, if_neg (by simp [hm]; omega)]
    simp only [arcOnUngranted, hg]
    rfl
  case starts =>
    intro k u n' u'
    show execArcOnEdge t s = _
    rw [execArcOnEdge, if_neg (by simp [hm]; omega)]
    simp only [hg, arcOnGranted, modMounted_eq _ hmt, PartRef.zone]
    rw [modPart_eq _ (show ((s.setTorch m _).zone _).nest = some n by simpa using hn) hp]
    rfl
  case pierced =>
    show execPierceTimeReached t s = _
    have hmt' : mountedTorch (s.setMonitor t { s.monitor t with state := .cutting }) t = some m :=
      (mountedTorch_congr t fun n => rfl).trans hmt
    rw [execPierceTimeReached, if_neg (by simp [hm, hg]; omega)]
    simp only [modMounted_eq _ hmt']
    rfl
  case counted =>
    intro M V
    have hunit : M.state ≠ .off → exec (.arcTimeUnit t) s =
        .next ((addArcUnits s t 1).setMonitor t { M with units := M.units + 1 }) := fun hm => by
      show execArcTimeUnit t s = _
      rw [execArcTimeUnit, if_neg (by simpa using ⟨by omega, hm⟩)]
      simp only [State.monitor, bsv_monitors_addArcUnits]; rfl
    have hoff : M.state ≠ .off → ∀ on, exec (.arcOffEdge t on) s = .next (arcOff s t on) := fun hm on => by
      show execArcOffEdge t on s = _
      rw [execArcOffEdge, if_neg (by simpa using ⟨by omega, hm⟩)]
    refine ⟨fun g n p hm hg hn hp => ?_, fun hm hg => ?_, fun hm hg on => ?_, fun g n p on hm hg hn hp => ?_⟩
    · intro k u n' u1 u2
      rw [hunit hm, addArcUnits_granted 1 hmt hg hn hp]
    · rw [hunit hm, addArcUnits_ungranted 1 hmt hg]
    · intro W u
      have hu : (addArcUnits s t (unitsDue M on)).setMonitor t ⟨.off, false, (M.carry + on) % 100, 0⟩ = u := by
        rw [addArcUnits_ungranted _ hmt hg]; rfl
      have hmu : mountedTorch u t = some m := (mountedTorch_setTorch (v := W) rfl t).trans hmt
      have hW : u.torch m = W := by simp [u]
      rw [hoff hm, arcOff_clean on (.inl hg), hu]
      clear_value u
      refine ⟨fun hs hl => ?_, fun hs => ?_⟩
      · rw [wearCheck_worn hmu (by rw [hW]; exact hs) (by rw [hW]; exact hl), hW]
      · rw [wearCheck_stands hmu (by rw [hW]; exact hs)]
    · intro k due W n' u1 u2 u
      have hon : M.state ≠ .off := by rw [hm]; decide
      have hu : (addArcUnits s t (unitsDue M on)).setMonitor t ⟨.off, false, (M.carry + on) % 100, 0⟩ = u := by
        rw [addArcUnits_granted _ hmt hg hn hp]; rfl
      have hmu : mountedTorch u t = some m := (mountedTorch_setTorch (v := W) rfl t).trans hmt
      have hW : u.torch m = W := by simp [u, u2, u1]
      rw [hoff hon, arcOff_clean on (.inr hm), hu]
      clear_value u
      refine ⟨fun hs hl => ?_, fun hs => ?_⟩
      · rw [wearCheck_worn hmu (by rw [hW]; exact hs) (by rw [hW]; exact hl), hW]
      · rw [wearCheck_stands hmu (by rw [hW]; exact hs)]
  case bare =>
    intro M hm
    refine ⟨?_, ?_⟩
    · show execArcTimeUnit t s = _
      rw [execArcTimeUnit, if_neg (by simpa using ⟨by omega, hm⟩)]
      simp only [addArcUnits_bare 1 hmt hg]
      rfl
    · show execArcOffEdge t on s = _
      have hnone : mountedTorch (s.setMonitor t ⟨.off, false, (M.carry + on) % 100, 0⟩) t = none :=
        (mountedTorch_congr t fun n => rfl).trans hmt
      rw [execArcOffEdge, if_neg (by simpa using ⟨by omega, hm⟩), arcOff_clean on (.inl hg), addArcUnits_bare _ hmt hg,
        wearCheck_none hnone]

/-! ## Revocations (R103, R104, R109, R110) -/

theorem failed_wearCheck (s : State) (t j : Nat) : ((wearCheck s t).torch j).failed = (s.torch j).failed := by
  unfold wearCheck
  split
  · rfl
  · dsimp only
    split
    · rw [torch_raise, State.torch_setTorch]; split <;> simp_all
    · rfl

@[simp] theorem burn_wearCheck (s : State) (t j : Nat) : (wearCheck s t).burn j = s.burn j := by
  simp only [State.burn, bsv_burns_wearCheck]

@[simp] theorem monitor_wearCheck (s : State) (t j : Nat) : (wearCheck s t).monitor j = s.monitor j := by
  simp only [State.monitor, bsv_monitors_wearCheck]

/-- What stands as the failed pierce at the end of an arc is judged: the units are added and the monitor is off. -/
structure ArcEnded (s b : State) (t m : Nat) (g g' : Grant) (p q : Part) : Prop where
  state : (b.burn t).state = (s.burn t).state
  grant : (b.burn t).grant = some g'
  ref : g'.ref = g.ref
  off : (b.monitor t).state = .off
  stuck : (b.monitor t).stuck = false
  failed : (b.torch m).failed = (s.torch m).failed
  mounted : mountedTorch b t = some m
  part : part? b (g'.ref.zone t) g'.ref.part = some q
  burn : q.burn = p.burn
  pierces : q.failedPierces = p.failedPierces

theorem arcOff_pierce {s : State} {t m : Nat} {g : Grant} {n : Nest} {p : Part} (on : Nat)
    (hm : (s.monitor t).state = .piercing) (hg : (s.burn t).grant = some g) (hmt : mountedTorch s t = some m)
    (hn : (s.zone (zoneOf t g.ref.bed)).nest = some n) (hp : n.parts[g.ref.part]? = some p) :
    ∃ b g' q, ArcEnded s b t m g g' p q ∧ arcOff s t on = wearCheck (failedPierce b t g') t := by
  have hlen := (List.getElem?_eq_some_iff.1 hp).1
  let due := unitsDue (s.monitor t) on
  let g' : Grant := { g with arcTime := g.arcTime + due }
  let q : Part := { p with arcTime := min 4294967295 (p.arcTime + due) }
  have hadd := addArcUnits_granted due hmt hg hn hp
  have hgrant : ((addArcUnits s t due).burn t).grant = some g' := by simp [hadd, g']
  refine ⟨(addArcUnits s t due).setMonitor t ⟨.off, false, ((s.monitor t).carry + on) % 100, 0⟩, g', q,
    ⟨by simp [hadd], by simpa using hgrant, rfl, by simp, by simp, by simp [hadd], ?_, ?_, rfl, rfl⟩, ?_⟩
  · refine (mountedTorch_congr t fun j => ?_).trans hmt
    rw [hadd]
    simp only [State.torch_setMonitor, State.torch_setBurn, State.torch_setZone, State.torch_setTorch]
    split
    · next h => rw [h]
    · rfl
  · rw [PartRef.zone, part?_eq (n := { n with parts := n.parts.set g.ref.part q }) (by simp [hadd, q, g'])]
    simp [hlen, g']
  · simp only [arcOff, State.burn_setMonitor, show unitsDue (s.monitor t) on = due from rfl, hgrant, hm, if_true]

/-- Settles O35: each cause ends the grant by the one rule of a revocation, at the intruded tables each for itself; the third
failed pierce in a row is such a cause. -/
theorem revocationEndsTheGrant : Obligations.RevocationEndsTheGrant := by
  unfold Obligations.RevocationEndsTheGrant
  refine ⟨fun s t i g n p ht hg hi hn hp => ?causes, fun s t ht => ?intruded, fun s t m on g n p ht hm hg hmt hn hp => ?pierce⟩
  case causes =>
    intro k ended
    have hended : ∀ x, revoked s t g x = ended x := fun x => by
      subst hi
      rw [revoked, PartRef.zone, modPart_eq _ hn hp, endGrant_eq]
      rfl
    refine ⟨fun x hx => (revoke_plain hg hx).trans (hended x), fun ho => ?_, fun ho => ?_⟩
    · show execBurnOvertime t s = _
      rw [execBurnOvertime, if_neg (by simp [overtime, hg]; omega), revoke_overtime hg, hended]
    · show execBurnOvertime t s = _
      rw [execBurnOvertime, if_pos (by simp [overtime, hg]; omega)]
  case intruded =>
    intro u
    obtain ⟨v, hv, hu⟩ := revokeIntruded_at (x := t) (by omega) s
    refine ⟨fun hg => ?_, fun g hg => ?_⟩
    · have hv' : (v.burn t).grant = none := by rw [hv.burn, hg]
      have hsame : revokeIntrudedAt v t = v := by simp only [revokeIntrudedAt, hv']
      rw [hsame] at hu
      rw [hu.burn, hv.burn]
    intro z
    have hz : zoneTable z = t := zoneTable_zoneOf ..
    have hv' : (v.burn t).grant = some g := by rw [hv.burn, hg]
    have hin : v.intruded (g.ref.zone t) = s.intruded z := intruded_of_clu hv.clu _
    refine ⟨fun hno => ?_, fun hyes => ?_⟩
    · have hsame : revokeIntrudedAt v t = v := by
        simp only [revokeIntrudedAt, hv', hin, if_neg (mt intruded_iff.1 (not_not.2 hno))]
      rw [hsame] at hu
      exact ⟨hu.burn.trans hv.burn, (hu.flag z hz).trans (hv.flag z hz)⟩
    · have hrev : revokeIntrudedAt v t = revoke v t .intrusion := by
        simp only [revokeIntrudedAt, hv', hin, if_pos (intruded_iff.2 hyes)]
      rw [hrev] at hu
      refine ⟨?_, ?_, hu.raised _ (notice_revoke hv' _ (.inl rfl)), fun p hp => ?_⟩
      · rw [hu.burn, burn_revoke hv', if_pos rfl]
      · exact hu.held _ (by rw [grantHeld_revoke hv']; exact if_pos rfl)
      · rw [part?_of_zone (hu.zone z hz)]
        have hpart : part? v (g.ref.zone t) g.ref.part = some p := (part?_of_zone (hv.zone z hz) _).trans hp
        exact (part?_revoke hv' _).trans (by rw [hpart]; rfl)
  case pierce =>
    obtain ⟨b, g', q, hb, hoff⟩ := arcOff_pierce on hm hg hmt hn hp
    have hexec : exec (.arcOffEdge t on) s = .next (arcOff s t on) := by
      show execArcOffEdge t on s = _
      rw [execArcOffEdge, if_neg (by simp [hm]; omega)]
    have hzone : zoneOf t g.ref.bed = g'.ref.zone t := by rw [PartRef.zone, hb.ref]
    rw [hzone, ← hb.ref]
    refine ⟨_, hexec.trans (by rw [hoff]), ?_⟩
    by_cases hf : (s.torch m).failed < 2
    · have hfew := failedPierce_few (g := g') hb.mounted (by rw [hb.failed]; exact hf)
      refine ⟨by simpa [hfew] using hb.off, by simpa [hfew] using hb.stuck, ?_, fun _ => ⟨?_, ?_, ?_⟩, fun h => by omega⟩
      · rw [failed_wearCheck, hfew, State.torch_setTorch, if_pos rfl, hb.failed]; rfl
      · simpa [hfew] using hb.state
      · simp [hfew, hb.grant]
      · refine ⟨{ q with failedPierces := satInc 3 q.failedPierces }, ?_, by rw [hb.pierces]; rfl, hb.burn⟩
        have htbc : (wearCheck (failedPierce b t g') t).tbc = (modPart b (g'.ref.zone t) g'.ref.part fun p =>
            { p with failedPierces := satInc 3 p.failedPierces }).tbc := by rw [tbc_wearCheck, hfew]; simp
        rw [part?_congr htbc, part?_modPart_same, hb.part]; rfl
    · have hthird := failedPierce_third (g := g') hb.mounted (by rw [hb.failed]; omega)
      let c := raise ((modPart b (g'.ref.zone t) g'.ref.part fun p =>
        { p with failedPierces := satInc 3 p.failedPierces }).setTorch m
          { b.torch m with failed := 3, state := .fault }) (.table t) .torchFault
      have hc : failedPierce b t g' = revoke c t .torchFault := hthird
      have hcg : (c.burn t).grant = some g' := by simpa [c] using hb.grant
      have hcp : part? c (g'.ref.zone t) g'.ref.part = some { q with failedPierces := satInc 3 q.failedPierces } := by
        have htbc : c.tbc = (modPart b (g'.ref.zone t) g'.ref.part fun p =>
            { p with failedPierces := satInc 3 p.failedPierces }).tbc := by simp [c]
        rw [part?_congr htbc, part?_modPart_same, hb.part]; rfl
      have hct : c.torch m = { b.torch m with failed := 3, state := .fault } := by simp [c]
      have hcm : c.monitor t = b.monitor t := by simp [c]
      have hcmt : mountedTorch c t = some m := (mountedTorch_setTorch (by simp) t).trans hb.mounted
      have hnotice : c.notice (noticeCode (.table t) .torchFault) = some false := notice_raise_same ..
      clear_value c
      have hworn : wearCheck (failedPierce b t g') t = revoke c t .torchFault := by
        rw [hc]
        refine wearCheck_stands (m := m) ((mountedTorch_congr t fun j => by rw [torch_revoke]).trans hcmt) (.inl ?_)
        rw [torch_revoke, hct]; exact nofun
      rw [hworn]
      have hmon := monitor_revoke_of_off hcg .torchFault (by rw [hcm, hb.off])
      refine ⟨by rw [hmon, hcm, hb.off], by rw [hmon, hcm, hb.stuck], ?_, fun h => absurd h hf, fun _ => ⟨?_, ?_,
        notice_revoke hcg _ (.inr hnotice), notice_revoke hcg _ (.inl rfl),
        { q with failedPierces := satInc 3 q.failedPierces, burn := .interrupted }, ?_, rfl⟩⟩
      · rw [torch_revoke, hct]; show 3 = _; omega
      · rw [torch_revoke, hct]
      · rw [burn_revoke hcg, if_pos rfl]
      · exact (part?_revoke hcg _).trans (by rw [hcp]; rfl)

end Sys2Proof.Machine
end

section
/-! PROOFS. Torches: the stuck-arc timer, the table fault and the burn times (R111 to R114), and the torch requests (R115 to
R121). -/

open Sys2Proof Sys2Proof.Machine

namespace Sys2Proof.Machine

theorem clamp_eq {lo hi v : Nat} (h : lo ≤ hi) : clamp lo hi v = if v < lo then lo else if hi < v then hi else v := by
  unfold clamp; split
  · omega
  · split <;> omega

/-- Settles O37: each event and request by its own checks in order. -/
theorem tableFaultsAndBurnTimes : Obligations.TableFaultsAndBurnTimes := by
  unfold Obligations.TableFaultsAndBurnTimes
  refine fun s t => ⟨fun ht hst hm hg => ?stuck, ?fault, fun pierce limit => ?times⟩
  case stuck =>
    show execStuckArcTimerExpiry t s = _
    rw [execStuckArcTimerExpiry, if_neg (by simpa [hst, hg] using ⟨by omega, hm⟩)]
    rfl
  case fault =>
    refine ⟨fun ht => .of_ans rfl (if_pos ht), fun ht hm => .of_ans rfl ?_, fun ht hm hf => .of_ans rfl ?_,
      fun ht hm hf => .of_ans rfl ?_⟩
    all_goals rw [clearTableFaultAns, if_neg (by omega)]
    · rw [if_pos hm]
    · rw [if_neg (not_not.2 hm)]
      simp [hf, hm, okWith]
    · rw [if_neg (not_not.2 hm)]
      simp [hf, hm, okWith]
  case times =>
    intro p l
    have hp : (pierce.map (clamp 50 2000)).getD s.bsv.pierceMin = p := by
      cases pierce with
      | none => rfl
      | some v => exact clamp_eq (by decide)
    have hl : (limit.map (clamp 10 3600)).getD s.bsv.burnLimit = l := by
      cases limit with
      | none => rfl
      | some v => exact clamp_eq (by decide)
    refine .of_ans rfl ?_
    rw [setBurnTimesAns, hp, hl]; rfl

/-! ## Mounting (R117, R118) -/

theorem mount_eq (x : TorchState) : x.mount = if x = .spare then .inService else x := by cases x <;> rfl

theorem unmount_eq (x : TorchState) : x.unmount = if x = .inService then .spare else x := by cases x <;> rfl

theorem torchOfId_iff {s : State} {id n : Nat} : torchOfId s id = some n ↔
    n < 12 ∧ (s.torch n).id = id ∧ ∀ m, m < n → (s.torch m).id ≠ id := by
  simp [torchOfId, firstFrom_some]

theorem idTaken_iff {s : State} {a : TorchArg} : idTaken s a = true ↔
    ∃ x n, a.id = some x ∧ n ≤ 11 ∧ n ≠ a.number ∧ (s.torch n).id = x := by
  simp only [idTaken, Option.any_eq_true, List.any_eq_true, List.mem_range, Bool.and_eq_true, bne_iff_ne, beq_iff_eq]
  exact ⟨fun ⟨x, hx, n, hn, hne, hid⟩ => ⟨x, n, hx, Nat.le_of_lt_succ hn, hne, hid⟩,
    fun ⟨x, n, hx, hn, hne, hid⟩ => ⟨x, hx, n, Nat.lt_succ_of_le hn, hne, hid⟩⟩

theorem optFits_inRange {lo hi : Nat} {o : Option Nat} : optFits (inRange lo hi) o = true ↔
    ∀ x, o = some x → lo ≤ x ∧ x ≤ hi := by
  cases o <;> simp [optFits, inRange_iff]

theorem torchRange_iff {a : TorchArg} : torchRange a = true ↔
    a.number ≤ 11 ∧ (∀ x, a.id = some x → 1 ≤ x ∧ x ≤ 65535) ∧ (∀ x, a.limit = some x → 1 ≤ x ∧ x ≤ 65535) ∧
      ∀ x, a.weight = some x → 1 ≤ x ∧ x ≤ 255 := by
  simp only [torchRange, Bool.and_eq_true, optFits_inRange, decide_eq_true_eq, and_assoc, Nat.lt_succ_iff, Config.max16]

/-- The weight of a torch that has started is fixed (R119). -/
theorem weightFixed_iff {s : State} {a : TorchArg} :
    (a.weight.any (· ≠ (s.torch a.number).weight) && 0 < (s.torch a.number).starts) = true ↔
      (∃ x, a.weight = some x ∧ x ≠ (s.torch a.number).weight) ∧ 0 < (s.torch a.number).starts := by
  simp [Option.any_eq_true]

theorem mountTorchAns_found {s : State} {t id n : Nat} (ht : t ≤ 5) (hn : torchOfId s id = some n) : mountTorchAns t id s =
    if (s.torch n).mounted = some t then okWith s (.torch (torchView s n))
    else if (s.burn t).state = .granted then refuse s .badState
    else if (s.monitor t).state ≠ .off then refuse s .badState
    else if (mountedTorch s t).isSome then refuse s .occupied
    else if (s.torch n).mounted.isSome then refuse s .badState
    else okWith (mountTorch s t n) (.torch (torchView (mountTorch s t n) n)) := by
  simp only [mountTorchAns, if_neg (show ¬ 6 ≤ t by omega), hn]

theorem unmountTorchAns_mounted {s : State} {t m : Nat} (ht : t ≤ 5) (hm : mountedTorch s t = some m) : unmountTorchAns t s =
    if (s.burn t).state = .granted then refuse s .badState
    else if (s.monitor t).state ≠ .off then refuse s .badState
    else okWith (s.setTorch m { s.torch m with mounted := none, state := (s.torch m).state.unmount })
      (.torchOnly m { s.torch m with mounted := none, state := (s.torch m).state.unmount }) := by
  simp only [unmountTorchAns, if_neg (show ¬ 6 ≤ t by omega), hm, State.torch_setTorch, if_true]

/-! ## SET_TORCH (R119) -/

theorem setTorchAns_checked {s : State} {a : TorchArg} (hf : torchRange a = true) (ht : ¬ idTaken s a = true)
    (hw : ¬ (a.weight.any (· ≠ (s.torch a.number).weight) && 0 < (s.torch a.number).starts) = true) (w : Torch)
    (he : w = { s.torch a.number with
      id := a.id.getD (s.torch a.number).id, limit := a.limit.getD (s.torch a.number).limit,
      weight := a.weight.getD (s.torch a.number).weight }) : setTorchAns a s =
      okWith (setTorchCheck (s.setTorch a.number w) a.number)
        (.torch (torchView (setTorchCheck (s.setTorch a.number w) a.number) a.number)) := by
  subst he
  simp only [setTorchAns, if_neg (not_bnot hf), if_neg ht, if_neg hw]

/-- The torch is worn out, and may be judged so now. -/
def Ripe (s : State) (n : Nat) : Prop :=
  ((s.torch n).state = .spare ∨ (s.torch n).state = .inService) ∧ (s.torch n).limit ≤ (s.torch n).wear ∧
    ∀ t, (s.torch n).mounted = some t → (s.monitor t).state = .off

theorem ripe_iff (s : State) (n : Nat) : (((s.torch n).state == .spare || (s.torch n).state == .inService) &&
    (match (s.torch n).mounted with
      | none => true
      | some t => (s.monitor t).state == .off) && (s.torch n).limit ≤ (s.torch n).wear) = true ↔ Ripe s n := by
  unfold Ripe
  cases (s.torch n).mounted <;> simp [and_assoc, and_comm, and_left_comm]

theorem setTorchCheck_stands {s : State} {n : Nat} (h : ¬ Ripe s n) : setTorchCheck s n = s :=
  if_neg (mt (ripe_iff s n).1 h)

theorem setTorchCheck_spare {s : State} {n : Nat} (h : Ripe s n) (hm : (s.torch n).mounted = none) :
    setTorchCheck s n = s.setTorch n { s.torch n with state := .worn } :=
  (if_pos ((ripe_iff s n).2 h)).trans (by simp only [hm])

theorem setTorchCheck_mounted {s : State} {n t : Nat} (h : Ripe s n) (hm : (s.torch n).mounted = some t) :
    setTorchCheck s n = raise (s.setTorch n { s.torch n with state := .worn }) (.table t) .torchWorn :=
  (if_pos ((ripe_iff s n).2 h)).trans (by simp only [hm])

/-- Settles O38: the checks of each torch request in order, and the torch it leaves. -/
theorem torchesAreKept : Obligations.TorchesAreKept := by
  unfold Obligations.TorchesAreKept
  refine ⟨fun s t id => ?mounting, fun s => ⟨fun a => ?set, fun id n => torchOfId_iff, fun id => ?reads⟩⟩
  case mounting =>
    intro c d quiet
    have hquiet : ∀ {α : Type} (bad good : α), (if (s.burn t).state = .granted then bad
        else if (s.monitor t).state ≠ .off then bad else good) = good ∨ ¬ quiet := fun bad good => by
      by_cases hq : quiet
      · exact .inl (by rw [if_neg hq.1, if_neg (not_not.2 hq.2)])
      · exact .inr hq
    have hloud : ∀ {α : Type} (bad good : α), ¬ quiet → (if (s.burn t).state = .granted then bad
        else if (s.monitor t).state ≠ .off then bad else good) = bad := fun bad good hq => by
      by_cases hb : (s.burn t).state = .granted
      · exact if_pos hb
      · rw [if_neg hb, if_pos fun hm => hq ⟨hb, hm⟩]
    refine ⟨fun ht => ⟨.of_ans rfl (if_pos ht), .of_ans rfl (if_pos ht)⟩, fun ht hn => .of_ans rfl ?_,
      fun n ht hn => ⟨fun hm => .of_ans rfl ?_, fun hm => ⟨fun hq => .of_ans rfl ?_, fun hq ho => .of_ans rfl ?_,
        fun hq ho hx => .of_ans rfl ?_, fun hq ho hx => ?_⟩⟩, fun ht => ⟨fun hm => .of_ans rfl ?_,
        fun m hm => ⟨fun hq => .of_ans rfl ?_, fun hq => ?_⟩⟩⟩
    · simp only [mountTorchAns, if_neg (show ¬ 6 ≤ t by omega), hn]; rfl
    · rw [mountTorchAns_found ht hn, if_pos hm]; rfl
    · rw [mountTorchAns_found ht hn, if_neg hm]; exact hloud _ _ hq
    · rw [mountTorchAns_found ht hn, if_neg hm, (hquiet _ _).resolve_right (not_not.2 hq),
        if_pos (Option.isSome_iff_ne_none.2 ho)]; rfl
    · rw [mountTorchAns_found ht hn, if_neg hm, (hquiet _ _).resolve_right (not_not.2 hq), if_neg (by simp [ho]),
        if_pos (Option.isSome_iff_ne_none.2 hx)]; rfl
    · intro v
      refine .of_ans rfl ?_
      rw [mountTorchAns_found ht hn, if_neg hm, (hquiet _ _).resolve_right (not_not.2 hq), if_neg (by simp [ho]),
        if_neg (by simp [hx])]
      have hmount : mountTorch s t n = (s.setTorch n v).setMonitor t { s.monitor t with carry := 0 } := by
        rw [mountTorch, mount_eq]; rfl
      rw [hmount, torchView, State.torch_setMonitor, State.torch_setTorch, if_pos rfl]
      rfl
    · simp only [unmountTorchAns, if_neg (show ¬ 6 ≤ t by omega), hm]; rfl
    · rw [unmountTorchAns_mounted ht hm]; exact hloud _ _ hq
    · intro v
      refine .of_ans rfl ?_
      rw [unmountTorchAns_mounted ht hm, (hquiet _ _).resolve_right (not_not.2 hq), unmount_eq]; rfl
  case set =>
    intro c v fields taken frozen w points kept
    have hfields : torchRange a = true ↔ fields := torchRange_iff
    have htaken : idTaken s a = true ↔ taken := idTaken_iff
    have hfrozen := weightFixed_iff (s := s) (a := a)
    have hans : fields → ¬ taken → ¬ frozen → setTorchAns a s =
        okWith (setTorchCheck (s.setTorch a.number w) a.number)
          (.torch (torchView (setTorchCheck (s.setTorch a.number w) a.number) a.number)) := fun hf ht hz =>
      setTorchAns_checked (hfields.2 hf) (mt htaken.1 ht) (mt hfrozen.1 hz) w rfl
    have hw : (s.setTorch a.number w).torch a.number = w := by simp
    refine ⟨fun hf => .of_ans rfl ?_, fun hf ht => .of_ans rfl ?_, fun hf ht hz => .of_ans rfl ?_,
      fun hf ht hz hm hc => ⟨fun hl hst => .of_ans rfl ?_, fun hl => .of_ans rfl ?_⟩, fun x hf ht hz hm => ?_⟩
    · exact if_pos (bnot_of_not (mt hfields.1 hf))
    · rw [setTorchAns, if_neg (not_bnot (hfields.2 hf)), if_pos (htaken.2 ht)]; rfl
    · rw [setTorchAns, if_neg (not_bnot (hfields.2 hf)), if_neg (mt htaken.1 ht), if_pos (hfrozen.2 hz)]; rfl
    · have hripe : Ripe (s.setTorch a.number w) a.number := by
        rw [Ripe, hw]; exact ⟨hst, hl, fun t ht => by rw [show w.mounted = none from hm] at ht; cases ht⟩
      have htwice : (s.setTorch a.number w).setTorch a.number { w with state := .worn } =
          s.setTorch a.number { w with state := .worn } := by
        obtain ⟨-, -, -, ⟨-, -, -, htorches⟩, -⟩ := hc
        simp only [State.setTorch]
        rw [bankSet_bankSet Torch.reset _ fun _ => .inr htorches]
      rw [hans hf ht hz, setTorchCheck_spare hripe (by rw [hw]; exact hm), hw, htwice, torchView, State.torch_setTorch, if_pos rfl]
      rfl
    · have hripe : ¬ Ripe (s.setTorch a.number w) a.number := by
        rw [Ripe, hw]
        rintro ⟨hst, hle, -⟩
        obtain hl | hl | hl := hl
        · exact absurd hle (Nat.not_le.2 hl)
        · obtain h | h := hst <;> exact absurd (h.symm.trans hl) (by decide)
        · obtain h | h := hst <;> exact absurd (h.symm.trans hl) (by decide)
      rw [hans hf ht hz, setTorchCheck_stands hripe, torchView, hw]; rfl
    · intro t ripe
      have hripe : Ripe (s.setTorch a.number w) a.number ↔ ripe := by
        rw [Ripe, hw]
        refine ⟨fun ⟨hst, hle, hq⟩ => ⟨hle, hst, by simpa using hq x hm⟩, fun ⟨hle, hst, hq⟩ => ⟨hst, hle, fun y hy => ?_⟩⟩
        obtain rfl : x = y := Option.some.inj (hm.symm.trans hy)
        simpa using hq
      refine ⟨fun hr => .of_ans rfl ?_, fun hr => .of_ans rfl ?_⟩
      · rw [hans hf ht hz, setTorchCheck_stands (mt hripe.1 hr), torchView, hw]; rfl
      · rw [hans hf ht hz, setTorchCheck_mounted (t := x) (hripe.2 hr) (by rw [hw]; exact hm), hw, torchView, torch_raise,
          State.torch_setTorch, if_pos rfl]
        rfl
  case reads =>
    refine ⟨fun hn => ⟨.of_ans rfl ?_, .of_ans rfl ?_⟩, fun n hn => ?_⟩
    · simp only [resetTorchAns, hn]; rfl
    · simp only [readTorchAns, hn]; rfl
    intro v
    refine ⟨.of_ans rfl ?_, fun t hm hl => .of_ans rfl ?_, fun hq => ?_⟩
    · simp only [readTorchAns, hn]; rfl
    · simp only [resetTorchAns, hn, show (s.torch n).mounted = some t from hm, Option.any_some, decide_eq_true_eq]
      by_cases hb : (s.burn t).state = .granted
      · exact if_pos hb
      · rw [if_neg hb]; exact if_pos (hl.resolve_left hb)
    · intro w
      refine .of_ans rfl ?_
      have hb : ¬ ((s.torch n).mounted.any fun t => (s.burn t).state = .granted) = true := by
        simpa [Option.any_eq_true] using fun t ht => (hq t ht).1
      have hm : ¬ ((s.torch n).mounted.any fun t => (s.monitor t).state ≠ .off) = true := by
        simpa [Option.any_eq_true] using fun t ht => (hq t ht).2
      have hstate : (if (s.torch n).mounted.isSome = true then TorchState.inService else .spare) =
          if v.mounted = none then .spare else .inService := by
        show (if v.mounted.isSome = true then TorchState.inService else .spare) = _
        cases v.mounted <;> rfl
      simp only [resetTorchAns, hn, if_neg hb, if_neg hm, hstate, State.torch_setTorch, if_true]
      rfl

end Sys2Proof.Machine
end

section
/-! PROOFS. Completion: what follows a completed sample in its step: the settings, the axes judged, the sample, the
evaluation and the revocations (R132 to R136, R142, R104). -/

open Sys2Proof Sys2Proof.Machine

namespace Sys2Proof.Machine

/-! ## A read taken by an axis (R132) -/

section Read

variable {a : Axis} {missed limit : Nat} {rd : Except ReadResult Int} {before : Validity}

theorem age_of_failed (h : readGood rd = false) : (takeRead a missed rd).age = min 255 (a.age + 1 + missed) ∧
    (takeRead a missed rd).value = a.value ∧ (takeRead a missed rd).good = a.good := by
  cases rd with
  | ok v => cases h
  | error e => exact ⟨rfl, rfl, rfl⟩

/-- An axis is VALID exactly where its age is 0 and a good read gave its value: a failed read never leaves age 0. -/
theorem validityOf_eq_valid : validityOf limit before rd (takeRead a missed rd) = .valid ↔
    (takeRead a missed rd).age = 0 ∧ (takeRead a missed rd).good = true := by
  unfold validityOf
  by_cases hr : (readGood rd || before != .stale) = true
  · rw [if_pos hr]
    rw [(validityByAge_iff ..).1, and_comm]
  · rw [if_neg hr]
    have hage := (age_of_failed (a := a) (missed := missed) (rd := rd) (by simp at hr; exact hr.1)).1
    refine ⟨fun h => (nomatch h), fun h => ?_⟩
    omega

theorem validityOf_eq_held : validityOf limit before rd (takeRead a missed rd) = .held ↔
    0 < (takeRead a missed rd).age ∧ (takeRead a missed rd).good = true ∧ (takeRead a missed rd).age < limit ∧
      (readGood rd = true ∨ before ≠ .stale) := by
  unfold validityOf
  by_cases hr : (readGood rd || before != .stale) = true
  · rw [if_pos hr]
    have hr' : readGood rd = true ∨ before ≠ .stale := by simpa using hr
    rw [(validityByAge_iff ..).2.1, and_left_comm]
    simp [hr']
  · rw [if_neg hr]
    exact ⟨fun h => (nomatch h), fun h => absurd (by simpa using h.2.2.2) hr⟩

theorem validityOf_cases (limit : Nat) (before : Validity) (rd : Except ReadResult Int) (a : Axis) :
    validityOf limit before rd a = .stale ∨ validityOf limit before rd a = .valid ∨ validityOf limit before rd a = .held := by
  unfold validityOf validityByAge
  repeat' split
  all_goals decide

end Read

/-! ## The judging of one axis -/

/-- An X or Y axis once judged: `o` is its read, `old` its place in the previous sample with its speed there (R132 to
R134). -/
def ssiAxis (r : Runway) (l missed : Nat) (o : ReadOutcome) (a : Axis) (old : Reading) (oldDelta : Option Int) : Axis :=
  let a' := takeRead a missed (readOf r l a o)
  let v := validityOf r.staleLimit a.validity (readOf r l a o) a'
  { a' with validity := v, delta := deltaOf v old.validity a'.value old.value oldDelta }

/-- An H axis once judged by its latch (R132). -/
def hoistAxis (r : Runway) (missed : Nat) (k : Latch) (a : Axis) : Axis :=
  let a' := takeRead a missed (hoistRead r a k)
  { a' with validity := if k.homed then validityOf r.staleLimit a.validity (hoistRead r a k) a' else .unhomed }

/-- The place of an axis in the previous sample, and its speed there. -/
def CraneSample.place (m : CraneSample) (l : Nat) : Reading × Option Int := (if l = 0 then m.x else m.y, if l = 0 then m.dx else m.dy)

/-- The judging of an axis, but for its notice. -/
def ssiTaken (cl : Collecting) (c l : Nat) (s : State) : State :=
  (s.setChannel (2 * c + l) (countRead (s.channel (2 * c + l)) (readOf s.clu.runway l (s.axis (3 * c + l))
    (bankGet (fun _ => .failed .disabled) cl.reads (2 * c + l))))).setAxis (3 * c + l)
    (ssiAxis s.clu.runway l cl.missed (bankGet (fun _ => .failed .disabled) cl.reads (2 * c + l)) (s.axis (3 * c + l))
      ((s.sampled c).place l).1 ((s.sampled c).place l).2)

theorem judgeSsi_eq (cl : Collecting) (c l : Nat) (s : State) : judgeSsi cl c l s =
    if entersStale (s.axis (3 * c + l)).validity ((ssiTaken cl c l s).axis (3 * c + l)).validity then
      raise (ssiTaken cl c l s) (.crane c) .positionStale
    else ssiTaken cl c l s := by
  rw [show (ssiTaken cl c l s).axis (3 * c + l) = _ by rw [ssiTaken, State.axis_setAxis, if_pos rfl]]
  rfl

/-- The judging of a hoist's axis, but for its notice. -/
def hoistTaken (cl : Collecting) (c : Nat) (s : State) : State :=
  (s.setHoist c { s.hoist c with fresh := false }).setAxis (3 * c + 2)
    (hoistAxis s.clu.runway cl.missed (bankGet (fun _ => Latch.reset) cl.latches c) (s.axis (3 * c + 2)))

theorem judgeHoist_eq (cl : Collecting) (c : Nat) (s : State) : judgeHoist cl c s =
    if entersStale (s.axis (3 * c + 2)).validity ((hoistTaken cl c s).axis (3 * c + 2)).validity && !(s.hoist c).fresh then
      raise (hoistTaken cl c s) (.crane c) .positionStale
    else hoistTaken cl c s := by
  rw [show (hoistTaken cl c s).axis (3 * c + 2) = _ by rw [hoistTaken, State.axis_setAxis, if_pos rfl]]
  rfl

/-- The state without what the judging of the axes writes. -/
def State.unjudged (s : State) : State :=
  { s with rsu := { s.rsu with channels := [], axes := [], hoists := [] }, ppn := { s.ppn with notices := [] } }

section Judged

variable (cl : Collecting) (c l : Nat) (s : State)

theorem unjudged_judgeSsi : (judgeSsi cl c l s).unjudged = s.unjudged := by rw [judgeSsi_eq]; split <;> rfl

theorem axis_judgeSsi (j : Nat) : (judgeSsi cl c l s).axis j = (ssiTaken cl c l s).axis j := by
  rw [judgeSsi_eq]; split <;> rfl

theorem channel_judgeSsi (j : Nat) : (judgeSsi cl c l s).channel j = (ssiTaken cl c l s).channel j := by
  rw [judgeSsi_eq]; split <;> rfl

theorem hoist_judgeSsi (j : Nat) : (judgeSsi cl c l s).hoist j = s.hoist j := by rw [judgeSsi_eq]; split <;> rfl

theorem raises_judgeSsi : Raises s (judgeSsi cl c l s) := by
  rw [judgeSsi_eq]; split
  · exact fun j h => notice_raise_of_raised h ..
  · exact fun j h => h

theorem unjudged_judgeHoist : (judgeHoist cl c s).unjudged = s.unjudged := by rw [judgeHoist_eq]; split <;> rfl

theorem axis_judgeHoist (j : Nat) : (judgeHoist cl c s).axis j = (hoistTaken cl c s).axis j := by
  rw [judgeHoist_eq]; split <;> rfl

theorem channel_judgeHoist (j : Nat) : (judgeHoist cl c s).channel j = s.channel j := by
  rw [judgeHoist_eq]; split <;> rfl

theorem hoist_judgeHoist (j : Nat) : (judgeHoist cl c s).hoist j = (hoistTaken cl c s).hoist j := by
  rw [judgeHoist_eq]; split <;> rfl

theorem raises_judgeHoist : Raises s (judgeHoist cl c s) := by
  rw [judgeHoist_eq]; split
  · exact fun j h => notice_raise_of_raised h ..
  · exact fun j h => h

end Judged

theorem Raises.trans {s t u : State} (h : Raises s t) (k : Raises t u) : Raises s u := fun j hj => k j (h j hj)

/-- `t` has the axes, the channels and the hoist of crane `c` as in `s`; it differs from `s` in what a judging writes, and
what was raised is still. -/
structure CraneStands (c : Nat) (s t : State) : Prop where
  frame : t.unjudged = s.unjudged
  axis : ∀ l, l < 3 → t.axis (3 * c + l) = s.axis (3 * c + l)
  channel : ∀ l, l < 2 → t.channel (2 * c + l) = s.channel (2 * c + l)
  hoist : t.hoist c = s.hoist c
  raised : Raises s t

theorem CraneStands.refl (c : Nat) (s : State) : CraneStands c s s := ⟨rfl, fun _ _ => rfl, fun _ _ => rfl, rfl, fun _ h => h⟩

theorem CraneStands.trans {c : Nat} {s t u : State} (h : CraneStands c s t) (k : CraneStands c t u) : CraneStands c s u :=
  ⟨k.frame.trans h.frame, fun l hl => (k.axis l hl).trans (h.axis l hl), fun l hl => (k.channel l hl).trans (h.channel l hl),
    k.hoist.trans h.hoist, h.raised.trans k.raised⟩

theorem craneStands_judgeSsi (cl : Collecting) {c d l : Nat} (hd : d ≠ c) (hl : l < 2) (s : State) :
    CraneStands c s (judgeSsi cl d l s) := by
  refine ⟨unjudged_judgeSsi .., fun j hj => ?_, fun j hj => ?_, hoist_judgeSsi .., raises_judgeSsi cl _ _ s⟩
  · rw [axis_judgeSsi, ssiTaken, State.axis_setAxis, if_neg (by omega)]; rfl
  · rw [channel_judgeSsi, ssiTaken, State.channel_setAxis, State.channel_setChannel, if_neg (by omega)]

theorem craneStands_judgeHoist (cl : Collecting) {c d : Nat} (hd : d ≠ c) (s : State) : CraneStands c s (judgeHoist cl d s) := by
  refine ⟨unjudged_judgeHoist .., fun j hj => ?_, fun j hj => channel_judgeHoist .., ?_, raises_judgeHoist cl _ s⟩
  · rw [axis_judgeHoist, hoistTaken, State.axis_setAxis, if_neg (by omega)]; rfl
  · rw [hoist_judgeHoist, hoistTaken, State.hoist_setAxis, State.hoist_setHoist, if_neg hd.symm]

theorem craneStands_judgeCrane (cl : Collecting) {c d : Nat} (hd : d ≠ c) (s : State) : CraneStands c s (judgeCrane cl s d) :=
  ((craneStands_judgeSsi cl hd (by decide) s).trans (craneStands_judgeSsi cl hd (by decide) _)).trans
    (craneStands_judgeHoist cl hd _)

/-! ## The judged state -/

/-- The state with the settings in force and the axes judged (R142, R132). -/
def judgedState (s : State) (cl : Collecting) : State := (List.range 3).foldl (judgeCrane cl) (applySettings s)

theorem completeSample_eq (s : State) (cl : Collecting) :
    completeSample s cl = revokeIntruded (evaluate (takeSample cl (judgedState s cl))) := rfl

theorem judgedState_at {c : Nat} (hc : c < 3) (s : State) (cl : Collecting) :
    ∃ u, CraneStands c (applySettings s) u ∧ CraneStands c (judgeCrane cl u c) (judgedState s cl) :=
  foldl_range_at (f := judgeCrane cl) hc (.refl c) .trans (fun hy s => craneStands_judgeCrane cl hy s) _

/-- The settings that come into force are the Clearance Unit's. -/
theorem applySettings_blocks (s : State) : applySettings s = { s with clu := (applySettings s).clu } := by
  have hrun : ∀ u : State, { (List.range 3).foldl (fun s c =>
      s.setCrane c { s.crane c with westIn := (s.crane c).west, eastIn := (s.crane c).east }) u with clu := s.clu } =
        { u with clu := s.clu } := fun u =>
    foldl_keeps (f := fun s c => s.setCrane c { s.crane c with westIn := (s.crane c).west, eastIn := (s.crane c).east })
      (g := fun u : State => { u with clu := s.clu }) (fun _ _ => rfl) _ u
  have hall : { applySettings s with clu := s.clu } = s := by
    unfold applySettings; dsimp only; split
    · exact hrun s
    · exact hrun s
  exact congrArg (fun u : State => { u with clu := (applySettings s).clu }) hall

theorem unjudged_judgedState (s : State) (cl : Collecting) : (judgedState s cl).unjudged = (applySettings s).unjudged :=
  foldl_keeps (f := judgeCrane cl) (g := State.unjudged) (fun s c => by
    rw [judgeCrane, unjudged_judgeHoist, unjudged_judgeSsi, unjudged_judgeSsi]) _ _

theorem raises_evaluate (s : State) : Raises s (evaluate s) := fun j hj => by
  have hkeep : ∀ u : State, ((List.range 3).foldl setAllowances u).notice j = u.notice j :=
    foldl_keeps (f := setAllowances) (g := fun s => s.notice j) (fun _ _ => rfl) _
  have hall : (allowed s).notice j = some false := (hkeep s).trans hj
  rw [notice_evaluate, gapped]
  exact foldl_related (R := Raises) (f := setGap) (fun _ _ h => h) .trans (fun s c _ => setGap_raises s c) _ j hall

theorem raises_revokeIntruded (s : State) : Raises s (revokeIntruded s) := by
  refine foldl_related (R := Raises) (f := revokeIntrudedAt) (fun _ _ h => h) .trans (fun s t _ => ?_) s
  unfold revokeIntrudedAt
  split
  · next hg =>
    split
    · exact fun j h => notice_revoke hg _ (.inr h)
    · exact fun j h => h
  · exact fun j h => h

theorem raises_completeSample (s : State) (cl : Collecting) : Raises (judgedState s cl) (completeSample s cl) := by
  rw [completeSample_eq]
  generalize judgedState s cl = u
  have htake : Raises u (takeSample cl u) := fun j h => h
  exact (htake.trans (raises_evaluate _)).trans (raises_revokeIntruded _)

theorem rsu_revokeIntruded (s : State) : (revokeIntruded s).rsu = s.rsu :=
  revokeIntruded_holds (Q := fun t => t.rsu = s.rsu) (fun _ _ _ h => (rsu_revoke ..).trans h) rfl

theorem rsu_completeSample (s : State) (cl : Collecting) :
    (completeSample s cl).rsu = (takeSample cl (judgedState s cl)).rsu := by
  rw [completeSample_eq, rsu_revokeIntruded, (Reads.evaluate _).rsu]

end Sys2Proof.Machine
end

section
/-! PROOFS. Samples: what a completion leaves of each axis, channel and hoist, and of the sample (R132 to R136). -/

open Sys2Proof Sys2Proof.Machine

namespace Sys2Proof.Machine

/-- A bank written record by record. -/
theorem bankGet_foldl_bankSet {α : Type} [DecidableEq α] (reset f : Nat → α) (n : Nat) (m : Bank α) (k : Nat) :
    bankGet reset ((List.range n).foldl (fun m c => bankSet reset m c (f c)) m) k = if k < n then f k else bankGet reset m k := by
  induction n with
  | zero => simp
  | succ n ih =>
    rw [List.range_succ, List.foldl_append, List.foldl_cons, List.foldl_nil, bankGet_bankSet, ih]
    by_cases h : k = n
    · simp [h]
    · rw [if_neg h]
      by_cases hk : k < n
      · rw [if_pos hk, if_pos (by omega)]
      · rw [if_neg hk, if_neg (by omega)]

/-- What does not read the judged banks stands through a judging. -/
theorem unjudged_congr {β : Type} {s t : State} (h : t.unjudged = s.unjudged) (g : State → β)
    (hg : ∀ u : State, g u.unjudged = g u) : g t = g s :=
  (hg t).symm.trans ((congrArg g h).trans (hg s))

/-! ## One crane judged -/

section Crane

variable (cl : Collecting) (u : State) (c : Nat)

/-- The read the sample holds of the X or Y axis of crane `c`. -/
def Collecting.read (cl : Collecting) (c l : Nat) : ReadOutcome := bankGet (fun _ => .failed .disabled) cl.reads (2 * c + l)

/-- The latch the sample holds of the hoist of crane `c`. -/
def Collecting.latch (cl : Collecting) (c : Nat) : Latch := bankGet (fun _ => Latch.reset) cl.latches c

theorem sampled_judgeSsi (l : Nat) : (judgeSsi cl c l u).sampled c = u.sampled c :=
  unjudged_congr (unjudged_judgeSsi cl c l u) (fun s => s.sampled c) fun _ => rfl

theorem runway_judgeSsi (l : Nat) : (judgeSsi cl c l u).clu.runway = u.clu.runway :=
  unjudged_congr (unjudged_judgeSsi cl c l u) (fun s => s.clu.runway) fun _ => rfl

theorem axis_ssiTaken (l j : Nat) : (ssiTaken cl c l u).axis j = if j = 3 * c + l then
    ssiAxis u.clu.runway l cl.missed (cl.read c l) (u.axis (3 * c + l)) ((u.sampled c).place l).1 ((u.sampled c).place l).2
    else u.axis j := by rw [ssiTaken, State.axis_setAxis]; rfl

theorem channel_ssiTaken (l j : Nat) : (ssiTaken cl c l u).channel j = if j = 2 * c + l then
    countRead (u.channel (2 * c + l)) (readOf u.clu.runway l (u.axis (3 * c + l)) (cl.read c l)) else u.channel j := by
  rw [ssiTaken, State.channel_setAxis, State.channel_setChannel]; rfl

theorem axis_hoistTaken (j : Nat) : (hoistTaken cl c u).axis j = if j = 3 * c + 2 then
    hoistAxis u.clu.runway cl.missed (cl.latch c) (u.axis (3 * c + 2)) else u.axis j := by
  rw [hoistTaken, State.axis_setAxis]; rfl

theorem axis_judgeCrane_ssi {l : Nat} (hl : l < 2) : (judgeCrane cl u c).axis (3 * c + l) =
    ssiAxis u.clu.runway l cl.missed (cl.read c l) (u.axis (3 * c + l)) ((u.sampled c).place l).1
      ((u.sampled c).place l).2 := by
  rw [judgeCrane, axis_judgeHoist, axis_hoistTaken, if_neg (by omega), axis_judgeSsi, axis_ssiTaken]
  obtain rfl | rfl : l = 0 ∨ l = 1 := by omega
  · rw [if_neg (by omega), axis_judgeSsi, axis_ssiTaken, if_pos rfl]
  · rw [if_pos rfl, runway_judgeSsi, sampled_judgeSsi, axis_judgeSsi, axis_ssiTaken, if_neg (by omega)]

theorem channel_judgeCrane {l : Nat} (hl : l < 2) : (judgeCrane cl u c).channel (2 * c + l) =
    countRead (u.channel (2 * c + l)) (readOf u.clu.runway l (u.axis (3 * c + l)) (cl.read c l)) := by
  rw [judgeCrane, channel_judgeHoist, channel_judgeSsi, channel_ssiTaken]
  obtain rfl | rfl : l = 0 ∨ l = 1 := by omega
  · rw [if_neg (by omega), channel_judgeSsi, channel_ssiTaken, if_pos rfl]
  · rw [if_pos rfl, runway_judgeSsi, channel_judgeSsi, channel_ssiTaken, if_neg (by omega), axis_judgeSsi, axis_ssiTaken,
      if_neg (by omega)]

theorem axis_judgeCrane_hoist : (judgeCrane cl u c).axis (3 * c + 2) =
    hoistAxis u.clu.runway cl.missed (cl.latch c) (u.axis (3 * c + 2)) := by
  rw [judgeCrane, axis_judgeHoist, axis_hoistTaken, if_pos rfl, runway_judgeSsi, runway_judgeSsi, axis_judgeSsi, axis_ssiTaken,
    if_neg (by omega), axis_judgeSsi, axis_ssiTaken, if_neg (by omega)]

theorem hoist_judgeCrane : (judgeCrane cl u c).hoist c = { u.hoist c with fresh := false } := by
  rw [judgeCrane, hoist_judgeHoist, hoistTaken, State.hoist_setAxis, State.hoist_setHoist, if_pos rfl, hoist_judgeSsi,
    hoist_judgeSsi]

theorem judgeSsi_raised {l : Nat} (h : entersStale (u.axis (3 * c + l)).validity
    ((judgeSsi cl c l u).axis (3 * c + l)).validity = true) :
    (judgeSsi cl c l u).notice (noticeCode (.crane c) .positionStale) = some false := by
  rw [axis_judgeSsi] at h
  rw [judgeSsi_eq, if_pos h]
  exact notice_raise_same ..

theorem judgeCrane_raised_ssi {l : Nat} (hl : l < 2) (h : entersStale (u.axis (3 * c + l)).validity
    ((judgeCrane cl u c).axis (3 * c + l)).validity = true) :
    (judgeCrane cl u c).notice (noticeCode (.crane c) .positionStale) = some false := by
  rw [judgeCrane, axis_judgeHoist, axis_hoistTaken, if_neg (by omega)] at h
  refine raises_judgeHoist cl c _ _ ?_
  obtain rfl | rfl : l = 0 ∨ l = 1 := by omega
  · rw [axis_judgeSsi, axis_ssiTaken, if_neg (by omega)] at h
    exact raises_judgeSsi cl c 1 _ _ (judgeSsi_raised cl u c h)
  · refine judgeSsi_raised cl _ c ?_
    rwa [axis_judgeSsi cl c 0, axis_ssiTaken cl u c 0, if_neg (by omega)]

theorem judgeCrane_raised_hoist (hf : (u.hoist c).fresh = false) (h : entersStale (u.axis (3 * c + 2)).validity
    ((judgeCrane cl u c).axis (3 * c + 2)).validity = true) :
    (judgeCrane cl u c).notice (noticeCode (.crane c) .positionStale) = some false := by
  rw [judgeCrane, axis_judgeHoist] at h
  rw [judgeCrane, judgeHoist_eq, if_pos]
  · exact notice_raise_same ..
  · rw [hoist_judgeSsi, hoist_judgeSsi, hf, axis_judgeSsi, axis_ssiTaken, if_neg (by omega), axis_judgeSsi, axis_ssiTaken,
      if_neg (by omega), h]
    rfl

end Crane

/-! ## A completion -/

section Completed

variable (s : State) (cl : Collecting)

/-- The runway settings a completion judges by (R155). -/
def State.runwayAt (s : State) : Runway := s.clu.runwayNext.getD s.clu.runway

theorem rsu_applySettings : (applySettings s).rsu = s.rsu := by rw [applySettings_blocks]

theorem axis_completeSample (j : Nat) : (completeSample s cl).axis j = (judgedState s cl).axis j := by
  rw [State.axis, rsu_completeSample]
  generalize judgedState s cl = u
  rfl

theorem channel_completeSample (j : Nat) : (completeSample s cl).channel j = (judgedState s cl).channel j := by
  rw [State.channel, rsu_completeSample]
  generalize judgedState s cl = u
  rfl

theorem hoist_completeSample (j : Nat) : (completeSample s cl).hoist j = (judgedState s cl).hoist j := by
  rw [State.hoist, rsu_completeSample]
  generalize judgedState s cl = u
  rfl

theorem sampled_completeSample {c : Nat} (hc : c < 3) :
    (completeSample s cl).sampled c = craneSample cl (completeSample s cl) c := by
  have hall : (completeSample s cl).sampled c = craneSample cl (judgedState s cl) c := by
    rw [State.sampled, rsu_completeSample]
    simp only [takeSample, bankGet_foldl_bankSet, if_pos hc]
  rw [hall]
  simp only [craneSample, axis_completeSample]

/-- What crane `c` is judged from: its axes, channels and hoist, its place in the previous sample, and the settings. -/
structure JudgedFrom (s u : State) (c : Nat) : Prop where
  axis : ∀ l, l < 3 → u.axis (3 * c + l) = s.axis (3 * c + l)
  channel : ∀ l, l < 2 → u.channel (2 * c + l) = s.channel (2 * c + l)
  hoist : u.hoist c = s.hoist c
  sampled : u.sampled c = s.sampled c
  runway : u.clu.runway = s.runwayAt

theorem completeSample_at {c : Nat} (hc : c < 3) : ∃ u, JudgedFrom s u c ∧
    CraneStands c (judgeCrane cl u c) (judgedState s cl) := by
  obtain ⟨u, hu, hj⟩ := judgedState_at hc s cl
  have hrsu := rsu_applySettings s
  refine ⟨u, ⟨fun l hl => ?_, fun l hl => ?_, ?_, ?_, ?_⟩, hj⟩
  · rw [hu.axis l hl, State.axis, hrsu]; rfl
  · rw [hu.channel l hl, State.channel, hrsu]; rfl
  · rw [hu.hoist, State.hoist, hrsu]; rfl
  · have h : u.sampled c = (applySettings s).sampled c :=
      unjudged_congr hu.frame (fun s => s.sampled c) fun _ => rfl
    rw [h, State.sampled, hrsu]; rfl
  · have h : u.clu.runway = (applySettings s).clu.runway :=
      unjudged_congr hu.frame (fun s => s.clu.runway) fun _ => rfl
    rw [h, (runway_applySettings s).1, State.runwayAt]

theorem completeSample_ssi {c l : Nat} (hc : c < 3) (hl : l < 2) : (completeSample s cl).axis (3 * c + l) =
    ssiAxis s.runwayAt l cl.missed (cl.read c l) (s.axis (3 * c + l)) ((s.sampled c).place l).1
      ((s.sampled c).place l).2 := by
  obtain ⟨u, hu, hj⟩ := completeSample_at s cl hc
  rw [axis_completeSample, hj.axis l (by omega), axis_judgeCrane_ssi cl u c hl, hu.axis l (by omega), hu.sampled, hu.runway]

theorem completeSample_channel {c l : Nat} (hc : c < 3) (hl : l < 2) : (completeSample s cl).channel (2 * c + l) =
    countRead (s.channel (2 * c + l)) (readOf s.runwayAt l (s.axis (3 * c + l)) (cl.read c l)) := by
  obtain ⟨u, hu, hj⟩ := completeSample_at s cl hc
  rw [channel_completeSample, hj.channel l hl, channel_judgeCrane cl u c hl, hu.axis l (by omega), hu.channel l hl, hu.runway]

theorem completeSample_hoistAxis {c : Nat} (hc : c < 3) : (completeSample s cl).axis (3 * c + 2) =
    hoistAxis s.runwayAt cl.missed (cl.latch c) (s.axis (3 * c + 2)) := by
  obtain ⟨u, hu, hj⟩ := completeSample_at s cl hc
  rw [axis_completeSample, hj.axis 2 (by omega), axis_judgeCrane_hoist, hu.axis 2 (by omega), hu.runway]

theorem completeSample_hoist {c : Nat} (hc : c < 3) : (completeSample s cl).hoist c = { s.hoist c with fresh := false } := by
  obtain ⟨u, hu, hj⟩ := completeSample_at s cl hc
  rw [hoist_completeSample, hj.hoist, hoist_judgeCrane, hu.hoist]

/-- An axis that enters STALE raises POSITION_STALE at its crane; an H axis just homed does not (R132, log 13). -/
theorem completeSample_raised {c l : Nat} (hc : c < 3) (hl : l < 3) (hf : l = 2 → (s.hoist c).fresh = false)
    (h : entersStale (s.axis (3 * c + l)).validity ((completeSample s cl).axis (3 * c + l)).validity = true) :
    (completeSample s cl).notice (noticeCode (.crane c) .positionStale) = some false := by
  obtain ⟨u, hu, hj⟩ := completeSample_at s cl hc
  rw [axis_completeSample, hj.axis l hl, ← hu.axis l hl] at h
  refine raises_completeSample s cl _ (hj.raised _ ?_)
  obtain hl2 | rfl : l < 2 ∨ l = 2 := by omega
  · exact judgeCrane_raised_ssi cl u c hl2 h
  · exact judgeCrane_raised_hoist cl u c (by rw [hu.hoist]; exact hf rfl) h

end Completed

/-! ## What a judged axis reads -/

theorem entersStale_iff {a b : Validity} : entersStale a b = true ↔ a.placed = true ∧ b = .stale := by
  simp [entersStale]

section Taken

variable {r : Runway} {l : Nat} {a : Axis} {o : ReadOutcome}

theorem readOf_failed (e : ReadResult) : readOf r l a (.failed e) = .error e := rfl

/-- A read is good exactly where it passed on the line, the axis is configured, and the position lies in its band. -/
theorem readGood_readOf : readGood (readOf r l a o) = true ↔
    ∃ n v, o = .raw n ∧ a.scale ≠ 0 ∧ bandValue r l (convert n a.offset a.scale) = some v := by
  cases o with
  | inFlight => simp [readOf, readGood]
  | failed e => simp [readOf, readGood]
  | raw n =>
    rw [readOf_raw]
    obtain ⟨h0, hout, hin⟩ := passedRead_cases r l a n
    by_cases hs : a.scale = 0
    · simp [h0 hs, readGood, hs]
    · cases hb : bandValue r l (convert n a.offset a.scale) with
      | none => simp [hout hs hb, readGood, hb]
      | some v => simp [hin v hs hb, readGood, hs, hb]

theorem readGood_hoistRead {k : Latch} : readGood (hoistRead r a k) = true ↔
    a.scale ≠ 0 ∧ bandValue r 2 (convert k.count.toInt a.offset a.scale) ≠ none := by
  rw [hoistRead_eq_passedRead]
  obtain ⟨h0, hout, hin⟩ := passedRead_cases r 2 a k.count.toInt
  by_cases hs : a.scale = 0
  · simp [h0 hs, readGood, hs]
  · cases hb : bandValue r 2 (convert k.count.toInt a.offset a.scale) with
    | none => simp [hout hs hb, readGood]
    | some v => simp [hin v hs hb, readGood, hs]

end Taken

/-- A speed by the validities of the axis now and in the previous sample (R134). -/
theorem deltaOf_cases (now before : Validity) (value old : Int) (d : Option Int) :
    (before.placed = false ∨ now = .stale → deltaOf now before value old d = none) ∧
    (before.placed = true → now = .valid → deltaOf now before value old d = some (value - old)) ∧
    (before.placed = true → now = .held → deltaOf now before value old d = d) := by
  refine ⟨?_, fun hb hn => ?_, fun hb hn => ?_⟩
  · rintro (hb | hn)
    · simp [deltaOf, hb]
    · subst hn; simp [deltaOf]
  · simp [deltaOf, hb, hn]
  · simp [deltaOf, hb, hn]

/-- What a completion leaves of the Clearance Unit before its evaluation. -/
theorem applySettings_kept (s : State) : (applySettings s).clu.pairs = s.clu.pairs ∧
    (applySettings s).clu.intruders = s.clu.intruders := by
  have hrun := foldl_holds (Q := fun t => t.clu.pairs = s.clu.pairs ∧ t.clu.intruders = s.clu.intruders)
    (f := fun s c => s.setCrane c { s.crane c with westIn := (s.crane c).west, eastIn := (s.crane c).east })
    (fun _ _ h => h) (List.range 3) (s := s) ⟨rfl, rfl⟩
  unfold applySettings; dsimp only; split
  · exact hrun
  · exact hrun

theorem unjudged_takeSample (s : State) (cl : Collecting) : (takeSample cl (judgedState s cl)).ppn.mode = s.ppn.mode ∧
    takeSample cl (judgedState s cl) = { s with
      rsu := (takeSample cl (judgedState s cl)).rsu, clu := (takeSample cl (judgedState s cl)).clu,
      ppn := (takeSample cl (judgedState s cl)).ppn } := by
  have hframe : (judgedState s cl).unjudged = (applySettings s).unjudged := unjudged_judgedState s cl
  rw [applySettings_blocks s] at hframe
  generalize judgedState s cl = u at hframe ⊢
  refine ⟨unjudged_congr hframe (fun s => s.ppn.mode) fun _ => rfl, ?_⟩
  exact unjudged_congr hframe (fun v : State => { v with
    rsu := (takeSample cl u).rsu, clu := (takeSample cl u).clu, ppn := (takeSample cl u).ppn }) fun _ => rfl

/-- The sample a completion leaves (R131, R135). -/
theorem completeSample_latest (s : State) (cl : Collecting) : (completeSample s cl).rsu.collecting = none ∧
    (completeSample s cl).rsu.latest.seq = next32 s.rsu.latest.seq ∧
    (completeSample s cl).rsu.latest.missed = cl.missed ∧
    (completeSample s cl).rsu.latest.missedCount = s.rsu.missedTicks := by
  have hframe := unjudged_judgedState s cl
  have hseq := unjudged_congr hframe (fun s => s.rsu.latest.seq) fun _ => rfl
  have hticks := unjudged_congr hframe (fun s => s.rsu.missedTicks) fun _ => rfl
  simp only [rsu_applySettings] at hseq hticks
  rw [rsu_completeSample]
  clear hframe
  generalize judgedState s cl = u at *
  exact ⟨rfl, congrArg next32 hseq, rfl, hticks⟩

/-- Settles O42: the axes, each judged from its own read; the speeds by the validities; and the completion in its order. -/
theorem samplesJudgeAxes : Obligations.SamplesJudgeAxes := by
  unfold Obligations.SamplesJudgeAxes
  refine ⟨fun s cl c l hc hl => ?ssi, fun s cl c hc => ?hoist, fun s cl => ?order⟩
  case ssi =>
    intro t k a r o good x m old before fails
    have hx : x = ssiAxis r l cl.missed o a old (if l = 0 then (s.sampled c).dx else (s.sampled c).dy) :=
      completeSample_ssi s cl hc hl
    have hch : t.channel (2 * c + l) = countRead before (readOf r l a o) := completeSample_channel s cl hc hl
    have hm : m = craneSample cl t c := sampled_completeSample s cl hc
    have hraised : entersStale a.validity x.validity = true → t.notice (noticeCode (.crane c) .positionStale) = some false :=
      completeSample_raised s cl hc (by omega) (by omega)
    have haxis : t.axis (3 * c + l) = x := rfl
    have hgood : readGood (readOf r l a o) = true ↔ good := readGood_readOf
    clear_value t m
    subst hm
    clear_value x
    have hvalue : x.value = (takeRead a cl.missed (readOf r l a o)).value := by rw [hx]; rfl
    have hage : x.age = (takeRead a cl.missed (readOf r l a o)).age := by rw [hx]; rfl
    have hflag : x.good = (takeRead a cl.missed (readOf r l a o)).good := by rw [hx]; rfl
    have hvalid : x.validity = validityOf r.staleLimit a.validity (readOf r l a o)
      (takeRead a cl.missed (readOf r l a o)) := by rw [hx]; rfl
    obtain ⟨hnone, hsome, hheld⟩ := deltaOf_cases x.validity old.validity x.value old.value
      (if l = 0 then (s.sampled c).dx else (s.sampled c).dy)
    rw [show deltaOf x.validity old.validity x.value old.value (if l = 0 then (s.sampled c).dx else (s.sampled c).dy) =
      x.delta by rw [hx]; rfl] at hnone hsome hheld
    refine ⟨fun n v ho h0 hb => ?_, fun hbad => ?_, fun e ho => ?_, fun n ho h0 => ?_, fun n ho h0 hb => ?_, ?_, ?_, ?_, hnone,
      hsome, hheld, fun h => ?_, fun h => ?_, fun hp hst => hraised (entersStale_iff.2 ⟨hp, hst⟩)⟩
    · have hread : readOf r l a o = .ok v := by rw [ho, readOf_raw]; exact (passedRead_cases r l a n).2.2 v h0 hb
      rw [hvalue, hage, hflag, hch, hread]
      exact ⟨rfl, rfl, rfl, rfl⟩
    · have hread : readGood (readOf r l a o) = false := by
        rw [← Bool.not_eq_true, readGood_readOf]
        rintro ⟨n, v, ho, h0, hb⟩
        obtain h | h := hbad n ho
        · exact h0 h
        · rw [h] at hb; cases hb
      obtain ⟨h1, h2, h3⟩ := age_of_failed (a := a) (missed := cl.missed) hread
      exact ⟨hvalue.trans h2, hage.trans h1, hflag.trans h3⟩
    · show t.channel _ = _
      rw [hch, ho]; rfl
    · show t.channel _ = _
      rw [hch, ho, readOf_raw, (passedRead_cases r l a n).1 h0]; rfl
    · show t.channel _ = _
      rw [hch, ho, readOf_raw, (passedRead_cases r l a n).2.1 h0 hb]; rfl
    · rw [hvalid, hage, hflag]; exact validityOf_eq_valid
    · rw [hvalid, hage, hflag, ← hgood]; exact validityOf_eq_held
    · rw [hvalid]; exact validityOf_cases ..
    · subst h; rw [← haxis]; exact ⟨rfl, rfl, rfl⟩
    · subst h; rw [← haxis]; exact ⟨rfl, rfl⟩
  case hoist =>
    intro t k a r latch read good x m
    have hx : x = hoistAxis r cl.missed latch a := completeSample_hoistAxis s cl hc
    have hv : t.hoist c = { s.hoist c with fresh := false } := completeSample_hoist s cl hc
    have hm : m = craneSample cl t c := sampled_completeSample s cl hc
    have hraised : (s.hoist c).fresh = false → entersStale a.validity x.validity = true →
        t.notice (noticeCode (.crane c) .positionStale) = some false :=
      fun hf => completeSample_raised s cl hc (by decide) fun _ => hf
    have haxis : t.axis (3 * c + 2) = x := rfl
    have hgood : readGood (hoistRead r a latch) = true ↔ good := readGood_hoistRead
    clear_value t m
    subst hm
    clear_value x
    have hvalue : x.value = (takeRead a cl.missed (hoistRead r a latch)).value := by rw [hx]; rfl
    have hage : x.age = (takeRead a cl.missed (hoistRead r a latch)).age := by rw [hx]; rfl
    have hflag : x.good = (takeRead a cl.missed (hoistRead r a latch)).good := by rw [hx]; rfl
    have hvalid : x.validity = if latch.homed then validityOf r.staleLimit a.validity (hoistRead r a latch)
      (takeRead a cl.missed (hoistRead r a latch)) else .unhomed := by rw [hx]; rfl
    refine ⟨fun v h0 hb => ?_, fun hbad => ?_, fun hh => ?_, fun hh => ?_, hv, ?_, rfl,
      fun hp hst hf => hraised hf (entersStale_iff.2 ⟨hp, hst⟩)⟩
    · have hread : hoistRead r a latch = .ok v := by
        rw [hoistRead_eq_passedRead]; exact (passedRead_cases r 2 a latch.count.toInt).2.2 v h0 hb
      rw [hvalue, hage, hflag, hread]
      exact ⟨rfl, rfl, rfl⟩
    · have hread : readGood (hoistRead r a latch) = false := by
        rw [← Bool.not_eq_true, hgood]; exact hbad
      obtain ⟨h1, h2, h3⟩ := age_of_failed (a := a) (missed := cl.missed) hread
      exact ⟨hvalue.trans h2, hage.trans h1, hflag.trans h3⟩
    · rw [hvalid, hh]; rfl
    · rw [hh, if_pos rfl] at hvalid
      rw [hvalid, hage, hflag, ← hgood]
      exact ⟨validityOf_eq_valid, validityOf_eq_held, validityOf_cases ..⟩
    · rw [← haxis]; rfl
  case order =>
    obtain ⟨hmode, hblocks⟩ := unjudged_takeSample s cl
    have heq := completeSample_eq s cl
    have hrsu := rsu_completeSample s cl
    have hclu : (judgedState s cl).clu = (applySettings s).clu := clu_judged cl (applySettings s)
    obtain ⟨hnone, hseq, hmissed, hticks⟩ := completeSample_latest s cl
    rw [hrsu] at hnone hseq hmissed hticks
    obtain ⟨hrun, hnext⟩ := runway_applySettings s
    obtain ⟨hpairs, hintr⟩ := applySettings_kept s
    rw [← hclu] at hrun hnext hpairs hintr
    have hcrane : ∀ c, c < 3 → (judgedState s cl).crane c =
        { s.crane c with westIn := (s.crane c).west, eastIn := (s.crane c).east } := fun c hc => by
      rw [← crane_applySettings s hc, State.crane, hclu]; rfl
    clear hclu
    generalize judgedState s cl = u at *
    exact ⟨takeSample cl u, heq, hblocks, hrsu.symm, hnone, hseq, hmissed, hticks, hmode, hrun, hnext, hpairs, hintr, hcrane⟩

end Sys2Proof.Machine
end

section
/-! PROOFS. Ticks: a sample tick, the reads it starts, and the end of a MASTER read (R126, R128, R131). -/

open Sys2Proof Sys2Proof.Machine

namespace Sys2Proof.Machine

/-! ## A sample completes with its last read -/

theorem completeIfDone_done {s : State} {cl : Collecting} (h : s.rsu.collecting = some cl)
    (hall : ∀ e ∈ cl.reads, e.2 ≠ .inFlight) : completeIfDone s = completeSample s cl := by
  simp only [completeIfDone, h]
  exact if_pos (by simpa using hall)

theorem completeIfDone_waits {s : State} {cl : Collecting} {c : Nat} (h : s.rsu.collecting = some cl)
    (hc : (c, ReadOutcome.inFlight) ∈ cl.reads) : completeIfDone s = s := by
  simp only [completeIfDone, h]
  exact if_neg (by simpa using ⟨c, hc⟩)

/-! ## The reads a tick starts (R131) -/

/-- What a channel gives the sample as it starts. -/
def startedRead (ch : Channel) : ReadOutcome :=
  match ch.mode with
  | .disabled => .failed .disabled
  | .master => .inFlight
  | .listen => (ch.held.map ReadOutcome.raw).getD (.failed .noFrame)

/-- The channel after that: a MASTER read in flight, a held frame handed over. -/
def startedChannel (high : Bool) (period : Nat) (ch : Channel) : Channel :=
  match ch.mode with
  | .disabled => ch
  | .master => { ch with flight := some ⟨if high then .clocking else .waiting, ch.settings, period⟩ }
  | .listen => { ch with held := none }

/-- What a channel gives and becomes, by its mode. -/
theorem started_cases (high : Bool) (period : Nat) (ch : Channel) :
    (ch.mode = .disabled → startedRead ch = .failed .disabled ∧ startedChannel high period ch = ch) ∧
    (ch.mode = .listen → ch.held = none → startedRead ch = .failed .noFrame ∧ startedChannel high period ch = ch) ∧
    (∀ n, ch.mode = .listen → ch.held = some n →
      startedRead ch = .raw n ∧ startedChannel high period ch = { ch with held := none }) ∧
    (ch.mode = .master → startedRead ch = .inFlight ∧ startedChannel high period ch =
      { ch with flight := some ⟨if high then .clocking else .waiting, ch.settings, period⟩ }) := by
  obtain ⟨mode, settings, flight, held⟩ := ch
  refine ⟨?_, ?_, ?_, ?_⟩
  · rintro rfl; exact ⟨rfl, rfl⟩
  · rintro rfl rfl; exact ⟨rfl, rfl⟩
  · rintro n rfl rfl; exact ⟨rfl, rfl⟩
  · rintro rfl; exact ⟨rfl, rfl⟩

/-- The state without its channels. -/
def State.unread (s : State) : State := { s with rsu := { s.rsu with channels := [] } }

/-- What does not read the channels stands where they alone are written. -/
theorem unread_congr {β : Type} {s t : State} (h : t.unread = s.unread) (g : State → β)
    (hg : ∀ u : State, g u.unread = g u) : g t = g s :=
  (hg t).symm.trans ((congrArg g h).trans (hg s))

section Start

variable (lines : BitVec 6) (s : State) (c : Nat)

variable {lines s c}

theorem startRead_disabled (hm : (s.channel c).mode = .disabled) : startRead lines s c = (s, .failed .disabled) := by
  simp only [startRead, hm]

theorem startRead_master (hm : (s.channel c).mode = .master) : startRead lines s c =
    (s.setChannel c { s.channel c with
      flight := some ⟨if lines.getLsbD c then .clocking else .waiting, (s.channel c).settings, s.clu.runway.period⟩ },
      .inFlight) := by simp only [startRead, hm]

theorem startRead_silent (hm : (s.channel c).mode = .listen) (hh : (s.channel c).held = none) :
    startRead lines s c = (s, .failed .noFrame) := by simp only [startRead, hm, hh]

theorem startRead_held {n : Nat} (hm : (s.channel c).mode = .listen) (hh : (s.channel c).held = some n) :
    startRead lines s c = (s.setChannel c { s.channel c with held := none }, .raw n) := by
  simp only [startRead, hm, hh]

variable (lines s c)

/-- A started read, by the three modes of a channel. -/
theorem startRead_facts : (startRead lines s c).2 = startedRead (s.channel c) ∧
    (startRead lines s c).1.unread = s.unread ∧
    (startRead lines s c).1.channel c = startedChannel (lines.getLsbD c) s.clu.runway.period (s.channel c) ∧
    ∀ j, j ≠ c → (startRead lines s c).1.channel j = s.channel j := by
  obtain ⟨hdisabled, hsilent, hheld, hmaster⟩ := started_cases (lines.getLsbD c) s.clu.runway.period (s.channel c)
  cases hm : (s.channel c).mode with
  | disabled =>
    rw [startRead_disabled hm, (hdisabled hm).1, (hdisabled hm).2]
    exact ⟨rfl, rfl, rfl, fun _ _ => rfl⟩
  | master =>
    rw [startRead_master hm, (hmaster hm).1, (hmaster hm).2]
    exact ⟨rfl, rfl, by simp, fun j hj => by simp [hj]⟩
  | listen =>
    cases hh : (s.channel c).held with
    | none =>
      rw [startRead_silent hm hh, (hsilent hm hh).1, (hsilent hm hh).2]
      exact ⟨rfl, rfl, rfl, fun _ _ => rfl⟩
    | some n =>
      rw [startRead_held hm hh, (hheld n hm hh).1, (hheld n hm hh).2]
      exact ⟨rfl, rfl, by simp, fun j hj => by simp [hj]⟩

end Start

theorem startReads_facts (lines : BitVec 6) {l : List Nat} (hl : l.Nodup) (s : State) (m : Bank ReadOutcome) :
    (startReads lines l s m).1.unread = s.unread ∧
    (∀ j, (startReads lines l s m).1.channel j = if j ∈ l then
      startedChannel (lines.getLsbD j) s.clu.runway.period (s.channel j) else s.channel j) ∧
    (∀ j, bankGet (fun _ => ReadOutcome.failed .disabled) (startReads lines l s m).2 j = if j ∈ l then
      startedRead (s.channel j) else bankGet (fun _ => ReadOutcome.failed .disabled) m j) ∧
    (bankWf (fun _ => ReadOutcome.failed .disabled) m = true →
      bankWf (fun _ => ReadOutcome.failed .disabled) (startReads lines l s m).2 = true) := by
  induction l generalizing s m with
  | nil => exact ⟨rfl, fun _ => by simp [startReads], fun _ => by simp [startReads], fun h => h⟩
  | cons c l ih =>
    obtain ⟨hc, hl⟩ := List.nodup_cons.1 hl
    obtain ⟨h1, h2, h3, h4⟩ := ih hl (startRead lines s c).1
      (bankSet (fun _ => ReadOutcome.failed .disabled) m c (startRead lines s c).2)
    obtain ⟨hread, hunread, hsame, hother⟩ := startRead_facts lines s c
    have hperiod : (startRead lines s c).1.clu.runway.period = s.clu.runway.period :=
      unread_congr hunread (fun u => u.clu.runway.period) fun _ => rfl
    rw [startReads]
    refine ⟨h1.trans hunread, fun j => ?_, fun j => ?_, fun hm => h4 (bankWf_bankSet _ _ _ hm)⟩
    · rw [h2, hperiod]
      by_cases hj : j = c
      · subst hj; simp [hc, hsame]
      · simp [hj, hother j hj]
    · rw [h3, bankGet_bankSet, hread]
      by_cases hj : j = c
      · subst hj; simp [hc]
      · simp [hj, hother j hj]

/-- The sample a tick starts, before it may complete at once. -/
structure Started (lines : BitVec 6) (s u : State) (cl : Collecting) : Prop where
  exec : startSample s lines = completeIfDone u
  blocks : u = { s with rsu := { s.rsu with channels := u.rsu.channels, collecting := some cl } }
  missed : cl.missed = 0
  latch : ∀ h, h < 3 → bankGet (fun _ => Latch.reset) cl.latches h = ⟨(s.hoist h).count, (s.hoist h).homed⟩
  read : ∀ c, c < 6 → bankGet (fun _ => ReadOutcome.failed .disabled) cl.reads c = startedRead (s.channel c)
  channel : ∀ c, c < 6 → u.channel c = startedChannel (lines.getLsbD c) s.clu.runway.period (s.channel c)
  listed : ∀ c r, (c, r) ∈ cl.reads ↔ r ≠ .failed .disabled ∧ c < 6 ∧ startedRead (s.channel c) = r

theorem startSample_started (s : State) (lines : BitVec 6) : ∃ u cl, Started lines s u cl := by
  obtain ⟨hunread, hchannel, hread, hwf⟩ := startReads_facts lines (List.nodup_range (n := 6)) s []
  simp only [List.mem_range] at hchannel hread
  have hwf := hwf (bankWf_nil _)
  have hexec : ∀ v, startReads lines (List.range 6) s [] = v → startSample s lines = completeIfDone { v.1 with
      rsu := { v.1.rsu with collecting := some ⟨v.2, latchHoists v.1, 0⟩ } } := fun v hv => by rw [startSample, hv]
  generalize startReads lines (List.range 6) s [] = v at *
  refine ⟨{ v.1 with rsu := { v.1.rsu with collecting := some ⟨v.2, latchHoists v.1, 0⟩ } }, ⟨v.2, latchHoists v.1, 0⟩,
    hexec v rfl, ?_, rfl, ?_, fun c hc => (hread c).trans (if_pos hc), fun c hc => (hchannel c).trans (if_pos hc),
    fun c r => ?_⟩
  · exact unread_congr hunread (fun w : State => { w with rsu := { w.rsu with
      channels := v.1.rsu.channels, collecting := some ⟨v.2, latchHoists v.1, 0⟩ } }) fun _ => rfl
  · intro h hh
    have hoist : ∀ j, v.1.hoist j = s.hoist j := fun j => unread_congr hunread (fun w => w.hoist j) fun _ => rfl
    simp only [latchHoists, bankGet_foldl_bankSet, if_pos hh, hoist]
  · rw [mem_bank _ hwf, hread]
    by_cases hc : c < 6
    · rw [if_pos hc]; tauto
    · rw [if_neg hc]; simp [hc, bankGet, eq_comm]

/-- Settles O40: the started sample completes at once exactly where no channel is MASTER. -/
theorem ticksStartSamples : Obligations.TicksStartSamples := by
  unfold Obligations.TicksStartSamples
  intro s lines
  refine ⟨fun cl hcl => ?_, fun hcl hm => ?_, fun hcl hm => ?_⟩
  · show execSampleTick lines s = _
    rw [execSampleTick, hcl]; rfl
  all_goals
    obtain ⟨u, cl, hs⟩ := startSample_started s lines
    have hexec : exec (.sampleTick lines) s = .next (completeIfDone u) := by
      show execSampleTick lines s = _
      rw [execSampleTick, hcl, ← hs.exec]
    have hcollect : u.rsu.collecting = some cl := by rw [hs.blocks]
  · obtain ⟨c, hc, hmaster⟩ := hm
    have hin : (c, ReadOutcome.inFlight) ∈ cl.reads := (hs.listed c _).2 ⟨nofun, hc, by simp [startedRead, hmaster]⟩
    rw [completeIfDone_waits hcollect hin] at hexec
    refine ⟨u, cl, hexec, hcollect, hs.missed, hs.blocks, hs.latch, fun c hc => ?_⟩
    intro ch read
    have hread : read = startedRead ch := hs.read c hc
    rw [hread, hs.channel c hc]
    exact started_cases ..
  · have hall : ∀ e ∈ cl.reads, e.2 ≠ .inFlight := fun e he hf => by
      obtain ⟨-, hc, hr⟩ := (hs.listed e.1 e.2).1 he
      rw [hf] at hr
      have hno := hm e.1 hc
      cases hmode : (s.channel e.1).mode with
      | master => exact hno hmode
      | disabled => simp [startedRead, hmode] at hr
      | listen => cases hh : (s.channel e.1).held <;> simp [startedRead, hmode, hh] at hr
    rw [completeIfDone_done hcollect hall] at hexec
    obtain ⟨hnone, hseq, hmissed, -⟩ := completeSample_latest u cl
    have hlatest : u.rsu.latest.seq = s.rsu.latest.seq := by rw [hs.blocks]
    refine ⟨_, u, cl, hexec, hnone, by rw [hseq, hlatest], by rw [hmissed, hs.missed], rfl, hs.missed, hs.blocks, hs.latch,
      fun c hc => ?_⟩
    intro ch read
    have hread : read = startedRead ch := hs.read c hc
    rw [hread, hs.channel c hc]
    obtain ⟨hdisabled, hsilent, hheld, -⟩ := started_cases (lines.getLsbD c) s.clu.runway.period ch
    exact ⟨hdisabled, hsilent, hheld⟩

end Sys2Proof.Machine
end

section
/-! PROOFS. Masters: the end of a MASTER read, while another of its sample is in flight and as the last of them (R125, R126,
R131). -/

open Sys2Proof Sys2Proof.Machine

namespace Sys2Proof.Machine

/-- Of two writes of a channel the last one counts. -/
theorem setChannel_setChannel {s : State} (h : Canonical s) (c : Nat) (v w : Channel) :
    (s.setChannel c v).setChannel c w = s.setChannel c w := by
  obtain ⟨-, -, -, -, ⟨hchannels, -⟩, -⟩ := h
  simp only [State.setChannel]
  rw [bankSet_bankSet (fun _ => Channel.reset) w fun _ => .inr hchannels]

theorem reads_wf {s : State} {cl : Collecting} (h : Canonical s) (hcl : s.rsu.collecting = some cl) :
    bankWf (fun _ => ReadOutcome.failed .disabled) cl.reads = true := by
  obtain ⟨-, -, -, -, ⟨-, -, -, -, hcollecting⟩, -⟩ := h
  exact (hcollecting cl hcl).1

/-- The sample that has taken the read `r` of channel `c`. -/
def Collecting.taken (cl : Collecting) (c : Nat) (r : ReadOutcome) : Collecting :=
  { cl with reads := bankSet (fun _ => .failed .disabled) cl.reads c r }

/-- The state in which the read of channel `c` has ended as `r`, its channel being `v` otherwise. -/
def readEnded (s : State) (cl : Collecting) (c : Nat) (v : Channel) (r : ReadOutcome) : State :=
  { s.setChannel c { v with flight := none } with
    rsu := { (s.setChannel c { v with flight := none }).rsu with collecting := some (cl.taken c r) } }

section Ends

variable {s : State} {cl : Collecting} {c : Nat} {f : FrameSettings} {w bits : Nat}

theorem endRead_eq (hcl : s.rsu.collecting = some cl) (r : ReadOutcome) :
    endRead s c r = completeIfDone (readEnded s cl c (s.channel c) r) := by
  simp only [endRead, State.setChannel, hcl]
  rfl

/-- A read that ends on a channel just written. -/
theorem endRead_setChannel (h : Canonical s) (hcl : s.rsu.collecting = some cl) (v : Channel) (r : ReadOutcome) :
    endRead (s.setChannel c v) c r = completeIfDone (readEnded s cl c v r) := by
  have hcl' : (s.setChannel c v).rsu.collecting = some cl := hcl
  rw [endRead_eq hcl']
  simp only [readEnded, State.channel_setChannel, if_true]
  rw [setChannel_setChannel h]

theorem endMaster_high (hcl : s.rsu.collecting = some cl) (l : List Bool) :
    endMaster s c f l true = completeIfDone (readEnded s cl c (s.channel c) (.failed .noData)) := by
  rw [← endRead_eq hcl]; rfl

theorem endMaster_failed (h : Canonical s) (hcl : s.rsu.collecting = some cl) {l : List Bool} {e : FrameResult}
    (he : judgeFrame f l = .error e) : endMaster s c f l false = completeIfDone
      (readEnded s cl c { s.channel c with lastStatus := statusOf f l } (.failed e.toRead)) := by
  rw [← endRead_setChannel h hcl]
  simp [endMaster, he]

theorem endMaster_passed (h : Canonical s) (hcl : s.rsu.collecting = some cl) {l : List Bool} {n : Nat}
    (he : judgeFrame f l = .ok n) : endMaster s c f l false = completeIfDone
      (readEnded s cl c { s.channel c with lastStatus := statusOf f l, lastRaw := n } (.raw n)) := by
  rw [← endRead_setChannel h hcl]
  simp [endMaster, he, setChannel_setChannel h]

/-- Another read still in flight keeps the sample collecting. -/
theorem readEnded_waits (h : Canonical s) (hcl : s.rsu.collecting = some cl) {o : Nat} (ho : o ≠ c)
    (hin : (o, ReadOutcome.inFlight) ∈ cl.reads) (v : Channel) (r : ReadOutcome) :
    completeIfDone (readEnded s cl c v r) = readEnded s cl c v r := by
  have hwf := reads_wf h hcl
  refine completeIfDone_waits (cl := cl.taken c r) rfl (c := o) ?_
  obtain ⟨hget, hne⟩ := (mem_bank _ hwf).1 hin
  exact (mem_bank _ (bankWf_bankSet _ _ _ hwf)).2 ⟨by rw [bankGet_bankSet, if_neg ho, hget], hne⟩

/-- With the last read of it the sample completes. -/
theorem readEnded_last (h : Canonical s) (hcl : s.rsu.collecting = some cl)
    (hlast : ∀ e ∈ cl.reads, e.1 ≠ c → e.2 ≠ .inFlight) (v : Channel) {r : ReadOutcome} (hr : r ≠ .inFlight) :
    completeIfDone (readEnded s cl c v r) = completeSample (readEnded s cl c v r) (cl.taken c r) := by
  have hwf := reads_wf h hcl
  refine completeIfDone_done rfl ?_
  rintro ⟨j, o⟩ he
  obtain ⟨hget, hne⟩ := (mem_bank _ (bankWf_bankSet _ _ _ hwf)).1 he
  rw [bankGet_bankSet] at hget
  by_cases hj : j = c
  · rw [if_pos hj] at hget
    exact fun ho => hr (hget.trans ho)
  · rw [if_neg hj] at hget
    exact hlast (j, o) ((mem_bank _ hwf).2 ⟨hget, hne⟩) hj

end Ends

theorem flight_countRead (ch : Channel) (rd : Except ReadResult Int) : (countRead ch rd).flight = ch.flight := by
  cases rd <;> rfl

/-- A completion leaves every read in flight as it was. -/
theorem flight_completeSample (s : State) (cl : Collecting) {c : Nat} (hc : c < 6) :
    ((completeSample s cl).channel c).flight = (s.channel c).flight := by
  have hsplit : c = 2 * (c / 2) + c % 2 := by omega
  rw [hsplit, completeSample_channel s cl (by omega) (by omega), flight_countRead]

section Exec

variable {s : State} {c : Nat} {f : FrameSettings} {w : Nat}

theorem exec_readyWaitExpiry (hc : c < 6) (h : (s.channel c).flight = some ⟨.waiting, f, w⟩) :
    exec (.readyWaitExpiry c) s = .next (endRead s c (.failed .noData)) := by
  show execReadyWaitExpiry c s = _
  rw [execReadyWaitExpiry, if_neg (by simpa [flightPhase, h] using hc)]

theorem exec_masterReadEnd (hc : c < 6) (h : (s.channel c).flight = some ⟨.clocking, f, w⟩) (bits : Nat) (high : Bool) :
    exec (.masterReadEnd c bits high) s = .next (endMaster s c f (bitsOf bits f.bits) high) := by
  show execMasterReadEnd c bits high s = _
  rw [execMasterReadEnd, if_neg (by omega), h]

end Exec

/-- Settles O41: the four ends of a read, each reported to the sample, which waits for its other reads or completes. -/
theorem masterReadsEnd : Obligations.MasterReadsEnd := by
  unfold Obligations.MasterReadsEnd
  refine ⟨fun s c o f w bits cl hc => ?waits, fun s c w bits f cl hc hcl hlast hcan => ?last⟩
  case waits =>
    intro ch B ends kept
    refine ⟨fun h => ?_, fun hcl ho hin hcan => ?_⟩
    · show execSsiDataReady c s = _
      rw [execSsiDataReady, if_neg (by simpa [flightPhase, show (s.channel c).flight = _ from h] using hc),
        show (s.channel c).flight = _ from h]
      rfl
    have hends : ∀ v r, completeIfDone (readEnded s cl c v r) = ends v r := readEnded_waits hcan hcl ho hin
    refine ⟨fun h => ?_, fun h => ⟨?_, fun he => ?_, fun he => ?_, fun n he => ?_⟩⟩
    · rw [exec_readyWaitExpiry hc h, endRead_eq hcl, hends]
    all_goals rw [exec_masterReadEnd hc h]
    · rw [endMaster_high hcl, hends]
    · rw [endMaster_failed hcan hcl he, hends]; rfl
    · rw [endMaster_failed hcan hcl he, hends]; rfl
    · rw [endMaster_passed hcan hcl he, hends]
  case last =>
    intro ch B kept completes
    have hcompletes : ∀ i v r, r ≠ ReadOutcome.inFlight → exec i s = .next (completeIfDone (readEnded s cl c v r)) →
        completes i v r := fun i v r hr he => by
      obtain ⟨hnone, hseq, hmissed, -⟩ := completeSample_latest (readEnded s cl c v r) (cl.taken c r)
      have hflight := flight_completeSample (readEnded s cl c v r) (cl.taken c r) hc
      have hchannel : (readEnded s cl c v r).channel c = { v with flight := none } := by
        rw [show (readEnded s cl c v r).channel c = (s.setChannel c { v with flight := none }).channel c from rfl]
        simp
      rw [readEnded_last hcan hcl hlast v hr] at he
      rw [hchannel] at hflight
      have hall : ∀ t, completeSample (readEnded s cl c v r) (cl.taken c r) = t → exec i s = .next t ∧
          t.rsu.collecting = none ∧ t.rsu.latest.seq = next32 s.rsu.latest.seq ∧ t.rsu.latest.missed = cl.missed ∧
          (t.channel c).flight = none := by
        rintro t rfl
        exact ⟨he, hnone, hseq, hmissed, hflight⟩
      exact hall _ rfl
    refine ⟨fun h => hcompletes _ _ _ nofun ?_, fun h => ⟨hcompletes _ _ _ nofun ?_, fun he => hcompletes _ _ _ nofun ?_,
      fun he => hcompletes _ _ _ nofun ?_, fun n he => hcompletes _ _ _ nofun ?_⟩⟩
    · rw [exec_readyWaitExpiry hc h, endRead_eq hcl]
    all_goals rw [exec_masterReadEnd hc h]
    · rw [endMaster_high hcl]
    · rw [endMaster_failed hcan hcl he]; rfl
    · rw [endMaster_failed hcan hcl he]; rfl
    · rw [endMaster_passed hcan hcl he]

end Sys2Proof.Machine
end

section
/-! PROOFS. Axes: LISTEN frames and the hoists (R127, R129, R130), and the settings and calibration of an axis (R137, R138). -/

open Sys2Proof Sys2Proof.Machine

namespace Sys2Proof.Machine

/-! ## LISTEN frames -/

section Listen

variable {ch : Channel} {l : List Bool}

theorem listenFrame_short (h : l.length < ch.settings.bits) :
    listenFrame ch l = { ch with lastLength := .less, lastFrame := some .bitCount } := if_pos h

theorem listenFrame_long (h : ch.settings.bits < l.length) :
    listenFrame ch l = { ch with lastLength := .more, lastFrame := some .bitCount } :=
  (if_neg (by omega)).trans (if_pos h)

theorem listenFrame_failed {e : FrameResult} (h : l.length = ch.settings.bits) (he : judgeFrame ch.settings l = .error e) :
    listenFrame ch l = { ch with lastLength := .exact, lastStatus := statusOf ch.settings l, lastFrame := some e } := by
  simp [listenFrame, h, he]

theorem listenFrame_passed {n : Nat} (h : l.length = ch.settings.bits) (he : judgeFrame ch.settings l = .ok n) :
    listenFrame ch l = { ch with
      lastLength := .exact, lastStatus := statusOf ch.settings l, lastFrame := some .passed, lastRaw := n,
      held := some n } := by
  simp [listenFrame, h, he]

end Listen

/-! ## Hoists -/

section Hoists

variable {s : State} {c : Nat} {a b a' b' : Bool}

theorem quadrature_up (hc : c < 3) (h : quadrant a' b' = (quadrant a b + 1) % 4) :
    exec (.quadratureTransition c a b a' b') s =
      .next (s.setHoist c { s.hoist c with count := (s.hoist c).count + 1 }) := by
  show execQuadratureTransition c a b a' b' s = _
  have hone : ¬ (a == a' && b == b') = true ∧ ¬ (a ≠ a' ∧ b ≠ b') := by revert h; revert a b a' b'; decide
  rw [execQuadratureTransition, if_neg (by simpa using ⟨by omega, by simpa using hone.1⟩), if_neg hone.2, if_pos h]
  rfl

theorem quadrature_down (hc : c < 3) (h : quadrant a b = (quadrant a' b' + 1) % 4) :
    exec (.quadratureTransition c a b a' b') s =
      .next (s.setHoist c { s.hoist c with count := (s.hoist c).count - 1 }) := by
  show execQuadratureTransition c a b a' b' s = _
  have hone : ¬ (a == a' && b == b') = true ∧ ¬ (a ≠ a' ∧ b ≠ b') ∧ ¬ quadrant a' b' = (quadrant a b + 1) % 4 := by
    revert h; revert a b a' b'; decide
  rw [execQuadratureTransition, if_neg (by simpa using ⟨by omega, by simpa using hone.1⟩), if_neg hone.2.1, if_neg hone.2.2,
    countBy, BitVec.sub_eq_add_neg]

/-- Both inputs at once unhome a homed axis (R129). -/
theorem quadrature_illegal (hc : c < 3) (h : a ≠ a' ∧ b ≠ b') :
    exec (.quadratureTransition c a b a' b') s = .next (unhome s c) := by
  show execQuadratureTransition c a b a' b' s = _
  rw [execQuadratureTransition, if_neg (by simp [h.1]; omega), if_pos h]

end Hoists

/-- Settles O43: a frame by its length, then as judged; a quadrature change by the quadrants; the homing by the armed pass. -/
theorem listenFramesAndHoists : Obligations.ListenFramesAndHoists := by
  unfold Obligations.ListenFramesAndHoists
  refine ⟨fun s c bits period hc hm => ?listen, fun s c hc => ?hoist⟩
  case listen =>
    intro ch f becomes whole
    have hexec : exec (.listenFrameEnd c bits period) s = .next (s.setChannel c (listenFrame ch bits)) := by
      show execListenFrameEnd c bits period s = _
      rw [execListenFrameEnd, if_neg (by simpa [hm] using hc)]
    have hto : ∀ v, listenFrame ch bits = v → becomes v := fun v hv => by rw [hv] at hexec; exact hexec
    exact ⟨fun h => hto _ (listenFrame_short h), fun h => hto _ (listenFrame_long h),
      fun h => ⟨fun e he => hto _ (listenFrame_failed h he), fun n he => hto _ (listenFrame_passed h he)⟩⟩
  case hoist =>
    intro v turn
    refine ⟨?_, ?_, ?_, fun ha => ?_, fun ha => ?_, fun ha upper => ?_, .of_ans rfl ?_, fun d hd => .of_ans rfl (if_pos hd)⟩
    · simp only [List.mem_cons, List.not_mem_nil, or_false]
      rintro i (rfl | rfl | rfl | rfl) <;> exact quadrature_up hc rfl
    · simp only [List.mem_cons, List.not_mem_nil, or_false]
      rintro i (rfl | rfl | rfl | rfl) <;> exact quadrature_down hc rfl
    · have hboth : ∀ i ∈ [turn false false true true, turn true true false false, turn true false false true,
          turn false true true false], exec i s = .next (unhome s c) := by
        simp only [List.mem_cons, List.not_mem_nil, or_false]
        rintro i (rfl | rfl | rfl | rfl) <;> exact quadrature_illegal hc (by decide)
      refine fun i hi => ⟨fun hh => (hboth i hi).trans ?_, fun hh => (hboth i hi).trans ?_⟩
      · rw [unhome, if_neg (by rw [show (s.hoist c).homed = false from hh]; decide)]
      · rw [unhome, if_pos hh]; rfl
    · intro x
      refine ⟨validityAtHoming s.clu.runway.staleLimit x, ?_, fun hx => if_neg hx, fun hx => ?_⟩
      · show execIndexPulse c true s = _
        rw [execIndexPulse, if_neg (by simpa [show (s.hoist c).armed = true from ha] using hc)]
        rfl
      · rw [validityAtHoming, if_pos hx]; exact validityByAge_iff ..
    · show execIndexPulse c false s = _
      rw [execIndexPulse, if_pos (by simp)]
    · show execIndexPulse c upper s = _
      rw [execIndexPulse, if_pos (by simp [show (s.hoist c).armed = false from ha])]
    · rw [homeHoistAns, if_neg (by omega)]
      simp only [State.hoist_setHoist, if_true]
      rfl

/-! ## The rounding of a division (R138) -/

/-- A quotient nearest to `n / d`, a half away from zero. -/
def Rounds (q n d : Int) : Prop :=
  2 * (n - q * d).natAbs ≤ d.natAbs ∧ (2 * (n - q * d).natAbs = d.natAbs → n.natAbs ≤ (q * d).natAbs)

/-- Of a number that is not negative the nearest quotient is the floor with a half added. -/
theorem ediv_of_nearest {n d q : Int} (hn : 0 ≤ n) (hd : 0 < d) (h : 2 * |n - q * d| ≤ d)
    (hhalf : 2 * |n - q * d| = d → n ≤ |q * d|) : (2 * n + d) / (2 * d) = q := by
  obtain ⟨hlo, hhi⟩ := abs_le.1 (show |2 * (n - q * d)| ≤ d by rwa [abs_mul, abs_two])
  have hne : 2 * n + d ≠ 2 * d * (q + 1) := fun heq => by
    have hq : 0 ≤ q := by nlinarith
    have hexact : 2 * (n - q * d) = d := by linarith
    have hle := hhalf (by rw [abs_of_nonneg (by linarith)]; exact hexact)
    rw [abs_of_nonneg (mul_nonneg hq hd.le)] at hle
    linarith
  have hlt : 2 * n + d < 2 * d * (q + 1) := lt_of_le_of_ne (by linarith) hne
  exact ((Int.ediv_emod_unique (r := 2 * n + d - 2 * d * q) (by linarith)).2 ⟨by ring, by linarith, by linarith⟩).1

/-- The model's division is the one quotient nearest. -/
theorem roundDiv_of_rounds {q n d : Int} (hd : d ≠ 0) (h : Rounds q n d) : roundDiv n d = q := by
  obtain ⟨h1, h2⟩ := h
  zify at h1 h2
  have hcast : (((2 * n.natAbs + d.natAbs) / (2 * d.natAbs) : Nat) : Int) = (2 * |n| + |d|) / (2 * |d|) := by
    push_cast; rfl
  have hpos : 0 < |d| := abs_pos.2 hd
  simp only [roundDiv, hcast]
  split
  next hs =>
    have heq : |(|n| - q * |d|)| = |n - q * d| := by
      by_cases hn : n < 0
      · have hd' : d < 0 := by rwa [← hs]
        rw [abs_of_neg hn, abs_of_neg hd', ← abs_neg]; ring_nf
      · have hd' : ¬ d < 0 := by rwa [← hs]
        rw [abs_of_nonneg (not_lt.1 hn), abs_of_nonneg (not_lt.1 hd')]
    refine ediv_of_nearest (abs_nonneg n) hpos (by rw [heq]; exact h1) fun he => ?_
    rw [abs_mul, abs_abs, ← abs_mul]
    exact h2 (by rw [← heq]; exact he)
  next hs =>
    have heq : |(|n| - -q * |d|)| = |n - q * d| := by
      by_cases hn : n < 0
      · have hd' : ¬ d < 0 := fun h => hs (propext ⟨fun _ => h, fun _ => hn⟩)
        rw [abs_of_neg hn, abs_of_nonneg (not_lt.1 hd'), ← abs_neg]; ring_nf
      · have hd' : d < 0 := by
          by_contra h
          exact hs (propext ⟨fun x => absurd x hn, fun x => absurd x h⟩)
        rw [abs_of_nonneg (not_lt.1 hn), abs_of_neg hd']; ring_nf
    rw [neg_eq_iff_eq_neg]
    refine ediv_of_nearest (abs_nonneg n) hpos (by rw [heq]; exact h1) fun he => ?_
    rw [abs_mul, abs_abs, abs_neg, ← abs_mul]
    exact h2 (by rw [← heq]; exact he)

/-! ## SET_AXIS and CALIBRATE_AXIS -/

theorem modeOf_isSome {n : Nat} : (modeOf n).isSome = true ↔ n ≤ 2 := by
  match n with
  | 0 | 1 | 2 => simp [modeOf]
  | n + 3 => simp [modeOf]

theorem parityOf_isSome {n : Nat} : (parityOf n).isSome = true ↔ n ≤ 2 := by
  match n with
  | 0 | 1 | 2 => simp [parityOf]
  | n + 3 => simp [parityOf]

theorem codeOf_isSome {n : Nat} : (codeOf n).isSome = true ↔ n ≤ 1 := by
  match n with
  | 0 | 1 => simp [codeOf]
  | n + 2 => simp [codeOf]

theorem optFits_iff {α : Type} {p : α → Bool} {o : Option α} : optFits p o = true ↔ ∀ x, o = some x → p x = true := by
  cases o <;> simp [optFits]

theorem inInt32_iff {i : Int} : inInt32 i = true ↔ -2147483648 ≤ i ∧ i ≤ 2147483647 := by simp [inInt32]

theorem scaleOk_iff {i : Int} : scaleOk i = true ↔ 16 ≤ i.natAbs ∧ i.natAbs ≤ 1048576 := by simp [scaleOk, inRange_iff]

theorem channelFields_iff {a : AxisArg} : channelFields a = true ↔ a.mode ≠ none ∨ a.dataBits ≠ none ∨ a.statusBits ≠ none ∨
    a.parity ≠ none ∨ a.code ≠ none ∨ a.clock ≠ none := by
  simp only [channelFields, Bool.or_eq_true, Option.isSome_iff_ne_none, or_assoc]

theorem isSome_beq_iff {a b : Option Int} : (a.isSome == b.isSome) = true ↔ (a = none ↔ b = none) := by
  cases a <;> cases b <;> simp

theorem axisRange_iff {c l : Nat} {a : AxisArg} : axisRange c l a = true ↔
    c ≤ 2 ∧ l ≤ 2 ∧ (l = 2 → ¬ channelFields a = true) ∧ (l ≠ 2 → a.home = none) ∧ (∀ x, a.mode = some x → x ≤ 2) ∧
      (∀ x, a.dataBits = some x → 10 ≤ x ∧ x ≤ 31) ∧ (∀ x, a.statusBits = some x → x ≤ 4) ∧
      (∀ x, a.parity = some x → x ≤ 2) ∧ (∀ x, a.code = some x → x ≤ 1) ∧
      (∀ x, a.clock = some x → x ∈ [100, 200, 400, 800, 1500]) ∧
      (∀ x, a.scale = some x → 16 ≤ x.natAbs ∧ x.natAbs ≤ 1048576) ∧
      (∀ x, a.offset = some x → -2147483648 ≤ x ∧ x ≤ 2147483647) ∧ (a.scale = none ↔ a.offset = none) := by
  have hsource : (if l = 2 then !channelFields a else a.home.isNone) = true ↔
      (l = 2 → ¬ channelFields a = true) ∧ (l ≠ 2 → a.home = none) := by
    by_cases hl : l = 2 <;> simp [hl]
  simp only [axisRange, Bool.and_eq_true, hsource, optFits_iff, modeOf_isSome, parityOf_isSome, codeOf_isSome, inRange_iff,
    scaleOk_iff, inInt32_iff, isSome_beq_iff, List.contains_iff_mem, decide_eq_true_eq, and_assoc, Nat.lt_succ_iff,
    Nat.zero_le, true_and]

theorem setAxisAns_fields {s : State} {c l : Nat} {a : AxisArg} (hm : s.ppn.mode = .cold) (hf : axisRange c l a = true)
    (t : State) (ht : writeSource s c l a = t) (hk : t.axis (3 * c + l) = s.axis (3 * c + l)) : setAxisAns c l a s =
      let u := t.setAxis (3 * c + l) { s.axis (3 * c + l) with
        scale := a.scale.getD (s.axis (3 * c + l)).scale, offset := a.offset.getD (s.axis (3 * c + l)).offset }
      okWith u (.axis (axisView u c l)) := by
  simp only [setAxisAns, if_neg (not_not.2 hm), if_neg (not_bnot hf), ht, hk, writeConversion]

/-- The written channel: the fields given, the counts and the held frame cleared, and the rest as it was (R137). -/
theorem writeChannel_mode (ch : Channel) (a : AxisArg) :
    (a.mode = none → (writeChannel ch a).mode = ch.mode) ∧ (a.mode = some 0 → (writeChannel ch a).mode = .disabled) ∧
    (a.mode = some 1 → (writeChannel ch a).mode = .master) ∧ (a.mode = some 2 → (writeChannel ch a).mode = .listen) := by
  refine ⟨?_, ?_, ?_, ?_⟩ <;> intro h <;> simp [writeChannel, h, modeOf]

theorem writeChannel_parity (ch : Channel) (a : AxisArg) :
    (a.parity = none → (writeChannel ch a).settings.parity = ch.settings.parity) ∧
    (a.parity = some 0 → (writeChannel ch a).settings.parity = .none) ∧
    (a.parity = some 1 → (writeChannel ch a).settings.parity = .even) ∧
    (a.parity = some 2 → (writeChannel ch a).settings.parity = .odd) := by
  refine ⟨?_, ?_, ?_, ?_⟩ <;> intro h <;> simp [writeChannel, h, parityOf]

theorem writeChannel_code (ch : Channel) (a : AxisArg) :
    (a.code = none → (writeChannel ch a).settings.code = ch.settings.code) ∧
    (a.code = some 0 → (writeChannel ch a).settings.code = .binary) ∧
    (a.code = some 1 → (writeChannel ch a).settings.code = .gray) := by
  refine ⟨?_, ?_, ?_⟩ <;> intro h <;> simp [writeChannel, h, codeOf]

theorem axisTop_eq (r : Runway) (l : Nat) :
    (axisTop r l : Int) = if l = 0 then (r.length : Int) else if l = 1 then r.span else 40000 := by
  match l with
  | 0 | 1 => simp [axisTop]
  | l + 2 => simp [axisTop]

theorem rawOk_iff {s : State} {c l : Nat} {x : Int} : rawOk s c l x = true ↔
    if l = 2 then -2147483648 ≤ x ∧ x ≤ 2147483647 else 0 ≤ x ∧ x < 2 ^ (s.channel (2 * c + l)).settings.dataBits := by
  unfold rawOk
  split
  · exact inInt32_iff
  · simp

/-- The checks of CALIBRATE_AXIS: the points, then the scale and the offset that they give. -/
theorem surveyOk_iff {s : State} {c l : Nat} {a : SurveyArg} : surveyOk s c l a = true ↔
    (c ≤ 2 ∧ l ≤ 2 ∧ (0 ≤ a.mm1 ∧ a.mm1 ≤ axisTop s.clu.runway l) ∧ (0 ≤ a.mm2 ∧ a.mm2 ≤ axisTop s.clu.runway l) ∧
      rawOk s c l a.raw1 = true ∧ rawOk s c l a.raw2 = true ∧ a.raw1 ≠ a.raw2) ∧
    scaleOk (surveyScale a) = true ∧ inInt32 (surveyOffset a) = true := by
  simp only [surveyOk, Bool.and_eq_true, decide_eq_true_eq, bne_iff_ne, and_assoc, Nat.lt_succ_iff]

/-- Settles O44: the fields and the points by their checks; the quotient nearest is one, so that the scale and the offset
are the model's. -/
theorem axesAreSetAndCalibrated : Obligations.AxesAreSetAndCalibrated := by
  unfold Obligations.AxesAreSetAndCalibrated
  refine ⟨fun s c l a => ?set, fun s c => ⟨rfl, rfl, rfl⟩, fun s c l a scale p => ?calibrate⟩
  case set =>
    intro i k ch given fields scaled done
    have hgiven : channelFields a = true ↔ given := channelFields_iff
    have hfields : axisRange c l a = true ↔ fields := by rw [axisRange_iff, hgiven]
    refine ⟨fun hm => .of_ans rfl (if_pos hm), fun hm hf => .of_ans rfl ?_, fun hm hf => ⟨fun hl hg => ?_, fun hl hg => ?_,
      fun hl => ?_⟩⟩
    · rw [setAxisAns, if_neg (not_not.2 hm), if_pos (bnot_of_not (mt hfields.1 hf))]; rfl
    all_goals have hans := setAxisAns_fields hm (hfields.2 hf)
    · refine .of_ans rfl (hans s ?_ rfl)
      rw [writeSource, if_neg hl, if_neg (mt hgiven.1 hg)]
    · refine ⟨writeChannel ch a, .of_ans rfl (hans (s.setChannel (2 * c + l) (writeChannel ch a)) ?_ rfl), rfl, rfl, rfl, ?_⟩
      · rw [writeSource, if_neg hl, if_pos (hgiven.2 hg)]
      obtain ⟨hm0, hm1, hm2, hm3⟩ := writeChannel_mode ch a
      obtain ⟨hp0, hp1, hp2, hp3⟩ := writeChannel_parity ch a
      obtain ⟨hc0, hc1, hc2⟩ := writeChannel_code ch a
      exact ⟨hm0, hm1, hm2, hm3, rfl, rfl, rfl, hp0, hp1, hp2, hp3, hc0, hc1, hc2, rfl, rfl, rfl, rfl, rfl, rfl, rfl⟩
    · refine .of_ans rfl (hans _ ?_ rfl)
      rw [writeSource, if_pos hl]
  case calibrate =>
    intro i top rawFits rounds points offset
    have hpoints : (c ≤ 2 ∧ l ≤ 2 ∧ (0 ≤ a.mm1 ∧ a.mm1 ≤ axisTop s.clu.runway l) ∧
        (0 ≤ a.mm2 ∧ a.mm2 ≤ axisTop s.clu.runway l) ∧ rawOk s c l a.raw1 = true ∧ rawOk s c l a.raw2 = true ∧
        a.raw1 ≠ a.raw2) ↔ points := by
      rw [axisTop_eq, rawOk_iff, rawOk_iff]
    have hans : s.ppn.mode = .cold → calibrateAxisAns c l a s = if !surveyOk s c l a then refuse s .range
        else okWith (writeConversion s (3 * c + l) (surveyScale a) (surveyOffset a))
          (.calibration (surveyScale a) (surveyOffset a) (convert a.raw1 (surveyOffset a) (surveyScale a))
            (convert a.raw2 (surveyOffset a) (surveyScale a))) := fun hm => if_neg (not_not.2 hm)
    have hbad : s.ppn.mode = .cold → ¬ surveyOk s c l a = true → calibrateAxisAns c l a s = refuse s .range :=
      fun hm h => (hans hm).trans (if_pos (bnot_of_not h))
    refine ⟨fun hm => .of_ans rfl (if_pos hm), fun hm hp => .of_ans rfl (hbad hm ?_), fun hm hp hr => ?_⟩
    · exact fun h => hp (hpoints.1 (surveyOk_iff.1 h).1)
    have hne : a.raw1 ≠ a.raw2 := by obtain ⟨-, -, -, -, -, -, hne⟩ := hp; exact hne
    have hscale : surveyScale a = scale := roundDiv_of_rounds (sub_ne_zero.2 hne.symm) hr
    refine ⟨fun hs => .of_ans rfl (hbad hm ?_), fun h1 h2 hrp => ?_⟩
    · intro h
      have hok := scaleOk_iff.1 (surveyOk_iff.1 h).2.1
      rw [hscale] at hok
      omega
    have hoffset : surveyOffset a = offset := by
      rw [surveyOffset, hscale, roundDiv_of_rounds (q := p) (by omega) hrp]
    refine ⟨fun ho => .of_ans rfl (hbad hm ?_), fun h3 h4 => .of_ans rfl ?_⟩
    · intro h
      have hok := inInt32_iff.1 (surveyOk_iff.1 h).2.2
      rw [hoffset] at hok
      omega
    · have hok : surveyOk s c l a = true := surveyOk_iff.2
        ⟨hpoints.2 hp, scaleOk_iff.2 (by rw [hscale]; exact ⟨h1, h2⟩), inInt32_iff.2 (by rw [hoffset]; exact ⟨h3, h4⟩)⟩
      rw [hans hm, if_neg (not_bnot hok), hscale, hoffset]
      rfl

end Sys2Proof.Machine
end

section
/-! PROOFS. Queue: the ids of moves (R157, R158) and QUEUE_MOVE (R160). -/

open Sys2Proof Sys2Proof.Machine

namespace Sys2Proof.Machine

/-! ## Destinations -/

theorem destArg?_iff (l : LocArg) (d : Dest) : destArg? l = some d ↔
    (∃ x, l = .slot x ∧ x.bay ≤ 9 ∧ x.slot ≤ 15 ∧ d = .slot (16 * x.bay + x.slot)) ∨
    ∃ x, l = .zone x ∧ x.table ≤ 5 ∧ x.bed ≤ 1 ∧ d = .zone (2 * x.table + x.bed) := by
  cases l with
  | slot a =>
    by_cases h : a.bay ≤ 9 ∧ a.slot ≤ 15
    · simp [destArg?, slotArg?_eq h.1 h.2, h, eq_comm]
    · have hn : slotArg? a = none := slotArg?_none (by omega)
      simp only [destArg?, hn, Option.map_none]
      simp; tauto
  | zone z =>
    by_cases h : z.table ≤ 5 ∧ z.bed ≤ 1
    · simp [destArg?, zoneArg?_eq h.1 h.2, h, eq_comm]
    · have hn : zoneArg? z = none := zoneArg?_none (by omega)
      simp only [destArg?, hn, Option.map_none]
      simp; tauto
  | _ => simp [destArg?]

/-! ## The checks of QUEUE_MOVE (R160) -/

theorem unmovable_iff {s : State} {p : Piece} : unmovable s p = true ↔
    p.state = .inCut ∨ p.state = .inTransit ∨ (p.state = .onTable ∧
      ∃ z, p.place = .zone z ∧ (s.zone z).phase ≠ .loaded ∧ (s.zone z).phase ≠ .cut) := by
  unfold unmovable
  cases hst : p.state <;> cases hpl : p.place <;> simp

theorem destClosed_iff {s : State} {d : Dest} : destClosed s d = true ↔
    (∃ n, d = .slot n ∧ (s.slot n).enabled = false) ∨ ∃ z, d = .zone z ∧ (s.bed z).configured = false := by
  cases d <;> simp [destClosed]

theorem zoneNamed_iff {s : State} {z id : Nat} : zoneNamed s z id = true ↔
    ∃ x m, x < 3 ∧ m ∈ s.queue x ∧ m.id ≠ id ∧ m.dest = some (.zone z) := by
  simp only [zoneNamed, List.any_eq_true, List.mem_range, Bool.and_eq_true, beq_iff_eq, bne_iff_ne]
  exact ⟨fun ⟨x, hx, m, hm, hd⟩ => ⟨x, m, hx, hm, hd⟩, fun ⟨x, m, hx, hm, hd⟩ => ⟨x, hx, m, hm, hd⟩⟩

theorem stagedForOther_iff {s : State} {z : Nat} {h : Handle} : stagedForOther s z h = true ↔
    ∃ n, (s.zone z).nest = some n ∧ n.state = .staged ∧ n.plate ≠ h := by
  unfold stagedForOther
  cases hn : (s.zone z).nest <;> simp

theorem destPromised_zone_iff {s : State} {id z : Nat} {h : Handle} : destPromised s id h (.zone z) = true ↔
    (∃ x m, x < 3 ∧ m ∈ s.queue x ∧ m.id ≠ id ∧ m.dest = some (.zone z)) ∨
      ∃ n, (s.zone z).nest = some n ∧ n.state = .staged ∧ n.plate ≠ h := by
  rw [← zoneNamed_iff, ← stagedForOther_iff, ← Bool.or_eq_true]; rfl

theorem destPromised_iff {s : State} {id : Nat} {h : Handle} {d : Dest} : destPromised s id h d = true ↔
    ∃ z, d = .zone z ∧ ((∃ x m, x < 3 ∧ m ∈ s.queue x ∧ m.id ≠ id ∧ m.dest = some (.zone z)) ∨
      ∃ n, (s.zone z).nest = some n ∧ n.state = .staged ∧ n.plate ≠ h) := by
  cases d with
  | slot n => simp [destPromised]
  | zone z =>
    rw [destPromised_zone_iff]
    exact ⟨fun hp => ⟨z, rfl, hp⟩, fun ⟨y, hy, hp⟩ => by cases hy; exact hp⟩

/-- QUEUE_MOVE on a handle that names a piece, once the destination and the queue let it: steps 4 to 8 of R160. -/
theorem queueMoveAns_names {s : State} {c : Nat} {h : Handle} {l : LocArg} {d : Dest} {p : Piece} (hd : destArg? l = some d)
    (hc : c ≤ 2) (hroom : (s.queue c).length < 16) (hp : s.names h p) : queueMoveAns c h l s =
      if unmovable s p then refuse s .badState
      else if p.move.isSome then refuse s .badState
      else if destClosed s d || p.place = d.place then refuse s .badState
      else if (s.crane c).capacity < p.mass then refuse s .overweight
      else if destPromised s 0 h d then refuse s .occupied
      else okWith (queueMove s c h d) (.queued c ⟨drawMoveId s, h, some d, .queued⟩ (s.queue c).length) := by
  simp only [queueMoveAns, hd, checkHandle_names hp, if_neg (show ¬ 3 ≤ c by omega),
    if_neg (show ¬ Config.queueRoom ≤ _ from Nat.not_le.2 hroom)]

theorem queueMove_eq {s : State} {c : Nat} {h : Handle} {d : Dest} {p : Piece} (hp : s.names h p) : queueMove s c h d =
    let t := (s.setQueue c (s.queue c ++ [⟨drawMoveId s, h, some d, .queued⟩])).setRecord h.index
      ⟨h.gen, some { p with move := some (drawMoveId s) }⟩
    { t with mvc := { t.mvc with nextId := if drawMoveId s < 65535 then drawMoveId s + 1 else 1 } } := by
  have hpiece : (idAssigned (s.setQueue c (s.queue c ++ [⟨drawMoveId s, h, some d, .queued⟩])) (drawMoveId s)).piece? h =
      some p := piece?_names hp
  rw [queueMove, modPiece_eq _ hpiece, ← idAfter_eq]
  rfl

/-! ## The id drawn (R158) -/

theorem moveIdInUse_iff {s : State} {id : Nat} :
    moveIdInUse s id = true ↔ ∃ c m, c < 3 ∧ m ∈ s.queue c ∧ m.id = id := by
  simp only [moveIdInUse, findMove, List.findSome?_isSome_iff, Option.isSome_map, List.find?_isSome, List.mem_range, beq_iff_eq]
  exact ⟨fun ⟨c, hc, m, hm, hi⟩ => ⟨c, m, hc, hm, hi⟩, fun ⟨c, m, hc, hm, hi⟩ => ⟨c, hc, m, hm, hi⟩⟩

theorem idAfter_iterate {n : Nat} (h1 : 1 ≤ n) (hM : n ≤ 65535) (j : Nat) : idAfter^[j] n = roundFrom 65535 n j := by
  induction j with
  | zero => rw [Function.iterate_zero_apply, roundFrom_zero h1 hM]
  | succ j ih => rw [Function.iterate_succ_apply', ih, roundFrom_succ (by omega)]; rfl

/-- The draw goes on past the ids in use. -/
theorem freeMoveId_spec (s : State) (fuel n : Nat) : ∃ k, k ≤ fuel ∧ freeMoveId s fuel n = idAfter^[k] n ∧
    (∀ j, j < k → moveIdInUse s (idAfter^[j] n) = true) ∧ (k < fuel → moveIdInUse s (idAfter^[k] n) = false) := by
  induction fuel generalizing n with
  | zero => exact ⟨0, le_rfl, rfl, nofun, nofun⟩
  | succ fuel ih =>
    by_cases h : moveIdInUse s n = true
    · obtain ⟨k, hk, he, hb, hf⟩ := ih (idAfter n)
      refine ⟨k + 1, by omega, by simp [freeMoveId, h, he], fun j hj => ?_, fun hlt => hf (by omega)⟩
      cases j with
      | zero => exact h
      | succ j => exact hb j (by omega)
    · exact ⟨0, by omega, by simp [freeMoveId, h], nofun, fun _ => by simpa using h⟩

/-- 49 ids of the count are not all in use: the three queues hold no more than 48 moves. -/
theorem exists_not_moveIdInUse {s : State} (hroom : ∀ c, c < 3 → (s.queue c).length ≤ 16) {n : Nat} (h1 : 1 ≤ n)
    (hM : n ≤ 65535) : ∃ j, j < 49 ∧ moveIdInUse s (idAfter^[j] n) = false := by
  by_contra hall
  have huse : ∀ j, j < 49 → moveIdInUse s (idAfter^[j] n) = true := fun j hj => by
    by_contra hne; exact hall ⟨j, hj, by simpa using hne⟩
  have hnodup : ((List.range 49).map fun j => idAfter^[j] n).Nodup := by
    refine List.Nodup.map_on (fun i hi j hj e => ?_) List.nodup_range
    rw [idAfter_iterate h1 hM, idAfter_iterate h1 hM] at e
    exact roundFrom_inj (by have := List.mem_range.1 hi; omega) (by have := List.mem_range.1 hj; omega) e
  have hsub : ((List.range 49).map fun j => idAfter^[j] n) ⊆ (s.queue 0 ++ s.queue 1 ++ s.queue 2).map (·.id) := fun x hx => by
    obtain ⟨j, hj, rfl⟩ := List.mem_map.1 hx
    obtain ⟨c, m, hc, hm, hi⟩ := moveIdInUse_iff.1 (huse j (List.mem_range.1 hj))
    refine List.mem_map.2 ⟨m, ?_, hi⟩
    rw [List.mem_append, List.mem_append]
    obtain rfl | rfl | rfl : c = 0 ∨ c = 1 ∨ c = 2 := by omega
    · exact .inl (.inl hm)
    · exact .inl (.inr hm)
    · exact .inr hm
  have hle := (hnodup.subperm hsub).length_le
  have := hroom 0 (by omega)
  have := hroom 1 (by omega)
  have := hroom 2 (by omega)
  simp only [List.length_map, List.length_range, List.length_append] at hle
  omega

/-- The id drawn is the first from the counter on that no move in use holds (R158). -/
theorem drawMoveId_spec {s : State} (hroom : ∀ c, c < 3 → (s.queue c).length ≤ 16) (h1 : 1 ≤ s.mvc.nextId)
    (hM : s.mvc.nextId ≤ 65535) : moveIdInUse s (drawMoveId s) = false ∧
      ∃ k, drawMoveId s = idAfter^[k] s.mvc.nextId ∧ ∀ j, j < k → moveIdInUse s (idAfter^[j] s.mvc.nextId) = true := by
  obtain ⟨k, hk, he, hb, hf⟩ := freeMoveId_spec s 49 s.mvc.nextId
  obtain ⟨j, hj, hfree⟩ := exists_not_moveIdInUse hroom h1 hM
  have hlt : k < 49 := by
    by_contra hge
    have := hb j (by omega)
    rw [hfree] at this; cases this
  exact ⟨(congrArg (moveIdInUse s) he).trans (hf hlt), k, he, hb⟩

/-- Settles O48: the checks in their order on the piece named; and of 49 ids from the counter on one is free. -/
theorem queueMoveQueues : Obligations.QueueMoveQueues := by
  unfold Obligations.QueueMoveQueues
  refine ⟨destArg?_iff, fun s c h l d p => ?queue, fun s hroom h1 hM => ?drawn⟩
  case queue =>
    intro i
    have hst : ∀ {r}, queueMoveAns c h l s = refuse s r → Refuses i s .queueMove r := fun e => .of_ans rfl e
    refine ⟨fun hbad => hst ?_, fun hd hc hq => hst ?_, fun hd hc hq hp => ?_⟩
    · cases hd : destArg? l with
      | none => simp only [queueMoveAns, hd]
      | some d => simp only [queueMoveAns, hd, if_pos (show 3 ≤ c from hbad.resolve_left (by simp [hd]))]
    · simp only [queueMoveAns, hd, if_neg (show ¬ 3 ≤ c by omega), if_pos (show Config.queueRoom ≤ _ from hq)]
    intro astray closed promised
    have hans := queueMoveAns_names hd hc hq hp
    have hastray : unmovable s p = true ↔ astray := unmovable_iff
    have hmove : p.move.isSome = true ↔ p.move ≠ none := Option.isSome_iff_ne_none
    have hclosed : (destClosed s d || p.place = d.place) = true ↔ closed := by
      rw [Bool.or_eq_true, destClosed_iff, decide_eq_true_iff, or_assoc]
    have hpromised : destPromised s 0 h d = true ↔ promised := destPromised_iff
    refine ⟨fun hbad => hst ?_, fun ha hm hcl => ?_⟩
    · rw [hans]
      by_cases ha : astray
      · exact if_pos (hastray.2 ha)
      rw [if_neg (mt hastray.1 ha)]
      by_cases hm : p.move = none
      · rw [if_neg (mt hmove.1 (not_not.2 hm)), if_pos (hclosed.2 ((hbad.resolve_left ha).resolve_left (not_not.2 hm)))]
      · exact if_pos (hmove.2 hm)
    rw [if_neg (mt hastray.1 ha), if_neg (mt hmove.1 (not_not.2 hm)), if_neg (mt hclosed.1 hcl)] at hans
    refine ⟨fun hw => hst (hans.trans (if_pos hw)), fun hw hpr => hst ?_, fun hw hpr => ?_⟩
    · rw [hans, if_neg (Nat.not_lt.2 hw), if_pos (hpromised.2 hpr)]
    · intro id m t t'
      refine .of_ans rfl ?_
      rw [hans, if_neg (Nat.not_lt.2 hw), if_neg (mt hpromised.1 hpr), queueMove_eq hp]
      rfl
  case drawn =>
    obtain ⟨hfree, k, he, hb⟩ := drawMoveId_spec hroom h1 hM
    refine ⟨fun c m hc hm e => ?_, k, he, fun j hj => moveIdInUse_iff.1 (hb j hj)⟩
    rw [moveIdInUse_iff.2 ⟨c, m, hc, hm, e⟩] at hfree; cases hfree

end Sys2Proof.Machine
end

section
/-! PROOFS. Takes: the moves of a crane's queue by their ids, what holds back its head, and TAKE_MOVE (R161, R162). -/

open Sys2Proof Sys2Proof.Machine

namespace Sys2Proof.Machine

/-! ## One move of a queue -/

section Queued

variable {s : State} {c : Nat} {m : Move} {r q : List Move}

theorem moveOf_eq (hq : s.queue c = r ++ m :: q) (hr : ∀ x ∈ r, x.id ≠ m.id) : moveOf s c m.id = some m := by
  have hnone : r.find? (fun x => x.id == m.id) = none := List.find?_eq_none.2 fun x hx => by simpa using hr x hx
  simp [moveOf, hq, hnone]

theorem moveOf_none {id : Nat} (h : ∀ x ∈ s.queue c, x.id ≠ id) : moveOf s c id = none :=
  List.find?_eq_none.2 fun x hx => by simpa using h x hx

/-- Amending a move whose id no other move of the queue has leaves the others. -/
theorem modMove_eq (f : Move → Move) (hq : s.queue c = r ++ m :: q) (h : ∀ x ∈ r ++ q, x.id ≠ m.id) :
    modMove s c m.id f = s.setQueue c (r ++ f m :: q) := by
  have hkeeps : ∀ l : List Move, (∀ x ∈ l, x.id ≠ m.id) → l.map (fun x => if x.id = m.id then f x else x) = l :=
    fun l hl => (List.map_congr_left fun x hx => if_neg (hl x hx)).trans (List.map_id' l)
  rw [modMove, hq, List.map_append, List.map_cons, if_pos rfl,
    hkeeps r fun x hx => h x (List.mem_append_left _ hx), hkeeps q fun x hx => h x (List.mem_append_right _ hx)]

theorem modMove_head (f : Move → Move) (hq : s.queue c = m :: q) (h : ∀ x ∈ q, x.id ≠ m.id) :
    modMove s c m.id f = s.setQueue c (f m :: q) := modMove_eq (r := []) f hq h

theorem dropMove_head (hq : s.queue c = m :: q) (h : ∀ x ∈ q, x.id ≠ m.id) : dropMove s c m.id = s.setQueue c q := by
  have hkeeps : q.filter (fun x => x.id ≠ m.id) = q := List.filter_eq_self.2 fun x hx => by simpa using h x hx
  rw [dropMove, hq, List.filter_cons_of_neg (by simp), hkeeps]

end Queued

/-! ## The cases of R161 -/

section Cases

variable {s : State} {c : Nat} {m : Move} {q : List Move} {p : Piece}

theorem takeMoveAns_current (hm : s.ppn.mode ≠ .cold) (hq : s.queue c = m :: q) (hst : m.state ≠ .queued) :
    takeMoveAns c s = okWith s (takeView s c m) := by
  simp only [takeMoveAns, if_neg hm, currentMove, hq, if_neg hst]

/-- A crane none of whose moves has been taken is told of a cancellation, or goes on to its head (R161 cases 3 to 7). -/
theorem takeMoveAns_waiting (hm : s.ppn.mode ≠ .cold) (hq : ∀ m q, s.queue c = m :: q → m.state = .queued) :
    takeMoveAns c s = match s.endedMove c with
      | some ⟨id, h, .cancelled false⟩ =>
        ⟨s.setEndedMove c (some ⟨id, h, .cancelled true⟩), .cancelled, .cancelledMove ⟨id, h, .cancelled true⟩⟩
      | _ => takeNext c s := by
  have hnone : currentMove s c = none := by
    unfold currentMove; split
    · next m q e => exact if_pos (hq m q e)
    · rfl
  simp only [takeMoveAns, if_neg hm, hnone] <;> rfl

theorem takeMoveAns_cancelled {id : Nat} {h : Handle} (hm : s.ppn.mode ≠ .cold)
    (hq : ∀ m q, s.queue c = m :: q → m.state = .queued) (he : s.endedMove c = some ⟨id, h, .cancelled false⟩) :
    takeMoveAns c s =
      ⟨s.setEndedMove c (some ⟨id, h, .cancelled true⟩), .cancelled, .cancelledMove ⟨id, h, .cancelled true⟩⟩ := by
  rw [takeMoveAns_waiting hm hq, he]

theorem takeMoveAns_next (hm : s.ppn.mode ≠ .cold) (hq : ∀ m q, s.queue c = m :: q → m.state = .queued)
    (he : ∀ id h, s.endedMove c ≠ some ⟨id, h, .cancelled false⟩) : takeMoveAns c s = takeNext c s := by
  rw [takeMoveAns_waiting hm hq]
  split
  · next id h e => exact absurd e (he id h)
  · rfl

theorem takeNext_empty (hm : s.ppn.mode ≠ .stopped) (hq : s.queue c = []) : takeNext c s = refuse s .none := by
  simp [takeNext, hm, headMove, hq]

theorem takeNext_head (hm : s.ppn.mode ≠ .stopped) (hq : s.queue c = m :: q) (hst : m.state = .queued)
    (hp : s.piece? m.piece = some p) : takeNext c s = match headBlocked s m p with
      | some (e, k) => ⟨s, e, .blocked m.id m.piece k⟩
      | none => okWith (takeHead s c m p) (takeView (takeHead s c m p) c { m with state := .taken }) := by
  have hhead : headMove s c = some m := by simp [headMove, hq, hst]
  simp only [takeNext, if_neg hm, hhead, hp] <;> rfl

/-- Taking the head: the move is TAKEN, its source locked and its destination reserved (R162). -/
theorem takeHead_eq (hq : s.queue c = m :: q) (h : ∀ x ∈ q, x.id ≠ m.id) : takeHead s c m p =
    let t := (s.setQueue c ({ m with state := .taken } :: q)).setEndedMove c none
    let t := match p.place with
      | .slot n => t.setSlot n { s.slot n with outCount := (s.slot n).outCount + 1 }
      | _ => t
    match m.dest with
      | some (.slot n) => t.setSlot n { t.slot n with
          inCount := (t.slot n).inCount + 1, inThick := (t.slot n).inThick + p.thickness }
      | some (.zone z) => t.setZone z { s.zone z with inbound := some m.id, phase := .loading }
      | none => t := by
  rw [takeHead, modMove_head _ hq h]
  cases p.place <;> rcases m.dest with _ | _ | _ <;> rfl

end Cases

/-- Settles O49: the cases of R161 in their order, the checks of the head one by one, and the fields of the answer. -/
theorem takeMoveTakes : Obligations.TakeMoveTakes := by
  unfold Obligations.TakeMoveTakes
  refine ⟨fun s a c hs => ?takes, fun s m p => ?blocked, fun s c m p hp => ?view⟩
  case takes =>
    intro i u tells
    have hto : ∀ {st r t}, takeMoveAns c u = ⟨t, st, r⟩ → StationAnswers i s a .takeMove st r t :=
      fun e => .of_ans rfl hs rfl (unit_matches _) e
    have hmode : u.ppn.mode = s.ppn.mode := ppn_mode_answering ..
    have hqueue : u.queue c = s.queue c := queue_answering ..
    have hended : u.endedMove c = s.endedMove c := endedMove_answering ..
    refine ⟨fun hm => hto (if_pos (hmode.trans hm)), fun hm => ⟨fun m q hq hst => hto ?_, fun hq => ?_⟩⟩
    · rw [takeMoveAns_current (hmode ▸ hm) (hqueue.trans hq) hst, takeView_answering]; rfl
    have hmu : u.ppn.mode ≠ .cold := hmode ▸ hm
    have hqu : ∀ m q, u.queue c = m :: q → m.state = .queued := fun m q e => hq m q (hqueue ▸ e)
    refine ⟨fun id h he => hto (takeMoveAns_cancelled hmu hqu (hended.trans he)), fun he => ?_⟩
    have hnext := takeMoveAns_next hmu hqu (by rw [hended]; exact he)
    refine ⟨fun hstop => hto (hnext.trans (if_pos (hmode.trans hstop))), fun hopen hnil => hto (hnext.trans ?_),
      fun m q p hopen hcons hp => ?_⟩
    all_goals have hopen' : u.ppn.mode ≠ .stopped := by rw [hmode, hopen]; decide
    · exact takeNext_empty hopen' (hqueue.trans hnil)
    have hpu : u.piece? m.piece = some p := (piece?_answering ..).trans hp
    have hhead := hnext.trans (takeNext_head hopen' (hqueue.trans hcons) (hq m q hcons) hpu)
    rw [show headBlocked u m p = headBlocked s m p from headBlocked_answering ..] at hhead
    refine ⟨fun e x hb => hto (hhead.trans ?_), fun hb hunique => ?_⟩
    · rw [hb]
    · have hslot : s.slot = u.slot := funext fun n => (slot_answering s a n).symm
      have hzone : s.zone = u.zone := funext fun n => (zone_answering s a n).symm
      rw [hb] at hhead
      rw [hslot, hzone]
      have htake := takeHead_eq (p := p) (hqueue.trans hcons) hunique
      exact hto (hhead.trans (by rw [htake]; rfl))
  case blocked =>
    intro clearOut
    refine ⟨fun n hp hi => headBlocked_inbound hp hi, fun n hp hi hd => headBlocked_buried hp hi hd, fun hc n hd => ?_,
      fun hc z hd => ?_⟩
    · rw [headBlocked_to_slot hd hc]
      exact ⟨fun hr => by rw [hr]; rfl, fun e hr => by rw [hr]; rfl⟩
    · rw [headBlocked_to_zone hd hc]
      exact ⟨fun hz => if_pos hz, fun hz => if_neg hz⟩
  case view =>
    rw [takeView, hp]; rfl

end Sys2Proof.Machine
end

section
/-! PROOFS. Lifts: the first checks of the crane's reports (R164), the position check (R163) and PICKED (R165). -/

open Sys2Proof Sys2Proof.Machine

namespace Sys2Proof.Machine

/-! ## The first checks of a report (R164) -/

section Report

variable {s : State} {c id : Nat} {m : Move} {placedOk : Bool} {byMove : State → Move → Ans}

theorem craneReport_cold (hm : s.ppn.mode = .cold) : craneReport c id placedOk byMove s = refuse s .wrongMode := if_pos hm

theorem craneReport_zero (hm : s.ppn.mode ≠ .cold) : craneReport c 0 placedOk byMove s = refuse s .range :=
  (if_neg hm).trans (if_pos rfl)

theorem craneReport_queued (hm : s.ppn.mode ≠ .cold) (hid : id ≠ 0) (hq : moveOf s c id = some m) :
    craneReport c id placedOk byMove s = byMove s m := by
  simp only [craneReport, if_neg hm, if_neg hid, hq]

theorem craneReport_ended (hm : s.ppn.mode ≠ .cold) (hid : id ≠ 0) (hq : ∀ x ∈ s.queue c, x.id ≠ id) :
    craneReport c id placedOk byMove s = endedReportAns c id placedOk s := by
  simp only [craneReport, if_neg hm, if_neg hid, moveOf_none hq]

theorem endedReportAns_other (h : ∀ e, s.endedMove c = some e → e.id ≠ id) :
    endedReportAns c id placedOk s = refuse s .notFound := by
  unfold endedReportAns
  cases he : s.endedMove c with
  | none => rfl
  | some e => exact if_pos (h e he)

theorem endedReportAns_placed {h : Handle} (he : s.endedMove c = some ⟨id, h, .placed⟩) : endedReportAns c id placedOk s =
    if placedOk = true then okWith s (.endedReport ⟨id, h, .placed⟩ (viewOf s h)) else refuse s .badState := by
  simp [endedReportAns, he]

theorem endedReportAns_cancelled {h : Handle} {b : Bool} (he : s.endedMove c = some ⟨id, h, .cancelled b⟩) :
    endedReportAns c id placedOk s = ⟨s.setEndedMove c (some ⟨id, h, .cancelled true⟩), .cancelled,
      .endedReport ⟨id, h, .cancelled true⟩ (viewOf s h)⟩ := by
  simp [endedReportAns, he]

end Report

/-! ## The position check (R163) -/

theorem nearTo_iff {tol centre : Nat} {v : Int} :
    nearTo tol centre v = true ↔ (centre : Int) - tol ≤ v ∧ v ≤ centre + tol := by
  simp only [nearTo, decide_eq_true_eq]; omega

theorem positionCheck_result (s : State) (c x y : Nat) : (positionCheck s c (x, y)).result =
    if ¬ ((s.sampled c).x.validity.placed = true ∧ (s.sampled c).y.validity.placed = true) then .unverified
    else if ((x : Int) - s.clu.runway.tolerance ≤ (s.sampled c).x.value ∧
        (s.sampled c).x.value ≤ x + s.clu.runway.tolerance) ∧
      (y : Int) - s.clu.runway.tolerance ≤ (s.sampled c).y.value ∧
        (s.sampled c).y.value ≤ y + s.clu.runway.tolerance then .verified
    else .wrongPlace := by
  simp only [← nearTo_iff, positionCheck, ← Bool.and_eq_true, ← Bool.not_and, Bool.not_eq_true', Bool.not_eq_true]

/-! ## The lift (R165) -/

/-- The piece is on the hook and its move CARRYING, once it has left its collection and its source is unlocked. -/
def lifted (s : State) (c : Nat) (m : Move) (q : List Move) (v : Piece) : State :=
  ((s.setHook c (some m.piece)).setRecord m.piece.index ⟨m.piece.gen, some v⟩).setQueue c ({ m with state := .carrying } :: q)

section Lift

variable {s : State} {c n z : Nat} {m : Move} {q : List Move} {p : Piece}

/-- The piece lifted, once its collection has let it go. -/
theorem lift_eq {t : State}
    (ht : t = phaseAfterPick (unlockSource (leavePlace s p.place m.piece p.thickness) p.place) p.place)
    (hq : t.queue c = m :: q) (h : ∀ x ∈ q, x.id ≠ m.id) :
    lift s c m p = lifted t c m q { p with state := .inTransit, place := .hook c } := by
  rw [lift, ← ht]
  exact modMove_head _ hq h

theorem leave_slot (hp : p.place = .slot n) :
    phaseAfterPick (unlockSource (leavePlace s p.place m.piece p.thickness) p.place) p.place =
      s.setSlot n { s.slot n with
        stack := (s.slot n).stack.filter (· ≠ m.piece), height := (s.slot n).height - p.thickness,
        outCount := (s.slot n).outCount - 1 } := by
  rw [hp]
  let v : Slot := { s.slot n with
    stack := (s.slot n).stack.filter (· ≠ m.piece), height := (s.slot n).height - p.thickness }
  show ((s.setSlot n v).setSlot n { (s.setSlot n v).slot n with outCount := ((s.setSlot n v).slot n).outCount - 1 }) = _
  rw [State.slot_setSlot, if_pos rfl]
  simp only [State.setSlot]
  rw [bankSet_bankSet (fun _ => Slot.reset) _ fun e => .inl ?_]
  rw [e]; rfl

theorem leave_receiving (hp : p.place = .receiving) :
    phaseAfterPick (unlockSource (leavePlace s p.place m.piece p.thickness) p.place) p.place =
      { s with lmap := { s.lmap with receiving := s.lmap.receiving.filter (· ≠ m.piece) } } := by
  rw [hp]; rfl

/-- A LOADED zone whose last piece is lifted becomes CLEAR (R62). -/
theorem leave_zone (hp : p.place = .zone z) :
    phaseAfterPick (unlockSource (leavePlace s p.place m.piece p.thickness) p.place) p.place =
      let rest := (s.bed z).pieces.filter (· ≠ m.piece)
      let t := s.setBed z { s.bed z with pieces := rest }
      if (s.zone z).phase = .loaded ∧ rest = [] then t.setZone z { s.zone z with phase := .clear } else t := by
  rw [hp]
  show (if (s.zone z).phase = .loaded && _ then _ else _) = _
  simp only [leavePlace, unlockSource, State.bed_setBed, if_pos, Bool.and_eq_true, decide_eq_true_eq, List.isEmpty_iff]
  rfl

theorem piece?_raiseUnverified_lifted (k : PosCheck) (v : Piece) :
    (raiseUnverified (lifted s c m q v) c k).piece? m.piece = some v := by
  unfold raiseUnverified lifted
  split <;> simp

theorem pickTaken_far (hp : s.piece? m.piece = some p)
    (hk : (positionCheck s c (placeCentre s p.place)).result = .wrongPlace) :
    pickTaken c s m = ⟨s, .wrongPlace, .check (positionCheck s c (placeCentre s p.place))⟩ := by
  simp only [pickTaken, hp, if_pos hk]

theorem pickTaken_near {t : State} (hp : s.piece? m.piece = some p)
    (hk : (positionCheck s c (placeCentre s p.place)).result ≠ .wrongPlace)
    (ht : t = phaseAfterPick (unlockSource (leavePlace s p.place m.piece p.thickness) p.place) p.place)
    (hq : t.queue c = m :: q) (h : ∀ x ∈ q, x.id ≠ m.id) : pickTaken c s m =
      let k := positionCheck s c (placeCentre s p.place)
      let v := { p with state := .inTransit, place := .hook c }
      let t := raiseUnverified (lifted t c m q v) c k
      okWith t (.picked c { m with state := .carrying } (some (pieceView t m.piece v)) k) := by
  simp only [pickTaken, hp, if_neg hk, lift_eq ht hq h, viewOf, piece?_raiseUnverified_lifted, Option.map_some]

end Lift

/-- Settles O50: by the collection the piece leaves; and the position check by what the crane's axes show. -/
theorem pickedLifts : Obligations.PickedLifts := by
  unfold Obligations.PickedLifts
  refine ⟨fun s a c m q p hs hm hid hq hunique hst hp => ?picked, fun s c x y => ?check, fun s n z => ⟨rfl, rfl, rfl⟩⟩
  case picked =>
    intro i u k v m' up
    have hqu : u.queue c = m :: q := (queue_answering ..).trans hq
    have hpu : u.piece? m.piece = some p := (piece?_answering ..).trans hp
    have hk : positionCheck u c (placeCentre u p.place) = k := by simp only [u, placeCentre_answering, positionCheck_answering, k]
    have hreport : craneReport c m.id false (pickedAns c) u = pickTaken c u m := by
      rw [craneReport_queued (by simpa [u] using hm) hid (moveOf_eq (r := []) hqu nofun), pickedAns, hst]
    have hto : ∀ {st r t}, pickTaken c u m = ⟨t, st, r⟩ → StationAnswers i s a .picked st r t :=
      fun e => .of_ans rfl hs rfl (unit_matches _) (hreport.trans e)
    have hslot : s.slot = u.slot := funext fun n => (slot_answering s a n).symm
    have hbed : s.bed = u.bed := funext fun n => (bed_answering s a n).symm
    have hzone : s.zone = u.zone := funext fun n => (zone_answering s a n).symm
    have hlmap : s.lmap = u.lmap := (lmap_answering s a).symm
    refine ⟨fun hfar => hto ?_, fun hnear => ?_⟩
    · rw [pickTaken_far hpu (by rw [hk]; exact hfar), hk]
    have hup : ∀ t, t = phaseAfterPick (unlockSource (leavePlace u p.place m.piece p.thickness) p.place) p.place →
        t.queue c = m :: q → up t := fun t ht hqt => by
      have hans := pickTaken_near hpu (by rw [hk]; exact hnear) ht hqt hunique
      rw [hk] at hans
      exact hto hans
    refine ⟨fun n hn => ?_, fun hr => ?_, fun z hz => ?_⟩
    · rw [hslot]; exact hup _ (leave_slot hn).symm hqu
    · rw [hlmap]; exact hup _ (leave_receiving hr).symm hqu
    · rw [hbed, hzone]
      refine hup _ (leave_zone hz).symm ?_
      split <;> exact hqu
  case check =>
    intro k m tol seen near
    have hk := positionCheck_result s c x y
    exact ⟨fun h => hk.trans (if_pos h), fun h hn => hk.trans ((if_neg (not_not.2 h)).trans (if_pos hn)),
      fun h hn => hk.trans ((if_neg (not_not.2 h)).trans (if_neg hn)), rfl⟩

end Sys2Proof.Machine
end

section
/-! PROOFS. Setdown: PLACED (R166) and the pending start check that follows it (R78). -/

open Sys2Proof Sys2Proof.Machine

namespace Sys2Proof.Machine

/-! ## The pending start check, by what it does -/

/-- What holds of the state that a pending start check leaves, it brings about (R78). -/
theorem PendingStartTo.of_pendingStart {s : State} {T : Nat} {tells : State → Prop} (h : tells (pendingStart s T)) :
    PendingStartTo s T tells :=
  ⟨fun hs => pendingStart_stands hs ▸ h, fun _ _ hc hr => pendingStart_of_ready_a hc hr ▸ h,
    fun _ _ hc hf hr => pendingStart_of_ready_b hc hf hr ▸ h⟩

/-! ## The set-down (R166) -/

/-- The piece is off the hook, its move the crane's ended one, and MOVE_DONE is raised. -/
def laidDown (s : State) (c : Nat) (m : Move) (q : List Move) (v : Piece) : State :=
  raise ((((s.setHook c none).setRecord m.piece.index ⟨m.piece.gen, some v⟩).setQueue c q).setEndedMove c
    (some ⟨m.id, m.piece, .placed⟩)) (.crane c) .moveDone

section SetDown

variable {s : State} {c : Nat} {m : Move} {q : List Move} {p : Piece}

theorem setDown_slot (n : Nat) (hq : s.queue c = m :: q) (h : ∀ x ∈ q, x.id ≠ m.id) : setDown s c m p (.slot n) =
    laidDown (s.setSlot n { s.slot n with
        stack := (s.slot n).stack ++ [m.piece], height := (s.slot n).height + p.thickness,
        inCount := (s.slot n).inCount - 1, inThick := (s.slot n).inThick - p.thickness })
      c m q { p with state := .stored, place := .slot n, move := none } := by
  let v : Slot := { s.slot n with stack := (s.slot n).stack ++ [m.piece], height := (s.slot n).height + p.thickness }
  let w : Slot := { v with inCount := v.inCount - 1, inThick := v.inThick - p.thickness }
  have htwice : ((s.setHook c none).setSlot n v).setSlot n { ((s.setHook c none).setSlot n v).slot n with
      inCount := (((s.setHook c none).setSlot n v).slot n).inCount - 1,
      inThick := (((s.setHook c none).setSlot n v).slot n).inThick - p.thickness } = (s.setHook c none).setSlot n w := by
    rw [State.slot_setSlot, if_pos rfl]
    simp only [State.setSlot]
    rw [bankSet_bankSet (fun _ => Slot.reset) _ fun e => by simp [v, Slot.reset] at e]
  rw [setDown, show joinPlace (leavePlace s (.hook c) m.piece p.thickness) (Dest.slot n).place m.piece p.thickness =
    (s.setHook c none).setSlot n v from rfl]
  simp only [releaseDest, htwice]
  rw [dropMove_head (q := q) ?_ h]
  · rfl
  · exact hq

theorem setDown_zone (z : Nat) (hq : s.queue c = m :: q) (h : ∀ x ∈ q, x.id ≠ m.id) : setDown s c m p (.zone z) =
    laidDown ((s.setBed z { s.bed z with pieces := (s.bed z).pieces ++ [m.piece] }).setZone z
        { s.zone z with inbound := none, phase := .loaded })
      c m q { p with state := .onTable, place := .zone z, move := none } := by
  rw [setDown, dropMove_head (q := q) ?_ h]
  · rfl
  · exact hq

theorem viewOf_raiseUnverified_laidDown (k : PosCheck) (v : Piece) :
    viewOf (raiseUnverified (laidDown s c m q v) c k) m.piece =
      some (pieceView (raiseUnverified (laidDown s c m q v) c k) m.piece v) := by
  have hp : (raiseUnverified (laidDown s c m q v) c k).piece? m.piece = some v := by
    unfold raiseUnverified laidDown
    split <;> simp
  rw [viewOf, hp]; rfl

theorem placeCarried_far {d : Dest} (hp : s.piece? m.piece = some p) (hd : m.dest = some d)
    (hk : (positionCheck s c (placeCentre s d.place)).result = .wrongPlace) :
    placeCarried c s m = ⟨s, .wrongPlace, .check (positionCheck s c (placeCentre s d.place))⟩ := by
  simp only [placeCarried, hp, hd]
  exact if_pos hk

theorem placeCarried_near {d : Dest} (hp : s.piece? m.piece = some p) (hd : m.dest = some d)
    (hk : (positionCheck s c (placeCentre s d.place)).result ≠ .wrongPlace) : placeCarried c s m =
      let k := positionCheck s c (placeCentre s d.place)
      let t := startAfterPlacing (raiseUnverified (setDown s c m p d) c k) d
      okWith t (.placed (viewOf t m.piece) k (destNest t d)) := by
  simp only [placeCarried, hp, hd]
  exact if_neg hk

end SetDown

/-- Settles O51: on a slot and on a zone, where the pending start check of the table decides what the reply shows. -/
theorem placedSetsDown : Obligations.PlacedSetsDown := by
  unfold Obligations.PlacedSetsDown
  intro s a c m q p d hs hm hid hq hunique hst hd hp i u k laid tells
  have hqu : u.queue c = m :: q := (queue_answering ..).trans hq
  have hpu : u.piece? m.piece = some p := (piece?_answering ..).trans hp
  have hk : positionCheck u c (placeCentre u d.place) = k := by simp only [u, placeCentre_answering, positionCheck_answering, k]
  have hreport : craneReport c m.id true (placedAns c) u = placeCarried c u m := by
    rw [craneReport_queued (by simpa [u] using hm) hid (moveOf_eq (r := []) hqu nofun), placedAns, hst]
  have hto : ∀ {st r t}, placeCarried c u m = ⟨t, st, r⟩ → StationAnswers i s a .placed st r t :=
    fun e => .of_ans rfl hs rfl (unit_matches _) (hreport.trans e)
  have hslot : s.slot = u.slot := funext fun n => (slot_answering s a n).symm
  have hbed : s.bed = u.bed := funext fun n => (bed_answering s a n).symm
  have hzone : s.zone = u.zone := funext fun n => (zone_answering s a n).symm
  refine ⟨fun hfar => hto ?_, fun hnear => ?_⟩
  · rw [placeCarried_far hpu hd (by rw [hk]; exact hfar), hk]
  have hans := placeCarried_near hpu hd (by rw [hk]; exact hnear)
  rw [hk] at hans
  refine ⟨fun n hn _ => ?_, fun z hz => ?_⟩
  · subst hn
    rw [hslot]
    rw [setDown_slot n hqu hunique] at hans
    exact ⟨viewOf_raiseUnverified_laidDown k _, hto hans⟩
  · subst hz
    rw [hbed, hzone]
    rw [setDown_zone z hqu hunique] at hans
    exact ⟨viewOf_raiseUnverified_laidDown k _, .of_pendingStart (hto hans)⟩

end Sys2Proof.Machine
end

section
/-! PROOFS. Abandon: MOVE_ABANDON (R167), and how the crane's reports are sorted (R164). -/

open Sys2Proof Sys2Proof.Machine

namespace Sys2Proof.Machine

/-! ## Takes and carries given up (R167) -/

section GivenUp

variable {s : State} {c : Nat} {m : Move} {r q : List Move} {p : Piece}

theorem thicknessOf_eq {h : Handle} (hp : s.piece? h = some p) : thicknessOf s h = p.thickness := by simp [thicknessOf, hp]

theorem unlockSourceOf_eq {h : Handle} (hp : s.piece? h = some p) : unlockSourceOf s h = unlockSource s p.place := by
  simp [unlockSourceOf, hp]

theorem piece?_unlockSource (pl : Place) (h : Handle) : (unlockSource s pl).piece? h = s.piece? h := by cases pl <;> rfl

theorem zone_unlockSource (pl : Place) (z : Nat) : (unlockSource s pl).zone z = s.zone z := by cases pl <;> rfl

theorem queue_unlockSource (pl : Place) (c : Nat) : (unlockSource s pl).queue c = s.queue c := by cases pl <;> rfl

theorem queue_releaseDest (t : Nat) (d : Option Dest) (c : Nat) : (releaseDest s t d).queue c = s.queue c := by
  rcases d with _ | _ | _ <;> rfl

theorem abandonTaken_eq (hp : s.piece? m.piece = some p) (hq : s.queue c = r ++ m :: q) (h : ∀ x ∈ r ++ q, x.id ≠ m.id) :
    abandonTaken s c m = (releaseDest (unlockSource s p.place) p.thickness m.dest).setQueue c
      (r ++ { m with state := .queued } :: q) := by
  rw [abandonTaken, unlockSourceOf_eq hp, thicknessOf_eq ((piece?_unlockSource ..).trans hp),
    modMove_eq _ ((queue_releaseDest ..).trans ((queue_unlockSource ..).trans hq)) h]

theorem abandonCarrying_eq (hp : s.piece? m.piece = some p) (hq : s.queue c = r ++ m :: q) (h : ∀ x ∈ r ++ q, x.id ≠ m.id) :
    abandonCarrying s c m = raise ((releaseDest s p.thickness m.dest).setQueue c
      (r ++ { m with state := .suspended, dest := none } :: q)) (.crane c) .moveSuspended := by
  rw [abandonCarrying, thicknessOf_eq hp, modMove_eq _ ((queue_releaseDest ..).trans hq) h]

end GivenUp

/-- Settles O52: a MOVE_ABANDON by the state of its move, and a report that cannot act by the cases of R164. -/
theorem craneReportsAreSorted : Obligations.CraneReportsAreSorted := by
  unfold Obligations.CraneReportsAreSorted
  have hpicked : ∀ {s : State} {a c id : Nat} {st : Status} {x : ReplyRecord} {t : State}, s.serves a .crane c →
      craneReport c id false (pickedAns c) (answering s a) = ⟨t, st, x⟩ →
        StationAnswers (.picked c id) s a .picked st x t := fun hs e => .of_ans rfl hs rfl (unit_matches _) e
  have hplaced : ∀ {s : State} {a c id : Nat} {st : Status} {x : ReplyRecord} {t : State}, s.serves a .crane c →
      craneReport c id true (placedAns c) (answering s a) = ⟨t, st, x⟩ →
        StationAnswers (.placed c id) s a .placed st x t := fun hs e => .of_ans rfl hs rfl (unit_matches _) e
  have habandon : ∀ {s : State} {a c id : Nat} {st : Status} {x : ReplyRecord} {t : State}, s.serves a .crane c →
      craneReport c id false (abandonAns c) (answering s a) = ⟨t, st, x⟩ →
        StationAnswers (.moveAbandon c id) s a .moveAbandon st x t := fun hs e => .of_ans rfl hs rfl (unit_matches _) e
  refine ⟨fun s a c m r q p hs hm hid hq hunique hp => ?abandon, fun s a c id hs => ?sorted⟩
  case abandon =>
    intro i u front back hung unlocked released tells
    have hqu : u.queue c = r ++ m :: q := (queue_answering ..).trans hq
    have hpu : u.piece? m.piece = some p := (piece?_answering ..).trans hp
    have hslot : s.slot = u.slot := funext fun n => (slot_answering s a n).symm
    have hzone : s.zone = u.zone := funext fun n => (zone_answering s a n).symm
    have hreport : craneReport c m.id false (abandonAns c) u = abandonAns c u m :=
      craneReport_queued (by simpa [u] using hm) hid
        (moveOf_eq hqu fun x hx => hunique x (List.mem_append_left _ hx))
    have hto : ∀ {x t}, abandonAns c u m = ⟨t, .ok, x⟩ → tells x t := fun e => habandon hs (hreport.trans e)
    have hunlocked : unlocked u = unlockSource u p.place := by
      simp only [unlocked, hslot]; cases p.place <;> rfl
    have hreleased : ∀ t : State, t.zone = u.zone → released t = releaseDest t p.thickness m.dest := fun t ht => by
      simp only [released, hzone, ← ht]; rcases m.dest with _ | _ | _ <;> rfl
    refine ⟨fun hst => hto ?_, fun hst => hto ?_, fun hst => hto ?_⟩
    · have hview : viewOf u m.piece = some (pieceView u m.piece p) := by rw [viewOf, hpu]; rfl
      rw [← hview]
      obtain hst | hst := hst <;> rw [abandonAns, hst] <;> rfl
    · rw [abandonAns, hst, hunlocked, hreleased _ (funext fun z => zone_unlockSource ..)]
      exact congrArg (okWith · _) (abandonTaken_eq hpu hqu hunique)
    · rw [abandonAns, hst, hreleased u rfl]
      exact congrArg (okWith · _) (abandonCarrying_eq hpu hqu hunique)
  case sorted =>
    intro u all
    have hmode : u.ppn.mode = s.ppn.mode := ppn_mode_answering ..
    have hqueue : u.queue c = s.queue c := queue_answering ..
    have hended : u.endedMove c = s.endedMove c := endedMove_answering ..
    have hall : ∀ {st x t}, (∀ placedOk byMove, craneReport c id placedOk byMove u = ⟨t, st, x⟩) →
        all fun i k => StationAnswers i s a k st x t := fun e => ⟨hpicked hs (e _ _), hplaced hs (e _ _), habandon hs (e _ _)⟩
    refine ⟨fun hm => hall fun _ _ => craneReport_cold (hmode.trans hm), fun hm hid => hall fun _ _ => ?_,
      fun hm hid hq => ?_, fun m r q hm hid hq hmid hr => ?_⟩
    all_goals have hmu : u.ppn.mode ≠ .cold := by rw [hmode]; exact hm
    · subst hid; exact craneReport_zero hmu
    · have hqu : ∀ x ∈ u.queue c, x.id ≠ id := by rw [hqueue]; exact hq
      refine ⟨fun he => hall fun _ _ => (craneReport_ended hmu hid hqu).trans ?_,
        fun h b he => hall fun _ _ => (craneReport_ended hmu hid hqu).trans ?_, fun h he => ?_⟩
      · exact endedReportAns_other (by rw [hended]; exact he)
      · rw [endedReportAns_cancelled (hended.trans he), viewOf_answering]
      have hdone := fun b => endedReportAns_placed (placedOk := b) (hended.trans he)
      refine ⟨hpicked hs ((craneReport_ended hmu hid hqu).trans (hdone _)),
        habandon hs ((craneReport_ended hmu hid hqu).trans (hdone _)),
        hplaced hs ((craneReport_ended hmu hid hqu).trans ((hdone _).trans ?_))⟩
      rw [viewOf_answering]; rfl
    · intro same
      subst hmid
      have hof : moveOf u c m.id = some m := moveOf_eq (hqueue.trans hq) hr
      have hstanding : asItStands u c m = okWith u same := by rw [asItStands, viewOf_answering]
      refine ⟨fun hst => hpicked hs ((craneReport_queued hmu hid hof).trans ?_),
        fun hst => hpicked hs ((craneReport_queued hmu hid hof).trans ?_),
        fun hst => hplaced hs ((craneReport_queued hmu hid hof).trans ?_)⟩
      · obtain hst | hst := hst <;> rw [pickedAns, hst] <;> exact hstanding
      · rw [pickedAns, hst]; rfl
      · unfold placedAns; split
        · next e => exact absurd e hst
        · rfl

end Sys2Proof.Machine
end

section
/-! PROOFS. Retarget: RETARGET_MOVE (R168) and CANCEL_MOVE (R169). -/

open Sys2Proof Sys2Proof.Machine

namespace Sys2Proof.Machine

theorem findMove_eq_some {s : State} {id c : Nat} {m : Move} (h : findMove s id = some (c, m)) :
    m ∈ s.queue c ∧ m.id = id := by
  obtain ⟨x, -, hx⟩ := List.exists_of_findSome?_eq_some h
  obtain ⟨y, hy, he⟩ := Option.map_eq_some_iff.1 hx
  cases he
  exact ⟨List.mem_of_find?_eq_some hy, by simpa using List.find?_some hy⟩

/-! ## RETARGET_MOVE (R168) -/

section Retarget

variable {s : State} {c id : Nat} {l : LocArg} {d : Dest} {m : Move} {p : Piece}

theorem retargetMoveAns_found (hid : id ≠ 0) (hd : destArg? l = some d) (hf : findMove s id = some (c, m)) :
    retargetMoveAns id l s =
      if m.state ≠ .suspended then refuse s .badState
      else match retargetBlocked s m d with
        | some e => refuse s e
        | none => okWith (retarget s c m d) (.retarget c { m with state := .carrying, dest := some d }
            (destCentre (retarget s c m d) d).1 (destCentre (retarget s c m d) d).2) := by
  simp only [retargetMoveAns, if_neg hid, hd, hf] <;> rfl

theorem retargetBlocked_slot (n : Nat) (hp : s.piece? m.piece = some p) :
    retargetBlocked s m (.slot n) = roomTest s n p.thickness := by rw [retargetBlocked, thicknessOf_eq hp]

theorem retargetBlocked_closed {z : Nat} (h : (s.bed z).configured = false) : retargetBlocked s m (.zone z) = some .badState :=
  if_pos (by simp [h])

theorem retargetBlocked_occupied {z : Nat} (hc : (s.bed z).configured = true)
    (h : (s.zone z).phase ≠ .clear ∨ destPromised s m.id m.piece (.zone z) = true) :
    retargetBlocked s m (.zone z) = some .occupied := (if_neg (not_bnot hc)).trans (if_pos (by simpa using h))

theorem retargetBlocked_free {z : Nat} (hc : (s.bed z).configured = true) (hz : (s.zone z).phase = .clear)
    (h : ¬ destPromised s m.id m.piece (.zone z) = true) : retargetBlocked s m (.zone z) = none :=
  (if_neg (not_bnot hc)).trans (if_neg (by simpa [hz] using h))

theorem retarget_eq (hp : s.piece? m.piece = some p) (hunique : ∀ x ∈ s.queue c, x.id = m.id → x = m) : retarget s c m d =
    reserveDest (s.setQueue c ((s.queue c).map fun x =>
      if x.id = m.id then { m with state := .carrying, dest := some d } else x)) m.id p.thickness d := by
  have hmap : (s.queue c).map (fun x => if x.id = m.id then { x with state := .carrying, dest := some d } else x) =
      (s.queue c).map fun x => if x.id = m.id then { m with state := .carrying, dest := some d } else x :=
    List.map_congr_left fun x hx => by
      by_cases h : x.id = m.id
      · rw [hunique x hx h]
      · rw [if_neg h, if_neg h]
  rw [retarget, modMove, hmap, thicknessOf_eq (p := p) ?_]
  exact hp

end Retarget

/-! ## CANCEL_MOVE (R169) -/

/-- Zone `z` holds a STAGED nest whose plate is the piece of the handle. -/
def StagedAt (s : State) (h : Handle) (z : Nat) : Prop :=
  ∃ n, (s.zone z).nest = some n ∧ n.state = .staged ∧ n.plate = h

section Cancel

variable {s t : State} {c id : Nat} {h : Handle} {m : Move} {p : Piece}

theorem stagedAt_iff (ht : ∀ z, (t.zone z).nest = (s.zone z).nest) (z : Nat) :
    ((t.zone z).nest.any fun n => n.state == .staged && n.plate == h) = true ↔ StagedAt s h z := by
  simp [StagedAt, ht, Option.any_eq_true]

theorem startAfterCancel_stands (ht : ∀ z, (t.zone z).nest = (s.zone z).nest) (hn : ∀ z, z < 12 → ¬ StagedAt s h z) :
    startAfterCancel t h = t := by
  have hnone : stagedZone t h = none := firstFrom_none.2 fun z _ hz =>
    Bool.eq_false_iff.2 (mt (stagedAt_iff ht z).1 (hn z (by omega)))
  rw [startAfterCancel, hnone]

theorem startAfterCancel_starts {z : Nat} (ht : ∀ z, (t.zone z).nest = (s.zone z).nest) (hz : z < 12)
    (hs : StagedAt s h z) (hb : ∀ y, y < z → ¬ StagedAt s h y) : startAfterCancel t h = pendingStart t (zoneTable z) := by
  have hsome : stagedZone t h = some z := firstFrom_some.2 ⟨Nat.zero_le _, by omega, (stagedAt_iff ht z).2 hs,
    fun y _ hy => Bool.eq_false_iff.2 (mt (stagedAt_iff ht y).1 (hb y hy))⟩
  rw [startAfterCancel, hsome]

theorem removeMove_eq (hp : s.piece? m.piece = some p) : removeMove s c m =
    (s.setQueue c ((s.queue c).filter fun x => x.id ≠ m.id)).setRecord m.piece.index
      ⟨m.piece.gen, some { p with move := none }⟩ := by
  rw [removeMove, modPiece_eq (p := p) _ ?_, dropMove]
  exact hp

theorem piece?_releaseDest (n : Nat) (d : Option Dest) (h : Handle) : (releaseDest s n d).piece? h = s.piece? h := by
  rcases d with _ | _ | _ <;> rfl

theorem nest_releaseDest (n : Nat) (d : Option Dest) (z : Nat) :
    ((releaseDest s n d).zone z).nest = (s.zone z).nest := by
  rcases d with _ | _ | y
  · rfl
  · rfl
  · simp only [releaseDest, State.zone_setZone]
    split
    · next e => rw [e]
    · rfl

theorem cancelTaken_eq (hp : s.piece? m.piece = some p) : cancelTaken s c m =
    (removeMove (releaseDest (unlockSource s p.place) p.thickness m.dest) c m).setEndedMove c
      (some ⟨m.id, m.piece, .cancelled false⟩) := by
  rw [cancelTaken, unlockSourceOf_eq hp, thicknessOf_eq ((piece?_unlockSource ..).trans hp)]

theorem cancelMoveAns_found (hid : id ≠ 0) (hf : findMove s id = some (c, m)) : cancelMoveAns id s = match m.state with
      | .queued => okWith (startAfterCancel (removeMove s c m) m.piece) .none
      | .taken => okWith (startAfterCancel (cancelTaken s c m) m.piece) .none
      | .carrying | .suspended => refuse s .badState := by
  cases hst : m.state <;> simp only [cancelMoveAns, if_neg hid, hf, hst]

end Cancel

/-- Settles O53: the destination by the checks of its form; and the move removed, whose piece may have kept a nest from
starting. -/
theorem movesAreRetargetedAndCancelled : Obligations.MovesAreRetargetedAndCancelled := by
  unfold Obligations.MovesAreRetargetedAndCancelled
  refine ⟨fun s c id l d m p => ?retarget, fun s c id m p => ?cancel⟩
  case retarget =>
    intro i no
    have hno : ∀ {st}, retargetMoveAns id l s = refuse s st → no st := fun e => .of_ans rfl e
    refine ⟨fun hbad => hno ?_, fun hid hd hf => hno ?_, fun hid hd hf hp => ?_⟩
    · by_cases hid : id = 0
      · exact if_pos hid
      · simp only [retargetMoveAns, if_neg hid, hbad.resolve_left hid]
    · simp only [retargetMoveAns, if_neg hid, hd, hf]
    have hans := retargetMoveAns_found hid hd hf
    obtain ⟨-, rfl⟩ := findMove_eq_some hf
    refine ⟨fun hst => hno (hans.trans (if_pos hst)), fun hst => ?_⟩
    rw [if_neg (not_not.2 hst)] at hans
    intro m' t
    have hblocked : ∀ {e}, retargetBlocked s m d = some e → no e := fun he => hno (by rw [hans, he])
    refine ⟨fun n hn => ?_, fun z hz => ?_⟩
    · subst hn
      have hroom := retargetBlocked_slot n hp
      refine ⟨fun e he => hblocked (hroom.trans he), fun hr hunique => ?_⟩
      intro w
      have heq := retarget_eq (d := .slot n) hp hunique
      have hcentre : destCentre (retarget s c m (.slot n)) (.slot n) = (w.x, w.y) := by
        rw [heq]; simp [destCentre, Dest.place, placeCentre, reserveDest, w]
      rw [hroom, hr] at hans
      refine .of_ans rfl (hans.trans ?_)
      rw [hcentre, heq]; rfl
    · subst hz
      intro promised
      have hpromised : destPromised s m.id m.piece (.zone z) = true ↔ promised := destPromised_zone_iff
      refine ⟨fun hc => hblocked (retargetBlocked_closed hc),
        fun hc ho => hblocked (retargetBlocked_occupied hc (ho.imp_right hpromised.2)), fun hc hcl hpr hunique => ?_⟩
      rw [retargetBlocked_free hc hcl (mt hpromised.1 hpr)] at hans
      refine .of_ans rfl (hans.trans ?_)
      rw [retarget_eq (d := .zone z) hp hunique]; rfl
  case cancel =>
    intro i
    refine ⟨fun hid => .of_ans rfl (if_pos hid), fun hid hf => .of_ans rfl ?_, fun hid hf hp => ?_⟩
    · simp only [cancelMoveAns, if_neg hid, hf]; rfl
    intro staged drop done
    have hans := cancelMoveAns_found hid hf
    obtain ⟨-, rfl⟩ := findMove_eq_some hf
    have hdone : ∀ t, cancelMoveAns m.id s = okWith (startAfterCancel t m.piece) .none →
        (∀ z, (t.zone z).nest = (s.zone z).nest) → done t := fun t e ht => by
      refine ⟨fun hn => .of_ans rfl ?_, fun z hz hs hb => .of_pendingStart (.of_ans rfl ?_)⟩
      · rw [e, startAfterCancel_stands ht hn]; rfl
      · rw [e, startAfterCancel_starts ht hz hs hb]; rfl
    have htaken : m.state = .taken → ∀ t, t = releaseDest (unlockSource s p.place) p.thickness m.dest →
        done ((drop t).setEndedMove c (some ⟨m.id, m.piece, .cancelled false⟩)) := fun hst t ht => by
      have hpt : t.piece? m.piece = some p := by rw [ht, piece?_releaseDest, piece?_unlockSource, hp]
      have hqt : t.queue c = s.queue c := by rw [ht, queue_releaseDest, queue_unlockSource]
      refine hdone _ ?_ fun z => ?_
      · rw [hans, hst, cancelTaken_eq hp, ← ht, removeMove_eq hpt, hqt]
      · show (t.zone z).nest = _
        rw [ht, nest_releaseDest, zone_unlockSource]
    refine ⟨fun hst => .of_ans rfl ?_, fun hst => hdone _ ?_ fun z => rfl, fun hst => ?_⟩
    · rw [hans]; obtain hst | hst := hst <;> rw [hst] <;> rfl
    · rw [hans, hst, removeMove_eq hp]
    · intro ended freed
      have hfreed : ∀ t, t = unlockSource s p.place →
          freed t m.dest = releaseDest (unlockSource s p.place) p.thickness m.dest := fun t ht => by
        have hzone : s.zone = t.zone := by rw [ht]; exact funext fun z => (zone_unlockSource ..).symm
        rw [← ht]; simp only [freed, hzone]; rcases m.dest with _ | _ | _ <;> rfl
      refine ⟨fun n hn => htaken hst _ (hfreed _ ?_), fun hn => htaken hst _ (hfreed _ ?_)⟩
      · rw [hn]; rfl
      · cases hpl : p.place with
        | slot n => exact absurd hpl (hn n)
        | _ => rfl

end Sys2Proof.Machine
end

section
/-! PROOFS. Poll: the poll turn and what it makes of an answer (R175, R176), and the checks of a station's request (R178). -/

open Sys2Proof Sys2Proof.Machine

namespace Sys2Proof.Machine

/-! ## Starting and ending a turn (R175, R180) -/

section Turn

variable {s : State}

theorem pollTurnStart_stands (h : s.slc.turn ≠ none ∨ nextPollable s = none) : exec .pollTurnStart s = .next s := by
  show execPollTurnStart s = _
  unfold execPollTurnStart
  split
  · next ht hn => rw [ht, hn] at h; simp at h
  · rfl

theorem pollTurnStart_polls {i : Nat} (ht : s.slc.turn = none) (hn : nextPollable s = some i) :
    exec .pollTurnStart s = .next { s with slc := { s.slc with
      turn := some ⟨listed s i, none⟩, cursor := (s.slc.cursor + i + 1) % s.slc.pollList.length } } := by
  show execPollTurnStart s = _
  simp only [execPollTurnStart, ht, hn]

theorem nextPollable_none (h : ∀ i, i < s.slc.pollList.length → (s.station (listed s i)).state = .unused) :
    nextPollable s = none :=
  firstFrom_none.2 fun i _ hi => by simp [h i (by omega)]

theorem nextPollable_some {i : Nat} (hi : i < s.slc.pollList.length) (h : (s.station (listed s i)).state ≠ .unused)
    (hb : ∀ j, j < i → (s.station (listed s j)).state = .unused) : nextPollable s = some i :=
  firstFrom_some.2 ⟨Nat.zero_le _, by omega, by simpa using h, fun j _ hj => by simp [hb j hj]⟩

theorem endTurn_eq (s : State) : endTurn s = match s.slc.waiting with
    | none => { s with slc := { s.slc with turn := none } }
    | some w => { s with slc := { s.slc with
        turn := none, pollList := w.list, bitRate := w.rate, window := w.window, cursor := 0, waiting := none } } := by
  cases h : s.slc.waiting <;> simp [endTurn, applyWaiting, h]

end Turn

/-! ## Answers good and bad (R176) -/

/-- What is done with the answer awaited, by the events that are no request of a kind: each stands alone, the answer of an
entry now UNUSED ends the turn, and the rest is the event's own. -/
theorem pollEvent_eq (s : State) (i : Instr) (k : Nat)
    (hi : i ∈ [Instr.idleAnswer, .badAnswer, .replyWindowExpiry, .stationUnknownRequest k]) :
    (awaited s = none → exec i s = .next s) ∧
    ∀ a, awaited s = some a → (s.station a).binding = none → exec i s = .next (endTurn s) := by
  have hbad : (awaited s = none → badAnswer s = s) ∧
      ∀ a, awaited s = some a → (s.station a).binding = none → badAnswer s = endTurn s :=
    ⟨fun h => by simp [badAnswer, h], fun a h hb => by simp [badAnswer, h, hb]⟩
  simp only [List.mem_cons, List.not_mem_nil, or_false] at hi
  obtain rfl | rfl | rfl | rfl := hi
  · show (_ → execIdleAnswer s = _) ∧ ∀ a, _ → _ → execIdleAnswer s = _
    exact ⟨fun h => by simp [execIdleAnswer, h], fun a h hb => by simp [execIdleAnswer, h, hb]⟩
  · exact ⟨fun h => congrArg _ (hbad.1 h), fun a h hb => congrArg _ (hbad.2 a h hb)⟩
  · exact ⟨fun h => congrArg _ (hbad.1 h), fun a h hb => congrArg _ (hbad.2 a h hb)⟩
  · show (_ → execStationUnknownRequest k s = _) ∧ ∀ a, _ → _ → execStationUnknownRequest k s = _
    exact ⟨fun h => by simp [execStationUnknownRequest, h], fun a h hb => by simp [execStationUnknownRequest, h, hb]⟩

theorem awaited_eq_some {s : State} {a : Nat} : awaited s = some a ↔ s.slc.turn = some ⟨a, none⟩ := by
  unfold awaited
  split
  · next b h => simp [h]
  · next h =>
    simp only [reduceCtorEq, false_iff]
    exact h a

theorem answering_online {s : State} {a : Nat} (h : (s.station a).state ≠ .offline) :
    answering s a = s.setStation a ⟨.online, (s.station a).binding, 0⟩ := if_neg h

theorem answering_offline {s : State} {a : Nat} (h : (s.station a).state = .offline) :
    answering s a = raise (s.setStation a ⟨.online, (s.station a).binding, 0⟩) .link .stationOnline := if_pos h

theorem countMiss_counts {s : State} {a : Nat} (h : (s.station a).state ≠ .online ∨ (s.station a).misses < 2) :
    countMiss s a = s.setStation a { s.station a with misses := min 3 ((s.station a).misses + 1) } := by
  refine if_neg fun hlost => ?_
  rw [Bool.and_eq_true, decide_eq_true_iff, decide_eq_true_iff] at hlost
  have hthird : min 3 ((s.station a).misses + 1) = 3 := hlost.2
  have := h.resolve_left (not_not.2 hlost.1)
  omega

/-- The third miss in a row takes an ONLINE station OFFLINE. -/
theorem countMiss_loses {s : State} {a : Nat} (h : (s.station a).state = .online) (hm : 2 ≤ (s.station a).misses) :
    countMiss s a = stationLost (raise (s.setStation a ⟨.offline, (s.station a).binding, 3⟩) .link .stationOffline)
      (s.station a).binding := by
  have hthird : satInc 3 (s.station a).misses = 3 := by unfold satInc; omega
  rw [countMiss, if_pos (by simp [h, hthird]), hthird]

theorem badAnswer_bound {s : State} {a : Nat} {b : Role × Nat} (ha : awaited s = some a)
    (hb : (s.station a).binding = some b) : badAnswer s = endTurn (countMiss s a) := by
  simp [badAnswer, ha, hb]

theorem idleAnswer_bound {s : State} {a : Nat} {b : Role × Nat} (ha : awaited s = some a)
    (hb : (s.station a).binding = some b) : exec .idleAnswer s = .next (endTurn (answering s a)) := by
  show execIdleAnswer s = _
  simp [execIdleAnswer, ha, hb]

/-- Settles O54: the turn by the first pollable entry; an answer by whether one is awaited, of a bound entry, and good. -/
theorem pollTurnsRun : Obligations.PollTurnsRun := by
  unfold Obligations.PollTurnsRun
  refine ⟨fun s => ?turn, fun s a ha => ?answer⟩
  case turn =>
    intro l at' closed
    refine ⟨fun h => pollTurnStart_stands (.inl h), fun h => pollTurnStart_stands (.inr (nextPollable_none h)),
      fun i ht hi hs hb => pollTurnStart_polls ht (nextPollable_some hi hs hb), endTurn_eq s, fun a r h => ?_,
      fun h k i hi => (pollEvent_eq s i k hi).1 ?_⟩
    · show execPollTurnEnd s = _
      simp only [execPollTurnEnd, h]
    · exact Option.eq_none_iff_forall_ne_some.2 fun a e => h a (awaited_eq_some.1 e)
  case answer =>
    intro e
    have haw := awaited_eq_some.2 ha
    refine ⟨fun hb k i hi => (pollEvent_eq s i k hi).2 a haw hb, fun r u hb => ?_⟩
    intro heard missed gone miss
    have hidle := idleAnswer_bound haw hb
    have hmiss : ∀ t, countMiss s a = t → miss t := fun t ht => by
      have hbad : badAnswer s = endTurn t := by rw [badAnswer_bound haw hb, ht]
      exact ⟨congrArg _ hbad, congrArg _ hbad⟩
    refine ⟨fun hoff => ?_, fun hon => ?_, fun h => hmiss _ ?_, fun hon hm => ?_⟩
    · rw [hidle, answering_offline hoff, show (s.station a).binding = some (r, u) from hb]
    · rw [hidle, answering_online hon, show (s.station a).binding = some (r, u) from hb]
    · rw [countMiss_counts h]; simp only [missed, e, ← hb]
    · have hlost : countMiss s a = stationLost gone (some (r, u)) := by
        rw [countMiss_loses hon hm, show (s.station a).binding = some (r, u) from hb]
      refine ⟨fun hr => hmiss _ ?_, fun hr => hmiss _ ?_, fun hr => hmiss _ ?_⟩
      all_goals subst hr; exact hlost

/-! ## The checks of a station's request (R178) -/

/-- The codes of the kinds a role may send. -/
def allowedCodes : Role → List Nat
  | .burn => [6, 7, 29, 34, 35, 36, 27]
  | .mark => [6, 7, 29, 30, 31, 32]
  | .crane => [6, 7, 29, 52, 53, 54, 55]

theorem unknownAnswer_eq (r : Role) (k : Nat) :
    unknownAnswer r k = if k ∈ allowedCodes r then .range else .unknownRequest := by
  have hnamed : ∀ k, k < 67 → ((ReqKind.ofCode k).any (roleAllows r) = true ↔ k ∈ allowedCodes r) := by
    cases r <;> decide
  have hpast : 67 ≤ k → ReqKind.ofCode k = none ∧ k ∉ allowedCodes r := fun h => by
    refine ⟨?_, fun hk => ?_⟩
    · rw [ReqKind.ofCode, if_neg (by omega)]
      exact List.getElem?_eq_none (show 66 ≤ k - 1 by omega)
    · cases r <;> simp [allowedCodes] at hk <;> omega
  unfold unknownAnswer
  obtain h | h := Nat.lt_or_ge k 67
  · simp only [hnamed k h]
  · rw [(hpast h).1, if_neg (hpast h).2]; rfl

/-- A request that one role alone may send, of its own unit `t`, with the kind it is answered under. -/
def OfRole (s : State) (role : Role) (t : Nat) (x : Instr × ReqKind) : Prop :=
  (∃ body, exec x.1 s = stationRequest x.2 (some t) body s) ∧ ∀ r, roleAllows r x.2 = (r == role)

section Refused

variable {s : State} {a t u : Nat} {r role : Role} {x : Instr × ReqKind}

theorem OfRole.refuses_kind (h : OfRole s role t x) (hs : s.serves a r u) (hr : r ≠ role) :
    StationRefuses x.1 s a x.2 .unknownRequest := by
  obtain ⟨⟨body, hx⟩, hallows⟩ := h
  unfold StationRefuses StationAnswers
  rw [hx]
  simp [stationRequest, awaited_serves hs, hs.2, hallows, hr]

theorem OfRole.refuses_unit (h : OfRole s role t x) (hs : s.serves a role u) (ht : t ≠ u) :
    StationRefuses x.1 s a x.2 .notYours := by
  obtain ⟨⟨body, hx⟩, hallows⟩ := h
  unfold StationRefuses StationAnswers
  rw [hx]
  simp [stationRequest, awaited_serves hs, hs.2, hallows, ht]

end Refused

/-- Settles O55: the state of a station that answers, and each request by its role and its unit. -/
theorem stationRequestsAreChecked : Obligations.StationRequestsAreChecked := by
  unfold Obligations.StationRequestsAreChecked
  refine ⟨fun s a => ⟨answering_online, answering_offline⟩, fun s a u r hs => ?_⟩
  intro allowed all
  refine ⟨fun k => ?unknown, fun t b id p => ?refused⟩
  case unknown =>
    have hallowed : allowed = allowedCodes r := by cases r <;> rfl
    show execStationUnknownRequest k s = _
    simp only [execStationUnknownRequest, awaited_serves hs, hs.2, unknownAnswer_eq, hallowed]
  case refused =>
    intro z burns marks moves
    have hburns : burns.Forall (OfRole s .burn t) := by refine ⟨?_, ?_, ?_, ?_⟩ <;> exact ⟨⟨_, rfl⟩, fun _ => rfl⟩
    have hmarks : marks.Forall (OfRole s .mark t) := by refine ⟨?_, ?_, ?_⟩ <;> exact ⟨⟨_, rfl⟩, fun _ => rfl⟩
    have hmoves : moves.Forall (OfRole s .crane t) := by refine ⟨?_, ?_, ?_, ?_⟩ <;> exact ⟨⟨_, rfl⟩, fun _ => rfl⟩
    have hkind : ∀ {l role}, l.Forall (OfRole s role t) → r ≠ role → all l .unknownRequest :=
      fun hl hr x hx => (List.forall_iff_forall_mem.1 hl x hx).refuses_kind hs hr
    have hunit : ∀ {l role}, l.Forall (OfRole s role t) → t ≠ u → r = role → all l .notYours :=
      fun hl ht hr x hx => (List.forall_iff_forall_mem.1 hl x hx).refuses_unit (hr ▸ hs) ht
    exact ⟨hkind hburns, hkind hmarks, hkind hmoves, fun ht => ⟨hunit hburns ht, hunit hmarks ht, hunit hmoves ht⟩⟩

end Sys2Proof.Machine
end

section
/-! PROOFS. Stations: SET_STATION (R179) and SET_POLL_LIST (R180). -/

open Sys2Proof Sys2Proof.Machine

namespace Sys2Proof.Machine

/-! ## SET_STATION (R179) -/

theorem slc_stationLost (s : State) (b : Option (Role × Nat)) : (stationLost s b).slc = s.slc := by
  rcases b with _ | ⟨_ | _ | _, t⟩
  · rfl
  · exact slc_revoke s t .station
  · exact slc_withdrawMark s t
  · rfl

theorem station_stationLost (s : State) (b : Option (Role × Nat)) (x : Nat) :
    (stationLost s b).station x = s.station x := by simp only [State.station, slc_stationLost]

/-- The bindings that are in range (R177). -/
theorem bindingOf_eq {c u : Nat} (hc : c ≤ 2) (hu : u < if c = 2 then 3 else 6) :
    bindingOf (c, u) = some (if c = 0 then .burn else if c = 1 then .mark else .crane, u) := by
  obtain rfl | rfl | rfl : c = 0 ∨ c = 1 ∨ c = 2 := by omega
  all_goals exact if_pos (by simpa [unitOk] using hu)

theorem bindingOf_none {c u : Nat} (h : 2 < c ∨ (if c = 2 then 3 else 6) ≤ u) : bindingOf (c, u) = none := by
  match c with
  | 0 => exact if_neg (by simpa [unitOk] using h)
  | 1 => exact if_neg (by simpa [unitOk] using h)
  | 2 => exact if_neg (by simpa [unitOk] using h)
  | c + 3 => rfl

section Holder

variable {s : State} {a x : Nat} {b : Role × Nat}

theorem holderOf_none (h : ∀ x, 1 ≤ x → x ≤ 31 → (s.station x).binding ≠ some b) : holderOf s a b = none :=
  firstFrom_none.2 fun x h1 h31 => by simp [h x h1 (by omega)]

theorem holderOf_some (h1 : 1 ≤ x) (h31 : x ≤ 31) (hx : x ≠ a) (hb : (s.station x).binding = some b)
    (hunique : ∀ y, (s.station y).binding = some b → y = x) : holderOf s a b = some x :=
  firstFrom_some.2 ⟨h1, by omega, by simp [hx, hb], fun y _ hy => by
    have hother : (s.station y).binding ≠ some b := fun e => by have := hunique y e; omega
    simp [hother]⟩

theorem rebind_alone {o : Option (Role × Nat)} (h : o.bind (holderOf s a) = none) : rebind s a o =
    okWith ((stationLost s (s.station a).binding).setStation a (stationEntry o)) (.stations (a, stationEntry o) none) := by
  simp [rebind, h, displace]

/-- Another holder of the binding becomes UNUSED. -/
theorem rebind_displaces (hx : x ≠ a) (h : holderOf s a b = some x) : rebind s a (some b) =
    okWith ((stationLost ((stationLost s (s.station a).binding).setStation x Station.reset) (some b)).setStation a
      (stationEntry (some b))) (.stations (a, stationEntry (some b)) (some (x, Station.reset))) := by
  simp [rebind, h, displace, station_stationLost, hx]

end Holder

section SetStation

variable {s : State} {a : Nat}

theorem setStationAns_range {o : Option (Nat × Nat)} (h : a = 0 ∨ 31 < a) : setStationAns a o s = refuse s .range := by
  refine if_pos ?_
  rw [Bool.not_eq_true', Bool.eq_false_iff, Ne, inRange_iff]
  omega

theorem setStationAns_free (h : 1 ≤ a ∧ a ≤ 31) : setStationAns a none s = rebind s a none :=
  if_neg (not_bnot (inRange_iff.2 h))

theorem setStationAns_bound {q : Nat × Nat} {b : Role × Nat} (h : 1 ≤ a ∧ a ≤ 31) (hq : bindingOf q = some b) :
    setStationAns a (some q) s =
      if (s.station a).binding = some b then okWith s (.stations (a, s.station a) none) else rebind s a (some b) := by
  rw [setStationAns, if_neg (not_bnot (inRange_iff.2 h))]
  simp only [hq]

theorem setStationAns_unit {q : Nat × Nat} (hq : bindingOf q = none) : setStationAns a (some q) s = refuse s .range := by
  unfold setStationAns
  split
  · rfl
  · simp only [hq]

end SetStation

/-! ## SET_POLL_LIST (R180) -/

theorem pollRange_iff {l : List Nat} {rate : Option Nat} : pollRange l rate = true ↔
    l.length ≤ 32 ∧ (∀ a ∈ l, 1 ≤ a ∧ a ≤ 31) ∧ ∀ x, rate = some x → x = 500 ∨ x = 1000 ∨ x = 2000 := by
  simp only [pollRange, optFits_iff, Bool.and_eq_true, List.all_eq_true, inRange_iff, decide_eq_true_eq,
    List.contains_iff_mem, List.mem_cons, List.not_mem_nil, or_false, and_assoc]
  exact Iff.rfl

theorem pollSettings_eq (s : State) (l : List Nat) (rate window : Option Nat) : pollSettings s l rate window =
    let kept : LinkSettings := match s.slc.waiting with
      | some w => w
      | none => ⟨s.slc.pollList, s.slc.bitRate, s.slc.window⟩
    let wn : Nat := match window with
      | some x => if x < 100 then 100 else if 2000 < x then 2000 else x
      | none => kept.window
    ⟨l, rate.getD kept.rate, wn⟩ := by
  unfold pollSettings
  cases s.slc.waiting <;> cases window
  case none.some x | some.some x => simp only [Option.map_some, Option.getD_some, clamp_eq (show 100 ≤ 2000 by omega)] <;> rfl
  all_goals rfl

theorem setPollListAns_good {s : State} {l : List Nat} {rate window : Option Nat} {w : LinkSettings}
    (h : pollRange l rate = true) (hw : pollSettings s l rate window = w) : setPollListAns l rate window s =
      okWith (if s.slc.turn = none then { s with slc := { s.slc with
          pollList := l, bitRate := w.rate, window := w.window, cursor := 0, waiting := none } }
        else { s with slc := { s.slc with waiting := some w } }) (.pollList w) := by
  rw [setPollListAns, if_neg (not_bnot h), ← hw]
  cases ht : s.slc.turn with
  | none => simp [ht, applyWaiting]; rfl
  | some o => simp [ht]

/-- Settles O56: an entry released, kept, or written with or without another holder; and the settings at once or waiting. -/
theorem stationsAndPollListAreSet : Obligations.StationsAndPollListAreSet := by
  unfold Obligations.StationsAndPollListAreSet
  refine ⟨⟨fun s t => ⟨rfl, rfl, rfl, rfl⟩, fun s a c u => ?station⟩, fun s l rate window => ?pollList⟩
  case station =>
    intro set free top e s'
    refine ⟨fun ha => ⟨.of_ans rfl (setStationAns_range ha), .of_ans rfl (setStationAns_range ha)⟩,
      fun hcu => .of_ans rfl (setStationAns_unit (bindingOf_none hcu)), fun h1 h31 => ⟨.of_ans rfl ?_, ?_⟩⟩
    · rw [setStationAns_free ⟨h1, h31⟩, rebind_alone rfl]; rfl
    · intro role hc hu hrole b w
      subst hrole
      have hans : ∀ s, setStationAns a (some (c, u)) s = _ :=
        fun s => setStationAns_bound ⟨h1, h31⟩ (bindingOf_eq hc hu)
      refine ⟨fun he => .of_ans rfl ((hans s).trans (if_pos he)), fun he hnone => .of_ans rfl ?_,
        fun x he hx1 hx31 hx hunique => .of_ans rfl ?_⟩
      · rw [hans, if_neg he, rebind_alone (o := some b) (holderOf_none hnone)]; rfl
      · have hxa : x ≠ a := fun hxa => he (by rw [← hx, hxa])
        rw [hans, if_neg he, rebind_displaces hxa (holderOf_some hx1 hx31 hxa hx hunique)]; rfl
  case pollList =>
    intro i good kept wn w
    have hgood : pollRange l rate = true ↔ good := pollRange_iff
    have hw : pollSettings s l rate window = w := pollSettings_eq s l rate window
    refine ⟨fun h => .of_ans rfl (if_pos (bnot_of_not (mt hgood.1 h))), fun h ht => .of_ans rfl ?_,
      fun h ht => .of_ans rfl ?_⟩
    · rw [setPollListAns_good (hgood.2 h) hw, if_pos ht]; rfl
    · rw [setPollListAns_good (hgood.2 h) hw, if_neg ht]; rfl

end Sys2Proof.Machine
end
